-- ==== Sys2Proof/Word.lean ====
section
/-! DEFINITION. The words of the ZLX-A9: bytes, 32-bit words and 64-bit port values
(spec/00_scope.md R6, spec/02_bundles_and_ports.md R79, R82). -/

namespace Sys2Proof

/-- A byte of memory or of a bundle. -/
abbrev Byte := BitVec 8

/-- A 32-bit word: a vector register, a program counter, a binary32 value. -/
abbrev W32 := BitVec 32

/-- A 64-bit word: the content of a port for one lane, a lane mask. -/
abbrev W64 := BitVec 64

end Sys2Proof
end

