-- ==== Sys2Proof/Machine/Bits.lean ====
section
/-! DEFINITION. Bit fields, lane sets and the pseudocode helpers wrap, sext, zext and sat
(spec/01_engines_together.md R45). -/

namespace Sys2Proof.Machine

/-- Bits [hi:lo] of a 64-bit word as a number (spec/00_scope.md R6). -/
def bitsOf (x : W64) (hi lo : Nat) : Nat := x.toNat / 2 ^ lo % 2 ^ (hi + 1 - lo)

/-- Bit `i` of a 64-bit word. -/
def bitOf (x : W64) (i : Nat) : Bool := x.getLsbD i

/-- `x` modulo 2^n (R45). -/
def wrapNat (x : Int) (n : Nat) : Nat := (x % (2 ^ n : Int)).toNat

/-- The value of the low `n` bits of `x` taken as signed (R45). -/
def sextNat (x n : Nat) : Int :=
  let y := x % 2 ^ n
  if y < 2 ^ (n - 1) then (y : Int) else (y : Int) - 2 ^ n

/-- `lo` if x < lo, `hi` if x > hi, otherwise x (R45). -/
def satInt (x lo hi : Int) : Int := if x < lo then lo else if hi < x then hi else x

/-- Bits [31:0] of a port value. -/
def lo32 (x : W64) : W32 := x.setWidth 32

/-- Bits [63:32] of a port value. -/
def hi32 (x : W64) : W32 := (x >>> 32).setWidth 32

/-- A 32-bit value zero-extended to a port. -/
def zext32 (x : W32) : W64 := x.setWidth 64

/-- The signed value of bits [31:0]. -/
def s32 (x : W64) : Int := (lo32 x).toInt

/-- The unsigned value of bits [31:0]. -/
def u32 (x : W64) : Nat := (lo32 x).toNat

/-- The numbers of the lanes of a warp. -/
def laneNums : List Nat := List.range 64

/-- The mask of a list of lanes. -/
def maskOf : List Nat → W64
  | [] => 0
  | l :: r => BitVec.ofNat 64 (2 ^ l) ||| maskOf r

/-- The lanes of a mask, rising. -/
def lanesOf (m : W64) : List Nat := laneNums.filter fun l => m.getLsbD l

/-- The last element of a list of numbers, or `d`. -/
def lastD : List Nat → Nat → Nat
  | [], d => d
  | x :: r, _ => lastD r x

/-- The least of a list of numbers, or `d` for none. -/
def minOf : List Nat → Nat → Nat
  | [], d => d
  | [x], _ => x
  | x :: r, d => Nat.min x (minOf r d)

/-- The greatest of a list of numbers, 0 for none. -/
def maxOf : List Nat → Nat
  | [] => 0
  | x :: r => Nat.max x (maxOf r)

/-- The number of significant bits of a number. -/
def sigBits (n : Nat) : Nat := if n = 0 then 0 else Nat.log2 n + 1

/-- Changes the elements of a list, with their positions from `k`. -/
def mapFrom {α β : Type} (f : Nat → α → β) (k : Nat) : List α → List β
  | [] => []
  | x :: r => f k x :: mapFrom f (k + 1) r

/-- Changes the elements of a list, with their positions. -/
def mapIdx {α β : Type} (f : Nat → α → β) (l : List α) : List β := mapFrom f 0 l

/-- Changes element `k` of a list. -/
def modifyAt {α : Type} (f : α → α) : Nat → List α → List α
  | _, [] => []
  | 0, x :: r => f x :: r
  | k + 1, x :: r => x :: modifyAt f k r

/-- The element at the position of the first element that `p` accepts. -/
def firstWhere {α : Type} (p : α → Bool) : List α → Option α
  | [] => none
  | x :: r => if p x then some x else firstWhere p r

/-- Folds over a list from the left. -/
def foldOver {α σ : Type} (f : σ → α → σ) : σ → List α → σ
  | s, [] => s
  | s, x :: r => foldOver f (f s x) r

/-- The sum of numbers. -/
def sumOf (l : List Nat) : Nat := foldOver (fun n k => n + k) 0 l

end Sys2Proof.Machine
end

