-- ==== Sys2Proof/Config.lean ====
section
/-! DEFINITION. What the ZLX-A9 fixes for every run, and the free values: what the spec leaves open.
A free value is a constant without a body, so nothing can be proved about which value it is
(notes/assumptions/4.md). -/

namespace Sys2Proof.Config

/-- Stepping id of the device (spec/00_scope.md R4). -/
def steppingId : Nat := 0x01

/-- Cores, quads per core, lanes per warp, resident warps per quad, cores per cluster and clusters per die
(spec/00_scope.md R2). -/
def cores : Nat := 256
def quadsPerCore : Nat := 4
def lanes : Nat := 64
def warpSlots : Nat := 16
def coresPerCluster : Nat := 4
def clustersPerDie : Nat := 16

/-- Register budget sum of one quad (spec/01_engines_together.md R19). -/
def quadRegs : Nat := 1024

/-- Bytes of local HBM: 768 GiB (spec/00_scope.md R2). -/
def hbmBytes : Nat := 768 * 2 ^ 30

/-- Bytes of device memory at the top of local HBM that the loader keeps for itself: save areas, port backing
areas, the overflow pool, the journal (spec/13_loader.md R480, R481). DESIGN CHOICE (notes/assumptions/9.md):
the spec gives no size; no program address reaches the area. -/
def reservedBytes : Nat := 2 ^ 34

/-- First address of the area that the loader keeps. -/
def reservedBase : Nat := hbmBytes - reservedBytes

/-- A free choice between two outcomes that the spec both allows, the `n`-th of a run. -/
opaque freeBool : Nat → Bool

/-- A free number, the `n`-th of a run: a delay, an order, a choice among several. -/
opaque freeNat : Nat → Nat

/-- What the payload of a flit holds beyond what the spec lays out, by message and number of the flit (spec/11_fabric.md R404;
notes/assumptions/18.md). -/
opaque flitPayload : Nat → Nat → BitVec 512

/-- A free 64-bit value, the `n`-th of a run (an unspecified value of R11). -/
opaque freeWord : Nat → BitVec 64

/-- The home slice of a line of local memory, by its number: 64 × die + slice, 0 to 255 (spec/05_memory_ports.md R220
leaves the hash open). -/
opaque homeHash : Nat → Nat

/-- The raw result of an approximate function of sfn0, by opcode and operand: the same on every device of the
stepping (spec/04_lane_units.md R70, R177); the bounds of R177 are applied where it is used. -/
opaque sfnApprox : Nat → BitVec 32 → BitVec 32

/-- SHAKE256 with an output of 64 bytes (spec/13_loader.md R487): uninterpreted (notes/assumptions/15.md). -/
opaque shake256 : List (BitVec 8) → List (BitVec 8)

/-- Does an Ed448ph signature verify: public key, context string, prehash, signature
(spec/13_loader.md R487)? Uninterpreted (notes/assumptions/15.md). -/
opaque ed448Verify : List (BitVec 8) → List (BitVec 8) → List (BitVec 8) → List (BitVec 8) → Bool

/-- The Ed448ph signature of a prehash under the device identity key (spec/13_loader.md R490). -/
opaque ed448Sign : List (BitVec 8) → List (BitVec 8) → List (BitVec 8)

/-- The identity key's certificate (spec/13_loader.md R490). -/
opaque identityCertificate : List (BitVec 8)

/-- The Parnex root key fused in the I/O die (spec/13_loader.md R487). -/
opaque rootKey : List (BitVec 8)

/-- The code bytes that the Boruth translator makes of the Osmin form of an image, no function with a budget above the
second argument; the layout of its bundles and the place of its private region are not stated (spec/13_loader.md R495 to
R499, notes/assumptions/16.md). -/
opaque boruthCode : List (BitVec 8) → Nat → List (BitVec 8)

/-- The native entries of the functions of that translation, by function. -/
opaque boruthEntry : List (BitVec 8) → Nat → Nat → BitVec 32

/-- The virtual address at which the pages of the context map the code of a slot, where the device translates its fetches: the spec
states the checks of a fetch (spec/05_memory_ports.md R225, R228) and not which pages of the context lie under its code space
(spec/03_warp_sequencer.md R113). None: the loader's own placement is read (notes/assumptions/9.md). -/
opaque codeVa : Nat → Nat → Option Nat

/-- What a lane of an exported context takes up again: warp, lane, address of its safe point, registers by number. -/
structure ImportedLane where
  warp : Nat
  lane : Nat
  pc : BitVec 32
  regs : List (Nat × BitVec 32)
  deriving DecidableEq, Repr

/-- A team of an exported context: its index, its roles (warps and budget), its lanes, its team store. -/
structure ImportedTeam where
  index : Nat
  roles : List (Nat × Nat)
  lanes : List ImportedLane
  tstore : List (BitVec 8)
  deriving DecidableEq, Repr

/-- The bytes in which the debugger reads an item of a kind from its fields, and the fields that bytes it writes set, where the
spec gives the item's size and no layout: loop level 6, control word and flags 8, handler state 9, replay buffer 11, store-queue
entries 12 (spec/13_loader.md R476, notes/assumptions/37.md). -/
opaque debugBytes : Nat → List Nat → List (BitVec 8)
opaque debugFields : Nat → List (BitVec 8) → List Nat

/-- Does the debugger's image of a return stack list the newest entry first (spec/13_loader.md R476 does not say)? -/
opaque debugTopFirst : Bool

/-- The teams that an export buffer holds, placed in a translation of an image; the format of the buffer and the places of
values at safe points are not stated (spec/13_loader.md R500, notes/assumptions/16.md). -/
opaque importedTeams : List (BitVec 8) → List (BitVec 8) → List ImportedTeam

end Sys2Proof.Config
end

