-- ==== Sys2Proof/Syntax.lean ====
section
/-! DEFINITION. The instructions: one constructor for each row of spec/opcode_table.json.
The rows are of three kinds: triggers of unit opcodes, each a move of a bundle (spec/02_bundles_and_ports.md R86);
commands of the loader (spec/13_loader.md R471), whose operands stand in the entry (`Cmd`); and the steps that the
device or its surroundings make by themselves (spec/95_what_each_step_holds.md), which have no encoding and act on
a `Subject`: the warp, operation, team, message or access that the step concerns. Operands and subjects of the last
two kinds are held by the state while the step is made. -/

namespace Sys2Proof

/-- Source of a move: a port code, a signed 20-bit immediate or the 32-bit bundle constant
(spec/02_bundles_and_ports.md R75). -/
inductive Src where
  | port (code : BitVec 13)
  | imm (v : BitVec 20)
  | const (v : BitVec 32)
  deriving DecidableEq, Repr

/-- The guard and the source of a move that triggers an opcode, alone in its bundle
(spec/02_bundles_and_ports.md R75, R90). -/
structure Trig where
  g : BitVec 4
  ng : Bool
  src : Src
  deriving DecidableEq, Repr

/-- Source of a move of a general bundle; the constant stands once, in slot 5 (R75, R76). -/
inductive MSrc where
  | port (code : BitVec 13)
  | imm (v : BitVec 20)
  | const
  deriving DecidableEq, Repr

/-- A move (spec/02_bundles_and_ports.md R75). -/
structure Move where
  g : BitVec 4
  ng : Bool
  dst : BitVec 13
  src : MSrc
  deriving DecidableEq, Repr

/-- What slot 5 holds beside moves: a constant, or a matrix configuration word (R76); `e` is E3 to E0. -/
inductive Slot5 where
  | none
  | const (v : BitVec 32)
  | cfg (set j : BitVec 2) (e : BitVec 32)
  deriving DecidableEq, Repr

/-- A bundle (spec/02_bundles_and_ports.md R73 to R77). -/
structure Bundle where
  sw : Bool
  d : BitVec 3
  lv : BitVec 3
  im : BitVec 2
  moves : List Move
  slot5 : Slot5
  deriving DecidableEq, Repr

/-- A loader command entry without its code (spec/13_loader.md R470). -/
structure Cmd where
  fence : Bool
  irq : Bool
  ctx : BitVec 16
  tag : BitVec 32
  w1 : W64
  w2 : W64
  w3 : W64
  w4 : W64
  w5 : W64
  w6 : W64
  w7 : W64
  deriving DecidableEq, Repr

/-- A warp of a resident or saved team. -/
structure WRef where
  team : Nat
  warp : Nat
  deriving DecidableEq, Repr

/-- What a table walk serves: one lane of a memory or object operation, or an engine job. -/
inductive TransRef where
  | op (w : WRef) (op lane : Nat)
  | job (team job : Nat)
  deriving DecidableEq, Repr

/-- Where an error in stored data is found (spec/05_memory_ports.md R222). -/
inductive EccSite where
  | l1 (core sector : Nat)
  | l2 (sector : Nat)
  /-- A sector of a die's copy of a remote line. -/
  | remote (die line sector : Nat)
  /-- A sector of an older version of a line (spec/08_snapshot_engine.md R322). -/
  | version (line time sector : Nat)
  | hbm (sector : Nat)
  | tstore (team word : Nat)
  | port (w : WRef) (code lane : Nat)
  | acc (core tile elem : Nat)
  /-- A weight plane of a matrix engine (spec/07_matrix_engine.md R279). -/
  | plane (core : Nat) (p1 : Bool)
  /-- An 8-byte group of a flit on its way: group 0 its header, 1 to 8 its payload (spec/11_fabric.md R401, R405). -/
  | flit (msg seqno group : Nat)
  deriving DecidableEq, Repr

/-- A read, write or atomic of an outside party: its kind, width, address, data and compare value. -/
inductive AccKind where
  | read
  | write
  | add
  | exch
  | cas
  deriving DecidableEq, Repr

/-- A frame on a Weangeger Link port: whether its CRC holds (spec/11_fabric.md R422). -/
structure LinkFrame where
  port : Nat
  crcOk : Bool
  deriving DecidableEq, Repr

/-- An access of a peer device that arrives at the I/O die (spec/11_fabric.md R423): the physical address that its
page entry names, its bytes, and for an atomic the opcode of the memory unit. -/
structure PeerAccess where
  dev : Nat
  kind : AccKind
  opc : Nat
  addr : Nat
  bytes : Nat
  data : W64
  cmp : W64
  deriving DecidableEq, Repr

/-- A host access to a memory BAR of the device, with its Requester ID and Relaxed Ordering attribute
(spec/11_fabric.md R426, R427, spec/13_loader.md R475). -/
structure HostAccess where
  req : Nat
  relaxed : Bool
  func : Nat
  off : Nat
  bytes : List Byte
  kind : AccKind
  width : Nat
  operand : W64
  cmp : W64
  deriving DecidableEq, Repr

/-- Whose service time has passed (spec/12_supervisor.md R437). -/
inductive TimeoutRef where
  | handler (w : WRef)
  | context (ctx : Nat)
  | partition (func : Nat)
  | device
  deriving DecidableEq, Repr

/-- What device firmware brings at boot (spec/02_bundles_and_ports.md R102, spec/13_loader.md R487): its bytes, its
signature, the signed key list, the grade, the cores that are not enabled and the repair data. -/
structure Firmware where
  image : List Byte
  sig : List Byte
  keys : List (List Byte)
  keysSig : List Byte
  grade : Nat
  mxp : Bool
  cores : List Nat
  pairs : List (Nat × Nat)
  deriving DecidableEq, Repr

/-- What a step of the third kind acts on. -/
inductive Subject where
  | none
  /-- A warp. -/
  | warp (w : WRef)
  /-- An operation of a warp, or a fill of it, and a lane. -/
  | op (w : WRef) (op lane : Nat)
  /-- Something with a number: a team, core, line, launch, command, write, update, message, router. -/
  | num (n : Nat)
  /-- Something with two numbers: team and job, team and barrier, core and quad, line and time. -/
  | pair (m n : Nat)
  /-- A table walk. -/
  | trans (r : TransRef)
  /-- An error in stored data, correctable or not. -/
  | ecc (site : EccSite) (correctable : Bool)
  /-- A pre-emption request: core, teams, and source 0 walker, 1 system software, 2 world switch. -/
  | teams (core : Nat) (l : List Nat) (source : Nat)
  | timeout (r : TimeoutRef)
  | frame (f : LinkFrame)
  | peer (p : PeerAccess)
  | host (h : HostAccess)
  | firmware (f : Firmware)
  deriving DecidableEq, Repr

/-- The instructions. -/
inductive Instr where
  /-- A quad picks a warp and its bundle commits for its active lanes: sources are read, writes and landing writes are made, triggers start and lanes step, all in one clk or not at all (R89). -/
  | bundleIssue (b : Bundle)
  /-- A move to seq.flags writes the warp's sticky FP flags from the highest performing lane's value (R81). -/
  | seqFlagsWrite (t : Trig)
  /-- A lane's read of cp.sK returns its next stream element, waiting until that row has passed the arbiter, and advances the lane's read count (R247). -/
  | streamPortRead (k : Fin 8) (g : BitVec 4) (ng : Bool) (dst : BitVec 13)
  /-- 32-bit wrapping add (R166). -/
  | intAdd (u : Fin 2) (t : Trig)
  /-- 32-bit wrapping subtract (R166). -/
  | intSub (u : Fin 2) (t : Trig)
  /-- 64-bit wrapping add (R166). -/
  | intAdd64 (u : Fin 2) (t : Trig)
  /-- 64-bit wrapping subtract (R166). -/
  | intSub64 (u : Fin 2) (t : Trig)
  /-- 64-bit bitwise AND (R166). -/
  | intAnd (u : Fin 2) (t : Trig)
  /-- 64-bit bitwise OR (R166). -/
  | intOr (u : Fin 2) (t : Trig)
  /-- 64-bit bitwise XOR (R166). -/
  | intXor (u : Fin 2) (t : Trig)
  /-- 64-bit a AND NOT b (R166). -/
  | intAndn (u : Fin 2) (t : Trig)
  /-- 32-bit shift left by a 64-bit count (R166). -/
  | intShl (u : Fin 2) (t : Trig)
  /-- 32-bit logical shift right (R166). -/
  | intShr (u : Fin 2) (t : Trig)
  /-- 32-bit arithmetic shift right (R166). -/
  | intSar (u : Fin 2) (t : Trig)
  /-- 64-bit shift left (R166). -/
  | intShl64 (u : Fin 2) (t : Trig)
  /-- 64-bit logical shift right (R166). -/
  | intShr64 (u : Fin 2) (t : Trig)
  /-- 64-bit arithmetic shift right (R166). -/
  | intSar64 (u : Fin 2) (t : Trig)
  /-- Signed 32-bit minimum (R166). -/
  | intMinS32 (u : Fin 2) (t : Trig)
  /-- Signed 32-bit maximum (R166). -/
  | intMaxS32 (u : Fin 2) (t : Trig)
  /-- Unsigned 32-bit minimum (R166). -/
  | intMinU32 (u : Fin 2) (t : Trig)
  /-- Unsigned 32-bit maximum (R166). -/
  | intMaxU32 (u : Fin 2) (t : Trig)
  /-- Signed 64-bit minimum (R166). -/
  | intMinS64 (u : Fin 2) (t : Trig)
  /-- Signed 64-bit maximum (R166). -/
  | intMaxS64 (u : Fin 2) (t : Trig)
  /-- Selects a when c is nonzero, else b (R166). -/
  | intSel (u : Fin 2) (t : Trig)
  /-- 32-bit absolute value, flagging 0x8000_0000 in .y2 (R166). -/
  | intAbs (u : Fin 2) (t : Trig)
  /-- Counts leading zeros of a 32-bit value (R166). -/
  | intClz (u : Fin 2) (t : Trig)
  /-- Counts set bits of a 64-bit value (R166). -/
  | intPopc (u : Fin 2) (t : Trig)
  /-- Reverses the bits of a 32-bit value (R166). -/
  | intBrev (u : Fin 2) (t : Trig)
  /-- Extracts a bit field, optionally sign-extended (R167). -/
  | intBfx (u : Fin 2) (t : Trig)
  /-- Inserts a bit field of b into a (R167). -/
  | intBfi (u : Fin 2) (t : Trig)
  /-- Signed 32-bit saturating add (R166). -/
  | intAddsatS32 (u : Fin 2) (t : Trig)
  /-- Signed 32-bit saturating subtract (R166). -/
  | intSubsatS32 (u : Fin 2) (t : Trig)
  /-- Forms a + (sext(b) << c), trapping ILLEGAL-OP for c above 3 (R168). -/
  | intLea (u : Fin 2) (t : Trig)
  /-- Passes a 64-bit value unchanged into .y (R166). -/
  | intPass (u : Fin 2) (t : Trig)
  /-- Low 32 bits of a product (R169). -/
  | mulLo (t : Trig)
  /-- High 32 bits of a signed product (R169). -/
  | mulhiS32 (t : Trig)
  /-- High 32 bits of an unsigned product (R169). -/
  | mulhiU32 (t : Trig)
  /-- Low 32 bits of a × b + c (R169). -/
  | madLo (t : Trig)
  /-- Signed widening 32 × 32 to 64-bit multiply (R169). -/
  | mulwS32 (t : Trig)
  /-- Unsigned widening multiply (R169). -/
  | mulwU32 (t : Trig)
  /-- Low 64 bits of a 64-bit product (R169). -/
  | mul64Lo (t : Trig)
  /-- Four-way signed 8-bit dot product added to c (R169). -/
  | dot4S8 (t : Trig)
  /-- Two-way signed 16-bit dot product added to c (R169). -/
  | dot2S16 (t : Trig)
  /-- Unsigned 32-bit division on the quad's divider (R170). -/
  | divU32 (t : Trig)
  /-- Signed truncating 32-bit division (R170). -/
  | divS32 (t : Trig)
  /-- Unsigned 32-bit remainder (R170). -/
  | remU32 (t : Trig)
  /-- Signed 32-bit remainder (R170). -/
  | remS32 (t : Trig)
  /-- Fused f32 multiply-add with one rounding (R171). -/
  | fmaF32 (u : Fin 2) (t : Trig)
  /-- f32 add (R171). -/
  | addF32 (u : Fin 2) (t : Trig)
  /-- f32 multiply (R171). -/
  | mulF32 (u : Fin 2) (t : Trig)
  /-- f32 subtract (R171). -/
  | subF32 (u : Fin 2) (t : Trig)
  /-- f32 minimum ordering −0 below +0 (R172). -/
  | minF32 (u : Fin 2) (t : Trig)
  /-- f32 maximum (R172). -/
  | maxF32 (u : Fin 2) (t : Trig)
  /-- Packed f16 fused multiply-add (R171). -/
  | fmaF16x2 (u : Fin 2) (t : Trig)
  /-- Packed f16 add (R171). -/
  | addF16x2 (u : Fin 2) (t : Trig)
  /-- Packed f16 multiply (R171). -/
  | mulF16x2 (u : Fin 2) (t : Trig)
  /-- Packed bf16 fused multiply-add (R171). -/
  | fmaBf16x2 (u : Fin 2) (t : Trig)
  /-- Binary64 fused multiply-add (R171). -/
  | fmaF64 (u : Fin 2) (t : Trig)
  /-- Binary64 add (R171). -/
  | addF64 (u : Fin 2) (t : Trig)
  /-- Binary64 multiply (R171). -/
  | mulF64 (u : Fin 2) (t : Trig)
  /-- Two f16 products plus an f32 addend, rounded once to f32 (R171). -/
  | dot2F16F32 (u : Fin 2) (t : Trig)
  /-- f32 fused multiply-add clamped to [0, 1] (R173). -/
  | fmaSatF32 (u : Fin 2) (t : Trig)
  /-- Binary64 minimum (R172). -/
  | minF64 (u : Fin 2) (t : Trig)
  /-- Binary64 maximum (R172). -/
  | maxF64 (u : Fin 2) (t : Trig)
  /-- 32-bit equality (R174). -/
  | cmpEq (t : Trig)
  /-- 32-bit inequality (R174). -/
  | cmpNe (t : Trig)
  /-- Signed 32-bit less-than (R174). -/
  | cmpLtS32 (t : Trig)
  /-- Signed 32-bit less-or-equal (R174). -/
  | cmpLeS32 (t : Trig)
  /-- Unsigned 32-bit less-than (R174). -/
  | cmpLtU32 (t : Trig)
  /-- Unsigned 32-bit less-or-equal (R174). -/
  | cmpLeU32 (t : Trig)
  /-- 64-bit equality (R174). -/
  | cmpEq64 (t : Trig)
  /-- Signed 64-bit less-than (R174). -/
  | cmpLtS64 (t : Trig)
  /-- Unsigned 64-bit less-than (R174). -/
  | cmpLtU64 (t : Trig)
  /-- f32 equality (R174). -/
  | cmpFeqF32 (t : Trig)
  /-- f32 less-than (R174). -/
  | cmpFltF32 (t : Trig)
  /-- f32 less-or-equal (R174). -/
  | cmpFleF32 (t : Trig)
  /-- f32 unordered test (R174). -/
  | cmpFunF32 (t : Trig)
  /-- f64 less-than (R174). -/
  | cmpFltF64 (t : Trig)
  /-- f64 equality (R174). -/
  | cmpFeqF64 (t : Trig)
  /-- Tests the class of an f32 value against a class mask (R175). -/
  | cmpClassF32 (t : Trig)
  /-- Tests a AND b for zero (R174). -/
  | cmpTstz (t : Trig)
  /-- Warp-wide any over the performing lanes (R176). -/
  | cmpAny (t : Trig)
  /-- Warp-wide all over the performing lanes (R176). -/
  | cmpAll (t : Trig)
  /-- Warp-wide ballot mask (R176). -/
  | cmpBallot (t : Trig)
  /-- Approximate f32 reciprocal (R177). -/
  | sfnRcp (t : Trig)
  /-- Approximate f32 reciprocal square root (R177). -/
  | sfnRsqrt (t : Trig)
  /-- Correctly rounded f32 square root (R177). -/
  | sfnSqrt (t : Trig)
  /-- Approximate f32 base-2 exponential (R177). -/
  | sfnExp2 (t : Trig)
  /-- Approximate f32 base-2 logarithm (R177). -/
  | sfnLog2 (t : Trig)
  /-- Approximate f32 sine (R177). -/
  | sfnSin (t : Trig)
  /-- Approximate f32 cosine (R177). -/
  | sfnCos (t : Trig)
  /-- Approximate f32 hyperbolic tangent (R177). -/
  | sfnTanh (t : Trig)
  /-- Correctly rounded f32 division (R177). -/
  | sfnDivF32 (t : Trig)
  /-- Correctly rounded f64 reciprocal (R177). -/
  | sfnRcpF64 (t : Trig)
  /-- Correctly rounded f64 square root (R177). -/
  | sfnSqrtF64 (t : Trig)
  /-- Converts s32 to f32 (R180). -/
  | cvtF32S32 (t : Trig)
  /-- Converts u32 to f32 (R180). -/
  | cvtF32U32 (t : Trig)
  /-- Truncates f32 to s32 with saturation (R181). -/
  | cvtS32F32 (t : Trig)
  /-- Truncates f32 to u32 with saturation (R181). -/
  | cvtU32F32 (t : Trig)
  /-- Rounds f32 to f16 (R180). -/
  | cvtF16F32 (t : Trig)
  /-- Widens f16 to f32 exactly (R180). -/
  | cvtF32F16 (t : Trig)
  /-- Rounds f32 to bf16 (R180). -/
  | cvtBf16F32 (t : Trig)
  /-- Widens bf16 to f32 exactly (R180). -/
  | cvtF32Bf16 (t : Trig)
  /-- Widens f32 to f64 exactly (R180). -/
  | cvtF64F32 (t : Trig)
  /-- Rounds f64 to f32 (R180). -/
  | cvtF32F64 (t : Trig)
  /-- Converts s64 to f64 (R180). -/
  | cvtF64S64 (t : Trig)
  /-- Truncates f64 to s64 with saturation (R181). -/
  | cvtS64F64 (t : Trig)
  /-- Packs each 32-lane group into ZB8 elements with a shared header (R188). -/
  | cvtZbpack8 (t : Trig)
  /-- Decodes a ZB8 element with its header to f32 (R190). -/
  | cvtZbunpack8 (t : Trig)
  /-- Packs each 32-lane group into ZB4 elements (R188). -/
  | cvtZbpack4 (t : Trig)
  /-- Decodes a ZB4 element to f32 (R190). -/
  | cvtZbunpack4 (t : Trig)
  /-- Rounds f32 to an integral value in RM (R182). -/
  | cvtRoundF32 (t : Trig)
  /-- Reads .a of an indexed lane (R183). -/
  | cvtXlaneIdx (t : Trig)
  /-- Reads .a of the lane at l XOR b (R183). -/
  | cvtXlaneXor (t : Trig)
  /-- Broadcasts .a of the lane that the lowest performing lane names (R183). -/
  | cvtBcast (t : Trig)
  /-- Inclusive 32-bit prefix sum over the performing lanes (R184). -/
  | cvtScanAdd (t : Trig)
  /-- f32 sum over the performing lanes in a fixed pairwise tree (R185). -/
  | cvtRedAddF32 (t : Trig)
  /-- Loads one byte, zero-extended (R205). -/
  | memLdU8 (u : Fin 2) (t : Trig)
  /-- Loads one byte, sign-extended (R205). -/
  | memLdS8 (u : Fin 2) (t : Trig)
  /-- Loads two bytes, zero-extended (R205). -/
  | memLdU16 (u : Fin 2) (t : Trig)
  /-- Loads two bytes, sign-extended (R205). -/
  | memLdS16 (u : Fin 2) (t : Trig)
  /-- Loads four bytes (R205). -/
  | memLd32 (u : Fin 2) (t : Trig)
  /-- Loads eight bytes (R205). -/
  | memLd64 (u : Fin 2) (t : Trig)
  /-- Queues a one-byte store (R205). -/
  | memSt8 (u : Fin 2) (t : Trig)
  /-- Queues a two-byte store (R205). -/
  | memSt16 (u : Fin 2) (t : Trig)
  /-- Queues a four-byte store (R205). -/
  | memSt32 (u : Fin 2) (t : Trig)
  /-- Queues an eight-byte store (R205). -/
  | memSt64 (u : Fin 2) (t : Trig)
  /-- Reads four bytes of team store (R198). -/
  | memLdTs (u : Fin 2) (t : Trig)
  /-- Writes four bytes of team store through the arbiter (R198). -/
  | memStTs (u : Fin 2) (t : Trig)
  /-- Atomic 32-bit add (R207). -/
  | memAtomAdd (u : Fin 2) (t : Trig)
  /-- Atomic 64-bit add (R207). -/
  | memAtomAdd64 (u : Fin 2) (t : Trig)
  /-- Atomic signed 32-bit minimum (R207). -/
  | memAtomMinS32 (u : Fin 2) (t : Trig)
  /-- Atomic signed 32-bit maximum (R207). -/
  | memAtomMaxS32 (u : Fin 2) (t : Trig)
  /-- Atomic unsigned 64-bit minimum (R207). -/
  | memAtomMinU64 (u : Fin 2) (t : Trig)
  /-- Atomic 32-bit AND (R207). -/
  | memAtomAnd (u : Fin 2) (t : Trig)
  /-- Atomic 32-bit OR (R207). -/
  | memAtomOr (u : Fin 2) (t : Trig)
  /-- Atomic 32-bit XOR (R207). -/
  | memAtomXor (u : Fin 2) (t : Trig)
  /-- Atomic 32-bit exchange (R207). -/
  | memAtomExch (u : Fin 2) (t : Trig)
  /-- Atomic 64-bit exchange (R207). -/
  | memAtomExch64 (u : Fin 2) (t : Trig)
  /-- Atomic 32-bit compare-and-swap (R207). -/
  | memAtomCas (u : Fin 2) (t : Trig)
  /-- Atomic 64-bit compare-and-swap (R207). -/
  | memAtomCas64 (u : Fin 2) (t : Trig)
  /-- Atomic f32 add rounded RNE, ignoring the NFR (R207). -/
  | memAtomAddF32 (u : Fin 2) (t : Trig)
  /-- Warp-wide fence at SCOPE (R210). -/
  | memFence (u : Fin 2) (t : Trig)
  /-- Arms a condition monitor and parks the lane (R212). -/
  | memWaitcmp (u : Fin 2) (t : Trig)
  /-- Starts a fill of the grain holding an address, never faulting (R217). -/
  | memPrefetch (u : Fin 2) (t : Trig)
  /-- Pins an L2 line in its home slice (R216). -/
  | memPin (u : Fin 2) (t : Trig)
  /-- Removes one pin of the team from a line (R216). -/
  | memUnpin (u : Fin 2) (t : Trig)
  /-- Four-byte acquire load (R210). -/
  | memLdAcq (u : Fin 2) (t : Trig)
  /-- Four-byte release store (R210). -/
  | memStRel (u : Fin 2) (t : Trig)
  /-- Eight-byte acquire load (R210). -/
  | memLdAcq64 (u : Fin 2) (t : Trig)
  /-- Eight-byte release store (R210). -/
  | memStRel64 (u : Fin 2) (t : Trig)
  /-- Writes back a dirty local line and discards remote or host copies (R217). -/
  | memFlush (u : Fin 2) (t : Trig)
  /-- Non-coherent four-byte load (R215). -/
  | memLdNc (u : Fin 2) (t : Trig)
  /-- Submits a bulk byte copy (R242). -/
  | cpCopy (t : Trig)
  /-- Submits a strided two-dimensional copy (R242). -/
  | cpCopy2d (t : Trig)
  /-- Submits an indexed gather (R243). -/
  | cpGather (t : Trig)
  /-- Submits an indexed scatter (R243). -/
  | cpScatter (t : Trig)
  /-- Submits a pattern fill (R242). -/
  | cpFill (t : Trig)
  /-- Submits a quantisation of f32 values to ZB8 blocks (R244). -/
  | cpQuantZb8 (t : Trig)
  /-- Submits a zero-run encoding job (R245). -/
  | cpZrlPack (t : Trig)
  /-- Submits a zero-run decoding job (R245). -/
  | cpZrlUnpack (t : Trig)
  /-- Binds a stream port to a team-store ring and starts its feed job (R246). -/
  | cpStreamOpen (t : Trig)
  /-- Unbinds a stream and cancels its job (R249). -/
  | cpStreamClose (t : Trig)
  /-- Initialises a barrier object (R250). -/
  | cpBarInit (t : Trig)
  /-- Adds expected bytes to a barrier object's PEND (R250). -/
  | cpBarExpect (t : Trig)
  /-- Parks the lane until the object's PHASE differs from a value (R250). -/
  | cpBarWait (t : Trig)
  /-- Submits a channel send taking the next HEAD position (R251). -/
  | cpChanSend (t : Trig)
  /-- Submits a channel receive taking the next TAIL position (R251). -/
  | cpChanRecv (t : Trig)
  /-- Cancels the team's earlier jobs of a tag (R252). -/
  | cpCancel (t : Trig)
  /-- Counts the team's outstanding jobs of a tag (R252). -/
  | cpPoll (t : Trig)
  /-- Loads a weight tile into the shadow plane (R268). -/
  | mxLdw (t : Trig)
  /-- Exchanges the active and shadow planes (R268). -/
  | mxSwap (t : Trig)
  /-- Multiplies activation rows by the active plane into a tile (R270). -/
  | mxMma (t : Trig)
  /-- Multiplies, then swaps the planes (R270). -/
  | mxMmaSwap (t : Trig)
  /-- Zeroes the named tiles (R272). -/
  | mxZero (t : Trig)
  /-- Writes tile rows to memory in FP32, BF16 or ZB8 (R275). -/
  | mxDrain (t : Trig)
  /-- Adds a tile into memory as one indivisible update (R276). -/
  | mxDrainAdd (t : Trig)
  /-- Takes the maximum of a tile and memory as one indivisible update (R276). -/
  | mxDrainMax (t : Trig)
  /-- Loads tile rows from memory (R277). -/
  | mxLdacc (t : Trig)
  /-- Writes one scale set of the team's scale table (R278). -/
  | mxScaleSet (t : Trig)
  /-- Waits for earlier matrix jobs and reports their status (R281). -/
  | mxWait (t : Trig)
  /-- Reads two tile elements per lane (R277). -/
  | mxRdacc (t : Trig)
  /-- Writes two tile elements per lane (R277). -/
  | mxWracc (t : Trig)
  /-- Multiplies by the transposed active plane (R270). -/
  | mxMmaT (t : Trig)
  /-- Opens a read-write transaction at a snapshot time (R300). -/
  | snapBegin (t : Trig)
  /-- Opens a read-only transaction (R300). -/
  | snapBeginRo (t : Trig)
  /-- Ends the warp's transaction, committing its write set or reporting a cause (R304). -/
  | snapCommit (t : Trig)
  /-- Discards the warp's transaction (R305). -/
  | snapAbort (t : Trig)
  /-- Reads the published commit clock (R295). -/
  | snapNow (t : Trig)
  /-- Registers a held snapshot (R309). -/
  | snapHold (t : Trig)
  /-- Frees a held snapshot (R309). -/
  | snapRelease (t : Trig)
  /-- Reports the warp's transaction state (R310). -/
  | snapStatus (t : Trig)
  /-- Reads a versioned location as of a given time (R311). -/
  | snapLdAt (t : Trig)
  /-- Commits a final token to a slot and resolves its watches (R341). -/
  | tellCommit (t : Trig)
  /-- Appends a draft token resolved provisionally (R343). -/
  | tellCommitDraft (t : Trig)
  /-- Merges drafts in window order (R344). -/
  | tellConfirm (t : Trig)
  /-- Reports the forced-token queue head (R342). -/
  | tellNext (t : Trig)
  /-- Arms a watch entry or the counter block from a descriptor (R336). -/
  | tellArm (t : Trig)
  /-- Disarms watch entries (R337). -/
  | tellDisarm (t : Trig)
  /-- Forks a slot into a FREE child (R345). -/
  | tellFork (t : Trig)
  /-- Frees, clears or resumes a slot (R350). -/
  | tellReset (t : Trig)
  /-- Writes a notification record for a slot (R349). -/
  | tellNotify (t : Trig)
  /-- Reads a selected item of a slot (R351). -/
  | tellCount (t : Trig)
  /-- Pushes an item at a deque's bottom as a release (R387). -/
  | tqPush (t : Trig)
  /-- Pops a deque's bottom item (R382). -/
  | tqPop (t : Trig)
  /-- Steals a deque's top item (R382). -/
  | tqSteal (t : Trig)
  /-- Probes a range of deques and steals the first item found (R384). -/
  | tqStealAny (t : Trig)
  /-- Reads a deque's length (R382). -/
  | tqSize (t : Trig)
  /-- Initialises or frees a deque with its overflow segment (R383). -/
  | tqInit (t : Trig)
  /-- Lowers a descending bound register (R391). -/
  | aceMin (t : Trig)
  /-- Raises an ascending bound register (R391). -/
  | aceMax (t : Trig)
  /-- Reads the local copy of a bound register (R391). -/
  | aceRd (t : Trig)
  /-- Sets a bound register's value and direction (R391). -/
  | aceSet (t : Trig)
  /-- Parks the lane until the bound lies beyond a value (R394). -/
  | aceWaitlt (t : Trig)
  /-- Branches to an absolute address within the slot (R121). -/
  | seqBr (t : Trig)
  /-- Branches by a relative offset (R121). -/
  | seqBrr (t : Trig)
  /-- Calls an absolute address, pushing the return address (R121). -/
  | seqCall (t : Trig)
  /-- Calls a relative address (R121). -/
  | seqCallr (t : Trig)
  /-- Returns to the popped return-stack address (R125). -/
  | seqRet (t : Trig)
  /-- Opens a hardware loop level (R130). -/
  | seqLoop (t : Trig)
  /-- Leaves a loop level to its exit (R133). -/
  | seqBrk (t : Trig)
  /-- Completes the current iteration of a loop level (R133). -/
  | seqCont (t : Trig)
  /-- Retires the performing lanes (R142). -/
  | seqEnd (t : Trig)
  /-- Holds the warp back from issue for h clk (R143). -/
  | seqYield (t : Trig)
  /-- Arrives at a named barrier and parks (R138). -/
  | seqBar (t : Trig)
  /-- Arrives at a named barrier without waiting (R138). -/
  | seqBarArrive (t : Trig)
  /-- Writes the lane's NFR (R144). -/
  | seqSetfmt (t : Trig)
  /-- Raises USER after its bundle commits (R145). -/
  | seqTrap (t : Trig)
  /-- Pushes a return-stack entry (R126). -/
  | seqRspush (t : Trig)
  /-- Pops a return-stack entry into seq.y (R127). -/
  | seqRspop (t : Trig)
  /-- Reads a CSR (R443). -/
  | supCsrRd (t : Trig)
  /-- Writes WCTL.SCHK (R443). -/
  | supCsrWr (t : Trig)
  /-- Ends a warp- or team-rung handler with RETRY, SKIP or REPLACE (R445). -/
  | supTret (t : Trig)
  /-- Writes a mark record to the trace ring (R453). -/
  | supMark (t : Trig)
  /-- Reads a selected counter (R446). -/
  | supCntRd (t : Trig)
  /-- Halts the warp or team for the debugger (R464). -/
  | supHalt (t : Trig)
  /-- Reads an item of the trap record (R444). -/
  | supFaultRd (t : Trig)
  /-- Invalidates the core's bundle-buffer entries of a code line (R449). -/
  | supIcinval (t : Trig)
  /-- Waits for the warp's jobs and store queue, then fences at device scope (R450). -/
  | supSync (t : Trig)
  /-- Every warp of the barrier's roles has arrived and their counted st.ts have passed the arbiter, so parked lanes are released and the phase count advances (R139). -/
  | barrierPhaseComplete
  /-- In scheduled mode the warp's delay count runs out and the warp may issue again (R96). -/
  | delayExpiry
  /-- The hold of a seq.yield runs out and the warp may issue again (R143). -/
  | yieldExpiry
  /-- After 4,096 clk without issue, the lowest unfinished team's warps take WCTL.BOOST issue priority (R150). -/
  | progressBoost
  /-- A fixed-latency lane-unit result fills .y and .y2 L clk after its trigger commits, applying its exceptions to the sticky flags (R95). -/
  | laneResultFill
  /-- A mul0 division fills .y and .y2 after its data-dependent latency and frees the quad's divider (R170). -/
  | divisionComplete
  /-- An sfn0 operation fills .y and .y2 after its latency, in trigger order for the warp (R177). -/
  | sfnComplete
  /-- Once every warp of a retired team has retired and no engine queue holds its jobs, the core returns its resources; the last team also completes its launch (R22). -/
  | teamRetire
  /-- The head store-queue entry leaves: its writes go to their home slices, update the issuing core's L1 and enter the outstanding-write table (R206). -/
  | storeQueueLeave
  /-- A home slice acknowledges a write once every sharer has applied it, which frees its outstanding-write table entries (R221). -/
  | writeAcknowledge
  /-- A sharer applies a forwarded write update in per-line sequence-number order, holding back updates that arrive early (R221). -/
  | updateApply
  /-- A load's read performs and its data reaches the result port, which fills (R201). -/
  | loadFill
  /-- An atomic performs as one indivisible read-modify-write at its home slice or the team-store arbiter and returns the old value (R207). -/
  | atomicPerform
  /-- A fence's conditions of R55 hold at its scope, so it fills and the warp's later memory triggers may proceed (R210). -/
  | fenceComplete
  /-- A write to a monitored location at the home slice re-tests the armed condition and releases the lane when it holds (R212). -/
  | monitorRetest
  /-- A monitor with no room at its slice, or on host memory, re-reads its location every 1,024 clk (R213). -/
  | monitorPoll
  /-- A team parked in monitor waits for MWL clk is saved when the walker has a team that fits no core, its monitors staying armed (R459). -/
  | monitorSwapOut
  /-- A team-store write passes the core's team-store arbiter and fills the st.ts result (R61). -/
  | tstoreArbiterPass
  /-- An L1 evicts a line silently; later updates for it are discarded (R218). -/
  | l1Eviction
  /-- L2 evicts a line after first removing every sharer's copy (R221). -/
  | l2Eviction
  /-- A translation walks the five-level tables through L2, caching the result unless V = 0 (R224). -/
  | tableWalk
  /-- A translation fails; a fault-queue entry is written, a page request may be queued, and the faulting elements stay unfilled or are tagged (R229). -/
  | translationFault
  /-- While the fault ring is full, faulting elements retry their translation every 1,024 clk and each retry is counted (R229). -/
  | faultQueueRetry
  /-- A page request unanswered beyond the service timeout becomes TRANSLATION for every waiting element (R233). -/
  | pageRequestTimeout
  /-- When the quiescence count reaches a freed page's stamp, the page leaves quarantine for reuse (R235). -/
  | quarantineRelease
  /-- An error in stored data is found: a correctable one is corrected and counted, an uncorrectable one poisons the sector, word or element (R222). -/
  | eccError
  /-- An engine job whose footprint edges to earlier jobs are all cleared begins its covered accesses (R58). -/
  | jobBegin
  /-- A copy job's output unit has all its writes performed and its cursor advances (R254). -/
  | copyCursorAdvance
  /-- A copy job finishes its writes at device scope and fills its result port with bytes written and status (R60). -/
  | copyJobComplete
  /-- A counted job's write performs and its bytes are subtracted from the barrier object's PEND, flagging underflow if needed (R250). -/
  | barDecrement
  /-- A stream job writes its next row into the ring once the row it replaces is free (R248). -/
  | streamRowWrite
  /-- A channel message is written to its ring slot or the overflow pool, and the receive waiting on that position copies it out (R251). -/
  | chanMessageDelivery
  /-- A send that needs the empty channel pool retries every 1,024 clk, and each exhaustion is counted (R251). -/
  | chanPoolRetry
  /-- An activation row's 128 sums leave the array and are applied whole to a tile row (R270). -/
  | mxRowApply
  /-- A matrix job completes and fills .y and .y2, updating its tile status word (R284). -/
  | mxJobComplete
  /-- Phase 3 of a drain.add or drain.max performs its tile updates indivisibly at the home slices or the arbiter (R276). -/
  | drainUpdatePerform
  /-- After the array has waited 64 clk for a heavy unit, no inactive FMA pair is activated until the array gets one (R378). -/
  | arrayWaitExpiry
  /-- An FMA pair becomes inactive 16 clk after its last fill with no trigger between (R377). -/
  | fmaPairIdle
  /-- A commit reaches its turn in the commit order, validates, and takes the next commit time or fails (R294). -/
  | commitTurn
  /-- Every version stamped with a commit time is installed at its home slice and the time is published (R295). -/
  | commitPublish
  /-- A write to a versioned line outside a transaction commits by itself as a one-line commit (R312). -/
  | autoCommit
  /-- A commit or write-set line waiting for version room reaches the heap wait limit and fails with HEAP-FULL (R319). -/
  | heapWaitExpiry
  /-- The collector reclaims a version superseded at or below the low-water mark (R316). -/
  | lichenReclaim
  /-- A tell, tq or ace operation is performed at its home, one at a time, and its result returns to fill the lane (R354). -/
  | homeOperationPerform
  /-- The walker places a launch's next team, or a saved team, on a core that fits it (R369). -/
  | teamPlacement
  /-- A change at an Ace home reaches a core's local copy and is applied in sequence order (R392). -/
  | aceBroadcastApply
  /-- A router ranks the flits arriving in a clk and ejects, routes or deflects each (R408). -/
  | flitArrival
  /-- A router injects an endpoint's candidate flit into a free productive output when throttle, golden rule and count allow (R409). -/
  | flitInjection
  /-- A core moves flits of a context's overflow list into its reassembly slots (R415). -/
  | overflowMove
  /-- An ejecting endpoint returns a one-flit credit to the source router on the side-band network (R409). -/
  | creditReturn
  /-- Every 64 clk, every flit in the network has its AGE incremented up to 4,095 (R406). -/
  | ageTick
  /-- Every 256 clk, a router sets its injection-throttle level from its recent deflections (R411). -/
  | throttleUpdate
  /-- A new 4,096-clk epoch names the next golden router, or golden device on the torus (R407). -/
  | goldenEpoch
  /-- A reassembly slot incomplete beyond the delivery bound plus 65,536 clk is discarded, the message is lost and counted (R417). -/
  | reassemblyTimeout
  /-- A link frame arrives; a CRC error makes the sender replay it (R422). -/
  | linkFrameReceive
  /-- At STEPCLK the device loads STBASE into its system time (R473). -/
  | systemTimeStep
  /-- Every 4,096 clk, the device slews its system time by at most 1 clk toward its neighbours' (R473). -/
  | systemTimeSlew
  /-- A peer device's access arrives and is performed if it lies in an open peer window, or answered with PROTECTION (R423). -/
  | peerAccess
  /-- A host posted write through a window is performed at its home slice in Requester-ID order, or discarded and counted (R427). -/
  | hostWrite
  /-- A host read through a window performs at its home slice after the Requester ID's earlier writes and reads (R428). -/
  | hostRead
  /-- A PCI Express AtomicOp from the host is performed at the home slice, or answered Unsupported Request for 128-bit CAS (R426). -/
  | hostAtomic
  /-- The host driver writes a queue's producer index to its doorbell (R469). -/
  | doorbellWrite
  /-- A command's effects are performed, its journal entry is written COMPLETE, its record written, and its interrupt raised (R484). -/
  | commandComplete
  /-- A running launch rewrites CUR0 and CUR1 in its journal entry at least once every 2^20 clk (R484). -/
  | launchProgressUpdate
  /-- A CTX-EXPORT not reaching its safe points within STO2 writes 0 to the export word and ends TIMED-OUT (R500). -/
  | exportTimeout
  /-- The backoff of a warp that found no free trap permit runs out and the bundle issues again (R438). -/
  | permitBackoffExpiry
  /-- A rung's service timeout passes and TIMEOUT enters the next rung up (R437). -/
  | serviceTimeout
  /-- A team whose live lanes are all parked in barrier or loop waits for STO1 clk raises TIMEOUT at the context rung (R460). -/
  | teamWatchdog
  /-- Every 2^20 clk the supervisor scans each context and reports LONG-WAIT when nothing inside can release its waits (R461). -/
  | waitGraphScan
  /-- A pre-emption request reaches a core; the named teams freeze at a bundle boundary and are saved in seven steps (R455). -/
  | preemptionRequest
  /-- At the common edge E, no warp of the halted group commits, and DEBUG-HALT is reported to the debugger (R463). -/
  | haltEdge
  /-- Device reset sets the commit clock to 0, every Tell slot FREE, deques uninitialised, device Ace registers to their maximum, and clears the journal (R29). -/
  | deviceReset
  /-- Firmware is verified against the root key and fills the image key slots and slot-to-engine maps at boot (R487). -/
  | firmwareBoot
  /-- Verifies an image, translates it if needed, and places it in a slot (R488). -/
  | loadImage
  /-- Releases an image slot once R115 allows (R471). -/
  | unloadImage
  /-- Checks a launch record and runs the launch until it ends (R360). -/
  | launch
  /-- Ends a launch with KILLED (R471). -/
  | kill
  /-- Creates a context from a configuration block (R471). -/
  | ctxCreate
  /-- Kills a context's launches and frees its slots, grants, snapshots and areas (R471). -/
  | ctxDestroy
  /-- Replaces a context's configuration block at one clk boundary (R480). -/
  | ctxConfig
  /-- Invalidates translations of a range, optionally quarantining the frames (R235). -/
  | inval
  /-- Answers a page request, retrying or tagging its waiting elements (R231). -/
  | pageReply
  /-- Moves one page with its version chains to a new frame (R321). -/
  | pageMove
  /-- Grants Tell slots, deques or device Ace registers to a context (R471). -/
  | grant
  /-- Revokes granted objects once no operation of the context is in progress (R471). -/
  | grantRevoke
  /-- Saves a context by pre-emption (R455). -/
  | switchPreempt
  /-- Makes a context placeable again, answering a waiting context-rung trap (R439). -/
  | switchResume
  /-- Takes a context's debug right (R476). -/
  | debugTake
  /-- Gives up the debug right, resuming halted groups (R476). -/
  | debugGive
  /-- Removes the debug right, resuming or killing per KILLREV (R466). -/
  | debugRevoke
  /-- Halts a group at a common edge (R463). -/
  | debugHalt
  /-- Resumes a halted group (R465). -/
  | debugResume
  /-- Copies an item of a halted group into a buffer (R476). -/
  | debugRead
  /-- Writes an item of a halted group from a buffer (R465). -/
  | debugWrite
  /-- Sets a quad's issue log off, record or replay (R467). -/
  | debugLog
  /-- Writes a signed attestation report (R490). -/
  | attest
  /-- With w1 = 0, writes the identity key's certificate (R490). -/
  | attestCertificate
  /-- Gives an old handle's later launches a new image (R501). -/
  | reinstall
  /-- Parks a portable context at safe points and writes its state to a buffer (R500). -/
  | ctxExport
  /-- Retranslates an exported context and places its lanes at their safe points (R500). -/
  | ctxImport
  /-- Sets device id, torus extents, version heap, spare ports and system-time step (R473). -/
  | devConfigDevice
  /-- Sets a function's partition, default grant, stage-2 root and identifiers (R474). -/
  | devConfigPartition
  /-- Opens, changes or closes a host window (R475). -/
  | devConfigHostWindow
  /-- Opens, changes or closes a peer window (R503). -/
  | devConfigPeerWindow
  /-- Opens versioned pages with initial versions at time 0 (R472). -/
  | verOpen
  /-- Writes the device and unit map (R477). -/
  | queryDeviceMap
  /-- Writes a context's configuration block in force (R477). -/
  | queryConfig
  /-- Writes a function's partition block (R477). -/
  | queryPartition
  /-- Writes the function's event selectors (R477). -/
  | queryEvsel
  /-- Writes the function's event selectors, optionally clearing its counters (R478). -/
  | pmcSet
  /-- The 8-clk hold after a warp- or team-rung trap delivery runs out, and the handler's first bundle may issue (R435). -/
  | handlerEntryDelayExpiry
  /-- A pre-emption save that began on a core ends: the team's slots, budgets, team-store range and permits are freed, and requests queued behind the save begin (R457). -/
  | saveEnd
  /-- The module loses power, which stops the device and clears the journal (R481). -/
  | lossOfPower
  deriving DecidableEq, Repr

end Sys2Proof
end

