-- ==== Sys2Proof/Machine/Ports.lean ====
section
/-! DEFINITION. The port codes and the opcode map (spec/02_bundles_and_ports.md R79 to R86), and the collisions
that decode decides (R91). -/

namespace Sys2Proof.Machine

/-- Units by number, in the order of spec/03_warp_sequencer.md R135: int0, int1, mul0, fma0, fma1, cmp0,
sfn0, cvt0, mem0, mem1, mx, cp, snap, tell, tq, ace, seq, sup. -/
def unitInt (u : Nat) : Nat := u
def unitMul : Nat := 2
def unitFma (u : Nat) : Nat := 3 + u
def unitCmp : Nat := 5
def unitSfn : Nat := 6
def unitCvt : Nat := 7
def unitMem (u : Nat) : Nat := 8 + u
def unitMx : Nat := 10
def unitCp : Nat := 11
def unitSnap : Nat := 12
def unitTell : Nat := 13
def unitTq : Nat := 14
def unitAce : Nat := 15
def unitSeq : Nat := 16
def unitSup : Nat := 17

/-- Offsets within a block (R82). -/
def offA : Nat := 0
def offB : Nat := 1
def offC : Nat := 2
def offM : Nat := 3
def offY : Nat := 4
def offY2 : Nat := 5

/-- Code of offset `off` in the block of unit `u` (R79, R82). -/
def portCode (u off : Nat) : Nat := (u + 4) * 128 + off

/-- The unit whose block holds a code (R79). -/
def unitOf (code : Nat) : Option Nat :=
  if 0x200 ≤ code ∧ code < 0xB00 then some (code / 128 - 4) else none

/-- The number of opcodes of each unit (R86). -/
def opCounts : List Nat := [31, 31, 13, 17, 17, 20, 11, 22, 36, 36, 14, 17, 9, 9, 6, 5, 16, 9]

/-- The opcodes of each unit whose trigger value lands in .a (R86). -/
def landsInA : List (List Nat) :=
  [[21, 22, 23, 24, 30], [21, 22, 23, 24, 30], [], [], [], [17, 18, 19],
   [0, 1, 2, 3, 4, 5, 6, 7, 8, 9, 10],
   [0, 1, 2, 3, 4, 5, 6, 7, 8, 9, 10, 11, 12, 13, 14, 15, 16, 20, 21],
   [0, 1, 2, 3, 4, 5, 10, 25, 27, 28, 29, 30, 32, 34, 35],
   [0, 1, 2, 3, 4, 5, 10, 25, 27, 28, 29, 30, 32, 34, 35],
   [1, 4, 10], [9, 12, 14, 15, 16], [0, 1, 2, 3, 4, 5, 6, 7], [2, 6, 7], [1, 2, 3, 4], [2],
   [0, 1, 2, 3, 4, 6, 7, 8, 9, 10, 11, 12, 13, 14, 15], [0, 2, 3, 4, 5, 6, 7, 8]]

/-- The opcodes of each unit whose trigger value lands in .c (R86). -/
def landsInC : List (List Nat) :=
  [[20, 26, 29], [20, 26, 29], [3, 7, 8], [0, 6, 9, 10, 13, 14], [0, 6, 9, 10, 13, 14], [], [], [],
   [22, 23], [22, 23], [2, 3, 5, 6, 7, 8, 12, 13], [0, 1, 2, 3, 4, 5, 6, 7, 8], [], [3], [5], [], [5], []]

/-- Does unit `u` define opcode `n` (R86)? -/
def definesOp (u n : Nat) : Bool := decide (n < opCounts.getD u 0)

/-- The offset of the operand port in which opcode `n` of unit `u` lands (R86). -/
def landing (u n : Nat) : Nat :=
  if (landsInA.getD u []).contains n then offA else if (landsInC.getD u []).contains n then offC else offB

/-- The unit and opcode of a trigger code, defined or not (R82). -/
def trigOf (code : Nat) : Option (Nat × Nat) :=
  match unitOf code with
  | some u => if 64 ≤ code % 128 then some (u, code % 128 - 64) else none
  | none => none

/-- The port that a move to `code` writes: for a trigger of a defined opcode its landing port (R87). -/
def writtenPort (code : Nat) : Nat :=
  match trigOf code with
  | some (u, n) => if definesOp u n then portCode u (landing u n) else code
  | none => code

/-- Is the code a register pair (R79)? -/
def isPairCode (code : Nat) : Bool := decide (0x1000 ≤ code) && decide (code ≤ 0x10FE) && code % 2 == 0

/-- Do two destination codes name the same port, in the sense of R91? -/
def samePort (a b : Nat) : Bool :=
  if a = 0x10F ∨ b = 0x10F then false
  else
    let regs := fun c => if c < 0x100 then [c] else if isPairCode c then [c - 0x1000, c - 0x1000 + 1] else []
    a == b || (regs a).any fun r => (regs b).contains r

/-- Is the move unguarded: G = 15 and NG = 0 (R90)? -/
def Move.unguarded (m : Move) : Bool := m.g == 15 && !m.ng

/-- Is the move performed by no lane: G = 15 and NG = 1 (R90)? -/
def Move.never (m : Move) : Bool := m.g == 15 && m.ng

/-- The collisions of R91 between two moves. -/
def collide (a b : Move) : Bool :=
  if Move.never a || Move.never b then false
  else
    (Move.unguarded a && Move.unguarded b && samePort (writtenPort a.dst.toNat) (writtenPort b.dst.toNat)) ||
    (match trigOf a.dst.toNat, trigOf b.dst.toNat with
     | some x, some y => x.1 == y.1
     | _, _ => false)

/-- The slots among `ms`, numbered from `k`, that collide with `m`. -/
def collidersOf (m : Move) (k : Nat) : List Move → List Nat
  | [] => []
  | x :: r => if collide m x then k :: collidersOf m (k + 1) r else collidersOf m (k + 1) r

/-- The slots, numbered from `k`, that take part in a collision (both slots of it are marked, R92). -/
def collisionsFrom (k : Nat) : List Move → List Nat
  | [] => []
  | m :: r =>
    let c := collidersOf m (k + 1) r
    (if c.isEmpty then [] else k :: c) ++ collisionsFrom (k + 1) r

/-- The slots that take part in a collision (DEDUCED, notes/assumptions/38.md). -/
def collisions (ms : List Move) : List Nat := collisionsFrom 0 ms

end Sys2Proof.Machine
end

