-- ==== Sys2Proof/WellFormed.lean ====
section
/-! DEFINITION. When an instruction is well formed: what its encoding can say (spec/02_bundles_and_ports.md R73 to
R77, R91; spec/13_loader.md R470). -/

namespace Sys2Proof
open Sys2Proof.Machine

/-- The source of every move agrees with slot 5: the constant may be named only where slot 5 holds one (R92). -/
def Move.srcOk (s5 : Slot5) (m : Move) : Bool :=
  match m.src, s5 with
  | .const, .const _ => true
  | .const, _ => false
  | _, _ => true

/-- A bundle that decode accepts (R74 to R77, R91, R92 class 2). -/
def Bundle.wf (b : Bundle) : Bool :=
  decide (b.lv.toNat ≤ 5) && (decide (b.lv = 0) || decide (b.im ≠ 0)) &&
  (match b.slot5 with
   | .none => decide (b.moves.length ≤ 6)
   | _ => decide (b.moves.length ≤ 5)) &&
  b.moves.all (Move.srcOk b.slot5) && (collisions b.moves).isEmpty

/-- Does a bundle hold nothing but one move, with the constant in slot 5 exactly where the move reads it? -/
def Bundle.plain (b : Bundle) : Bool :=
  !b.sw && decide (b.d = 0) && decide (b.lv = 0) && decide (b.im = 0) &&
  (match b.moves, b.slot5 with
   | [m], .none => decide (m.src ≠ .const)
   | [m], .const _ => decide (m.src = .const)
   | _, _ => false)

/-- The port code of stream port `k` (R79, R82). -/
def streamCode (k : Nat) : Nat := 0x786 + k

/-- Is a code a stream port? -/
def isStreamCode (c : Nat) : Bool := decide (0x786 ≤ c) && decide (c ≤ 0x78D)

/-- The code of seq.flags (R81). -/
def flagsCode : Nat := 0x18E

/-- Is a code a trigger of a defined opcode (R86)? -/
def isTrigger (code : Nat) : Bool :=
  match trigOf code with
  | some x => definesOp x.1 x.2
  | none => false

/-- Does a single-move bundle stand for an instruction of its own: a trigger, a write of seq.flags or a read of a
stream port? -/
def Bundle.single (b : Bundle) : Bool :=
  b.plain &&
  (match b.moves with
   | [m] =>
     isTrigger m.dst.toNat || m.dst.toNat == flagsCode ||
     (match m.src with
      | .port c => isStreamCode c.toNat
      | _ => false)
   | _ => false)

/-- Is the token word of a `tell.commit` the bundle constant with bit 24, DRAFT, set (spec/09_tell_unit.md R331)? -/
def Src.isDraft : Src → Bool
  | .const v => v.getLsbD 24
  | _ => false

/-- The sub-command of a DEBUG command: w1[7:0], with w1[63:8] reserved (spec/13_loader.md R476). -/
def debugSub (c : Cmd) : Nat := c.w1.toNat

/-- Which of the operand words w1 to w6 a command uses, as a list of their numbers (spec/13_loader.md R471, R476). -/
def usedWords (opc : Nat) (c : Cmd) : List Nat :=
  if opc = 0x06 then []
  else if [0x02, 0x03, 0x04, 0x05, 0x07, 0x11].contains opc then [1]
  else if [0x01, 0x09, 0x0A, 0x0C, 0x0F, 0x10, 0x12, 0x13, 0x15].contains opc then [1, 2]
  else if [0x08, 0x0E, 0x14].contains opc then [1, 2, 3]
  else if opc = 0x0B then [1, 2, 3, 4]
  else if opc = 0x0D then
    (if debugSub c ≤ 2 then [1] else if debugSub c = 4 then [1, 2] else [1, 2, 3, 4, 5])
  else []

/-- Operand word `k` of a command. -/
def Cmd.word (c : Cmd) (k : Nat) : W64 :=
  if k = 1 then c.w1 else if k = 2 then c.w2 else if k = 3 then c.w3 else if k = 4 then c.w4
  else if k = 5 then c.w5 else if k = 6 then c.w6 else c.w7

/-- Unused operand words are zero, and word 7 is a multiple of 32 (spec/13_loader.md R470). -/
def cmdOk (opc : Nat) (c : Cmd) : Bool :=
  [1, 2, 3, 4, 5, 6].all (fun k => (usedWords opc c).contains k || c.word k == 0) && c.w7.toNat % 32 == 0

/-- Well-formed instructions. A trigger and a flags write are well formed for every field value, a command and a step
have no fields. -/
def Instr.wf : Instr → Bool
  | .bundleIssue b => b.wf && !b.single
  | .seqFlagsWrite _ => true
  | .streamPortRead _ _ _ dst => !isTrigger dst.toNat && dst.toNat != flagsCode
  | .barrierPhaseComplete => true
  | .delayExpiry => true
  | .yieldExpiry => true
  | .progressBoost => true
  | .laneResultFill => true
  | .divisionComplete => true
  | .sfnComplete => true
  | .teamRetire => true
  | .storeQueueLeave => true
  | .writeAcknowledge => true
  | .updateApply => true
  | .loadFill => true
  | .atomicPerform => true
  | .fenceComplete => true
  | .monitorRetest => true
  | .monitorPoll => true
  | .monitorSwapOut => true
  | .tstoreArbiterPass => true
  | .l1Eviction => true
  | .l2Eviction => true
  | .tableWalk => true
  | .translationFault => true
  | .faultQueueRetry => true
  | .pageRequestTimeout => true
  | .quarantineRelease => true
  | .eccError => true
  | .jobBegin => true
  | .copyCursorAdvance => true
  | .copyJobComplete => true
  | .barDecrement => true
  | .streamRowWrite => true
  | .chanMessageDelivery => true
  | .chanPoolRetry => true
  | .mxRowApply => true
  | .mxJobComplete => true
  | .drainUpdatePerform => true
  | .arrayWaitExpiry => true
  | .fmaPairIdle => true
  | .commitTurn => true
  | .commitPublish => true
  | .autoCommit => true
  | .heapWaitExpiry => true
  | .lichenReclaim => true
  | .homeOperationPerform => true
  | .teamPlacement => true
  | .aceBroadcastApply => true
  | .flitArrival => true
  | .flitInjection => true
  | .overflowMove => true
  | .creditReturn => true
  | .ageTick => true
  | .throttleUpdate => true
  | .goldenEpoch => true
  | .reassemblyTimeout => true
  | .linkFrameReceive => true
  | .systemTimeStep => true
  | .systemTimeSlew => true
  | .peerAccess => true
  | .hostWrite => true
  | .hostRead => true
  | .hostAtomic => true
  | .doorbellWrite => true
  | .commandComplete => true
  | .launchProgressUpdate => true
  | .exportTimeout => true
  | .permitBackoffExpiry => true
  | .serviceTimeout => true
  | .teamWatchdog => true
  | .waitGraphScan => true
  | .preemptionRequest => true
  | .haltEdge => true
  | .deviceReset => true
  | .firmwareBoot => true
  | .intAdd _ _ => true
  | .intSub _ _ => true
  | .intAdd64 _ _ => true
  | .intSub64 _ _ => true
  | .intAnd _ _ => true
  | .intOr _ _ => true
  | .intXor _ _ => true
  | .intAndn _ _ => true
  | .intShl _ _ => true
  | .intShr _ _ => true
  | .intSar _ _ => true
  | .intShl64 _ _ => true
  | .intShr64 _ _ => true
  | .intSar64 _ _ => true
  | .intMinS32 _ _ => true
  | .intMaxS32 _ _ => true
  | .intMinU32 _ _ => true
  | .intMaxU32 _ _ => true
  | .intMinS64 _ _ => true
  | .intMaxS64 _ _ => true
  | .intSel _ _ => true
  | .intAbs _ _ => true
  | .intClz _ _ => true
  | .intPopc _ _ => true
  | .intBrev _ _ => true
  | .intBfx _ _ => true
  | .intBfi _ _ => true
  | .intAddsatS32 _ _ => true
  | .intSubsatS32 _ _ => true
  | .intLea _ _ => true
  | .intPass _ _ => true
  | .mulLo _ => true
  | .mulhiS32 _ => true
  | .mulhiU32 _ => true
  | .madLo _ => true
  | .mulwS32 _ => true
  | .mulwU32 _ => true
  | .mul64Lo _ => true
  | .dot4S8 _ => true
  | .dot2S16 _ => true
  | .divU32 _ => true
  | .divS32 _ => true
  | .remU32 _ => true
  | .remS32 _ => true
  | .fmaF32 _ _ => true
  | .addF32 _ _ => true
  | .mulF32 _ _ => true
  | .subF32 _ _ => true
  | .minF32 _ _ => true
  | .maxF32 _ _ => true
  | .fmaF16x2 _ _ => true
  | .addF16x2 _ _ => true
  | .mulF16x2 _ _ => true
  | .fmaBf16x2 _ _ => true
  | .fmaF64 _ _ => true
  | .addF64 _ _ => true
  | .mulF64 _ _ => true
  | .dot2F16F32 _ _ => true
  | .fmaSatF32 _ _ => true
  | .minF64 _ _ => true
  | .maxF64 _ _ => true
  | .cmpEq _ => true
  | .cmpNe _ => true
  | .cmpLtS32 _ => true
  | .cmpLeS32 _ => true
  | .cmpLtU32 _ => true
  | .cmpLeU32 _ => true
  | .cmpEq64 _ => true
  | .cmpLtS64 _ => true
  | .cmpLtU64 _ => true
  | .cmpFeqF32 _ => true
  | .cmpFltF32 _ => true
  | .cmpFleF32 _ => true
  | .cmpFunF32 _ => true
  | .cmpFltF64 _ => true
  | .cmpFeqF64 _ => true
  | .cmpClassF32 _ => true
  | .cmpTstz _ => true
  | .cmpAny _ => true
  | .cmpAll _ => true
  | .cmpBallot _ => true
  | .sfnRcp _ => true
  | .sfnRsqrt _ => true
  | .sfnSqrt _ => true
  | .sfnExp2 _ => true
  | .sfnLog2 _ => true
  | .sfnSin _ => true
  | .sfnCos _ => true
  | .sfnTanh _ => true
  | .sfnDivF32 _ => true
  | .sfnRcpF64 _ => true
  | .sfnSqrtF64 _ => true
  | .cvtF32S32 _ => true
  | .cvtF32U32 _ => true
  | .cvtS32F32 _ => true
  | .cvtU32F32 _ => true
  | .cvtF16F32 _ => true
  | .cvtF32F16 _ => true
  | .cvtBf16F32 _ => true
  | .cvtF32Bf16 _ => true
  | .cvtF64F32 _ => true
  | .cvtF32F64 _ => true
  | .cvtF64S64 _ => true
  | .cvtS64F64 _ => true
  | .cvtZbpack8 _ => true
  | .cvtZbunpack8 _ => true
  | .cvtZbpack4 _ => true
  | .cvtZbunpack4 _ => true
  | .cvtRoundF32 _ => true
  | .cvtXlaneIdx _ => true
  | .cvtXlaneXor _ => true
  | .cvtBcast _ => true
  | .cvtScanAdd _ => true
  | .cvtRedAddF32 _ => true
  | .memLdU8 _ _ => true
  | .memLdS8 _ _ => true
  | .memLdU16 _ _ => true
  | .memLdS16 _ _ => true
  | .memLd32 _ _ => true
  | .memLd64 _ _ => true
  | .memSt8 _ _ => true
  | .memSt16 _ _ => true
  | .memSt32 _ _ => true
  | .memSt64 _ _ => true
  | .memLdTs _ _ => true
  | .memStTs _ _ => true
  | .memAtomAdd _ _ => true
  | .memAtomAdd64 _ _ => true
  | .memAtomMinS32 _ _ => true
  | .memAtomMaxS32 _ _ => true
  | .memAtomMinU64 _ _ => true
  | .memAtomAnd _ _ => true
  | .memAtomOr _ _ => true
  | .memAtomXor _ _ => true
  | .memAtomExch _ _ => true
  | .memAtomExch64 _ _ => true
  | .memAtomCas _ _ => true
  | .memAtomCas64 _ _ => true
  | .memAtomAddF32 _ _ => true
  | .memFence _ _ => true
  | .memWaitcmp _ _ => true
  | .memPrefetch _ _ => true
  | .memPin _ _ => true
  | .memUnpin _ _ => true
  | .memLdAcq _ _ => true
  | .memStRel _ _ => true
  | .memLdAcq64 _ _ => true
  | .memStRel64 _ _ => true
  | .memFlush _ _ => true
  | .memLdNc _ _ => true
  | .cpCopy _ => true
  | .cpCopy2d _ => true
  | .cpGather _ => true
  | .cpScatter _ => true
  | .cpFill _ => true
  | .cpQuantZb8 _ => true
  | .cpZrlPack _ => true
  | .cpZrlUnpack _ => true
  | .cpStreamOpen _ => true
  | .cpStreamClose _ => true
  | .cpBarInit _ => true
  | .cpBarExpect _ => true
  | .cpBarWait _ => true
  | .cpChanSend _ => true
  | .cpChanRecv _ => true
  | .cpCancel _ => true
  | .cpPoll _ => true
  | .mxLdw _ => true
  | .mxSwap _ => true
  | .mxMma _ => true
  | .mxMmaSwap _ => true
  | .mxZero _ => true
  | .mxDrain _ => true
  | .mxDrainAdd _ => true
  | .mxDrainMax _ => true
  | .mxLdacc _ => true
  | .mxScaleSet _ => true
  | .mxWait _ => true
  | .mxRdacc _ => true
  | .mxWracc _ => true
  | .mxMmaT _ => true
  | .snapBegin _ => true
  | .snapBeginRo _ => true
  | .snapCommit _ => true
  | .snapAbort _ => true
  | .snapNow _ => true
  | .snapHold _ => true
  | .snapRelease _ => true
  | .snapStatus _ => true
  | .snapLdAt _ => true
  | .tellCommit t => !t.src.isDraft
  | .tellCommitDraft t => t.src.isDraft
  | .tellConfirm _ => true
  | .tellNext _ => true
  | .tellArm _ => true
  | .tellDisarm _ => true
  | .tellFork _ => true
  | .tellReset _ => true
  | .tellNotify _ => true
  | .tellCount _ => true
  | .tqPush _ => true
  | .tqPop _ => true
  | .tqSteal _ => true
  | .tqStealAny _ => true
  | .tqSize _ => true
  | .tqInit _ => true
  | .aceMin _ => true
  | .aceMax _ => true
  | .aceRd _ => true
  | .aceSet _ => true
  | .aceWaitlt _ => true
  | .seqBr _ => true
  | .seqBrr _ => true
  | .seqCall _ => true
  | .seqCallr _ => true
  | .seqRet _ => true
  | .seqLoop _ => true
  | .seqBrk _ => true
  | .seqCont _ => true
  | .seqEnd _ => true
  | .seqYield _ => true
  | .seqBar _ => true
  | .seqBarArrive _ => true
  | .seqSetfmt _ => true
  | .seqTrap _ => true
  | .seqRspush _ => true
  | .seqRspop _ => true
  | .supCsrRd _ => true
  | .supCsrWr _ => true
  | .supTret _ => true
  | .supMark _ => true
  | .supCntRd _ => true
  | .supHalt _ => true
  | .supFaultRd _ => true
  | .supIcinval _ => true
  | .supSync _ => true
  | .loadImage => true
  | .unloadImage => true
  | .launch => true
  | .kill => true
  | .ctxCreate => true
  | .ctxDestroy => true
  | .ctxConfig => true
  | .inval => true
  | .pageReply => true
  | .pageMove => true
  | .grant => true
  | .grantRevoke => true
  | .switchPreempt => true
  | .switchResume => true
  | .debugTake => true
  | .debugGive => true
  | .debugRevoke => true
  | .debugHalt => true
  | .debugResume => true
  | .debugRead => true
  | .debugWrite => true
  | .debugLog => true
  | .attest => true
  | .attestCertificate => true
  | .reinstall => true
  | .ctxExport => true
  | .ctxImport => true
  | .devConfigDevice => true
  | .devConfigPartition => true
  | .devConfigHostWindow => true
  | .devConfigPeerWindow => true
  | .verOpen => true
  | .queryDeviceMap => true
  | .queryConfig => true
  | .queryPartition => true
  | .queryEvsel => true
  | .pmcSet => true
  | .handlerEntryDelayExpiry => true
  | .saveEnd => true
  | .lossOfPower => true

/-- Operands that a command may carry: unused words are zero, and an operand bit picks the named alternative
(spec/13_loader.md R470, R471). Anything that is no command has none. -/
def Instr.operandsOk (c : Cmd) : Instr → Bool
  | .bundleIssue _ => false
  | .seqFlagsWrite _ => false
  | .streamPortRead _ _ _ _ => false
  | .barrierPhaseComplete => false
  | .delayExpiry => false
  | .yieldExpiry => false
  | .progressBoost => false
  | .laneResultFill => false
  | .divisionComplete => false
  | .sfnComplete => false
  | .teamRetire => false
  | .storeQueueLeave => false
  | .writeAcknowledge => false
  | .updateApply => false
  | .loadFill => false
  | .atomicPerform => false
  | .fenceComplete => false
  | .monitorRetest => false
  | .monitorPoll => false
  | .monitorSwapOut => false
  | .tstoreArbiterPass => false
  | .l1Eviction => false
  | .l2Eviction => false
  | .tableWalk => false
  | .translationFault => false
  | .faultQueueRetry => false
  | .pageRequestTimeout => false
  | .quarantineRelease => false
  | .eccError => false
  | .jobBegin => false
  | .copyCursorAdvance => false
  | .copyJobComplete => false
  | .barDecrement => false
  | .streamRowWrite => false
  | .chanMessageDelivery => false
  | .chanPoolRetry => false
  | .mxRowApply => false
  | .mxJobComplete => false
  | .drainUpdatePerform => false
  | .arrayWaitExpiry => false
  | .fmaPairIdle => false
  | .commitTurn => false
  | .commitPublish => false
  | .autoCommit => false
  | .heapWaitExpiry => false
  | .lichenReclaim => false
  | .homeOperationPerform => false
  | .teamPlacement => false
  | .aceBroadcastApply => false
  | .flitArrival => false
  | .flitInjection => false
  | .overflowMove => false
  | .creditReturn => false
  | .ageTick => false
  | .throttleUpdate => false
  | .goldenEpoch => false
  | .reassemblyTimeout => false
  | .linkFrameReceive => false
  | .systemTimeStep => false
  | .systemTimeSlew => false
  | .peerAccess => false
  | .hostWrite => false
  | .hostRead => false
  | .hostAtomic => false
  | .doorbellWrite => false
  | .commandComplete => false
  | .launchProgressUpdate => false
  | .exportTimeout => false
  | .permitBackoffExpiry => false
  | .serviceTimeout => false
  | .teamWatchdog => false
  | .waitGraphScan => false
  | .preemptionRequest => false
  | .haltEdge => false
  | .deviceReset => false
  | .firmwareBoot => false
  | .intAdd _ _ => false
  | .intSub _ _ => false
  | .intAdd64 _ _ => false
  | .intSub64 _ _ => false
  | .intAnd _ _ => false
  | .intOr _ _ => false
  | .intXor _ _ => false
  | .intAndn _ _ => false
  | .intShl _ _ => false
  | .intShr _ _ => false
  | .intSar _ _ => false
  | .intShl64 _ _ => false
  | .intShr64 _ _ => false
  | .intSar64 _ _ => false
  | .intMinS32 _ _ => false
  | .intMaxS32 _ _ => false
  | .intMinU32 _ _ => false
  | .intMaxU32 _ _ => false
  | .intMinS64 _ _ => false
  | .intMaxS64 _ _ => false
  | .intSel _ _ => false
  | .intAbs _ _ => false
  | .intClz _ _ => false
  | .intPopc _ _ => false
  | .intBrev _ _ => false
  | .intBfx _ _ => false
  | .intBfi _ _ => false
  | .intAddsatS32 _ _ => false
  | .intSubsatS32 _ _ => false
  | .intLea _ _ => false
  | .intPass _ _ => false
  | .mulLo _ => false
  | .mulhiS32 _ => false
  | .mulhiU32 _ => false
  | .madLo _ => false
  | .mulwS32 _ => false
  | .mulwU32 _ => false
  | .mul64Lo _ => false
  | .dot4S8 _ => false
  | .dot2S16 _ => false
  | .divU32 _ => false
  | .divS32 _ => false
  | .remU32 _ => false
  | .remS32 _ => false
  | .fmaF32 _ _ => false
  | .addF32 _ _ => false
  | .mulF32 _ _ => false
  | .subF32 _ _ => false
  | .minF32 _ _ => false
  | .maxF32 _ _ => false
  | .fmaF16x2 _ _ => false
  | .addF16x2 _ _ => false
  | .mulF16x2 _ _ => false
  | .fmaBf16x2 _ _ => false
  | .fmaF64 _ _ => false
  | .addF64 _ _ => false
  | .mulF64 _ _ => false
  | .dot2F16F32 _ _ => false
  | .fmaSatF32 _ _ => false
  | .minF64 _ _ => false
  | .maxF64 _ _ => false
  | .cmpEq _ => false
  | .cmpNe _ => false
  | .cmpLtS32 _ => false
  | .cmpLeS32 _ => false
  | .cmpLtU32 _ => false
  | .cmpLeU32 _ => false
  | .cmpEq64 _ => false
  | .cmpLtS64 _ => false
  | .cmpLtU64 _ => false
  | .cmpFeqF32 _ => false
  | .cmpFltF32 _ => false
  | .cmpFleF32 _ => false
  | .cmpFunF32 _ => false
  | .cmpFltF64 _ => false
  | .cmpFeqF64 _ => false
  | .cmpClassF32 _ => false
  | .cmpTstz _ => false
  | .cmpAny _ => false
  | .cmpAll _ => false
  | .cmpBallot _ => false
  | .sfnRcp _ => false
  | .sfnRsqrt _ => false
  | .sfnSqrt _ => false
  | .sfnExp2 _ => false
  | .sfnLog2 _ => false
  | .sfnSin _ => false
  | .sfnCos _ => false
  | .sfnTanh _ => false
  | .sfnDivF32 _ => false
  | .sfnRcpF64 _ => false
  | .sfnSqrtF64 _ => false
  | .cvtF32S32 _ => false
  | .cvtF32U32 _ => false
  | .cvtS32F32 _ => false
  | .cvtU32F32 _ => false
  | .cvtF16F32 _ => false
  | .cvtF32F16 _ => false
  | .cvtBf16F32 _ => false
  | .cvtF32Bf16 _ => false
  | .cvtF64F32 _ => false
  | .cvtF32F64 _ => false
  | .cvtF64S64 _ => false
  | .cvtS64F64 _ => false
  | .cvtZbpack8 _ => false
  | .cvtZbunpack8 _ => false
  | .cvtZbpack4 _ => false
  | .cvtZbunpack4 _ => false
  | .cvtRoundF32 _ => false
  | .cvtXlaneIdx _ => false
  | .cvtXlaneXor _ => false
  | .cvtBcast _ => false
  | .cvtScanAdd _ => false
  | .cvtRedAddF32 _ => false
  | .memLdU8 _ _ => false
  | .memLdS8 _ _ => false
  | .memLdU16 _ _ => false
  | .memLdS16 _ _ => false
  | .memLd32 _ _ => false
  | .memLd64 _ _ => false
  | .memSt8 _ _ => false
  | .memSt16 _ _ => false
  | .memSt32 _ _ => false
  | .memSt64 _ _ => false
  | .memLdTs _ _ => false
  | .memStTs _ _ => false
  | .memAtomAdd _ _ => false
  | .memAtomAdd64 _ _ => false
  | .memAtomMinS32 _ _ => false
  | .memAtomMaxS32 _ _ => false
  | .memAtomMinU64 _ _ => false
  | .memAtomAnd _ _ => false
  | .memAtomOr _ _ => false
  | .memAtomXor _ _ => false
  | .memAtomExch _ _ => false
  | .memAtomExch64 _ _ => false
  | .memAtomCas _ _ => false
  | .memAtomCas64 _ _ => false
  | .memAtomAddF32 _ _ => false
  | .memFence _ _ => false
  | .memWaitcmp _ _ => false
  | .memPrefetch _ _ => false
  | .memPin _ _ => false
  | .memUnpin _ _ => false
  | .memLdAcq _ _ => false
  | .memStRel _ _ => false
  | .memLdAcq64 _ _ => false
  | .memStRel64 _ _ => false
  | .memFlush _ _ => false
  | .memLdNc _ _ => false
  | .cpCopy _ => false
  | .cpCopy2d _ => false
  | .cpGather _ => false
  | .cpScatter _ => false
  | .cpFill _ => false
  | .cpQuantZb8 _ => false
  | .cpZrlPack _ => false
  | .cpZrlUnpack _ => false
  | .cpStreamOpen _ => false
  | .cpStreamClose _ => false
  | .cpBarInit _ => false
  | .cpBarExpect _ => false
  | .cpBarWait _ => false
  | .cpChanSend _ => false
  | .cpChanRecv _ => false
  | .cpCancel _ => false
  | .cpPoll _ => false
  | .mxLdw _ => false
  | .mxSwap _ => false
  | .mxMma _ => false
  | .mxMmaSwap _ => false
  | .mxZero _ => false
  | .mxDrain _ => false
  | .mxDrainAdd _ => false
  | .mxDrainMax _ => false
  | .mxLdacc _ => false
  | .mxScaleSet _ => false
  | .mxWait _ => false
  | .mxRdacc _ => false
  | .mxWracc _ => false
  | .mxMmaT _ => false
  | .snapBegin _ => false
  | .snapBeginRo _ => false
  | .snapCommit _ => false
  | .snapAbort _ => false
  | .snapNow _ => false
  | .snapHold _ => false
  | .snapRelease _ => false
  | .snapStatus _ => false
  | .snapLdAt _ => false
  | .tellCommit _ => false
  | .tellCommitDraft _ => false
  | .tellConfirm _ => false
  | .tellNext _ => false
  | .tellArm _ => false
  | .tellDisarm _ => false
  | .tellFork _ => false
  | .tellReset _ => false
  | .tellNotify _ => false
  | .tellCount _ => false
  | .tqPush _ => false
  | .tqPop _ => false
  | .tqSteal _ => false
  | .tqStealAny _ => false
  | .tqSize _ => false
  | .tqInit _ => false
  | .aceMin _ => false
  | .aceMax _ => false
  | .aceRd _ => false
  | .aceSet _ => false
  | .aceWaitlt _ => false
  | .seqBr _ => false
  | .seqBrr _ => false
  | .seqCall _ => false
  | .seqCallr _ => false
  | .seqRet _ => false
  | .seqLoop _ => false
  | .seqBrk _ => false
  | .seqCont _ => false
  | .seqEnd _ => false
  | .seqYield _ => false
  | .seqBar _ => false
  | .seqBarArrive _ => false
  | .seqSetfmt _ => false
  | .seqTrap _ => false
  | .seqRspush _ => false
  | .seqRspop _ => false
  | .supCsrRd _ => false
  | .supCsrWr _ => false
  | .supTret _ => false
  | .supMark _ => false
  | .supCntRd _ => false
  | .supHalt _ => false
  | .supFaultRd _ => false
  | .supIcinval _ => false
  | .supSync _ => false
  | .loadImage => cmdOk 0x01 c
  | .unloadImage => cmdOk 0x02 c
  | .launch => cmdOk 0x03 c
  | .kill => cmdOk 0x04 c
  | .ctxCreate => cmdOk 0x05 c
  | .ctxDestroy => cmdOk 0x06 c
  | .ctxConfig => cmdOk 0x07 c
  | .inval => cmdOk 0x08 c
  | .pageReply => cmdOk 0x09 c
  | .pageMove => cmdOk 0x0A c
  | .grant => cmdOk 0x0B c && !c.w4.getLsbD 0
  | .grantRevoke => cmdOk 0x0B c && c.w4.getLsbD 0
  | .switchPreempt => cmdOk 0x0C c && !c.w1.getLsbD 0
  | .switchResume => cmdOk 0x0C c && c.w1.getLsbD 0
  | .debugTake => cmdOk 0x0D c && debugSub c == 0
  | .debugGive => cmdOk 0x0D c && debugSub c == 1
  | .debugRevoke => cmdOk 0x0D c && debugSub c == 2
  | .debugHalt => cmdOk 0x0D c && debugSub c == 3
  | .debugResume => cmdOk 0x0D c && debugSub c == 4
  | .debugRead => cmdOk 0x0D c && debugSub c == 5
  | .debugWrite => cmdOk 0x0D c && debugSub c == 6
  | .debugLog => cmdOk 0x0D c && debugSub c == 7
  | .attest => cmdOk 0x0E c && c.w1 != 0
  | .attestCertificate => cmdOk 0x0E c && c.w1 == 0
  | .reinstall => cmdOk 0x0F c
  | .ctxExport => cmdOk 0x10 c
  | .ctxImport => cmdOk 0x11 c
  | .devConfigDevice => cmdOk 0x12 c && c.w2 == 0
  | .devConfigPartition => cmdOk 0x12 c && c.w2 == 1
  | .devConfigHostWindow => cmdOk 0x12 c && c.w2 == 2
  | .devConfigPeerWindow => cmdOk 0x12 c && c.w2 == 3
  | .verOpen => cmdOk 0x13 c
  | .queryDeviceMap => cmdOk 0x14 c && c.w1 == 0
  | .queryConfig => cmdOk 0x14 c && c.w1 == 1
  | .queryPartition => cmdOk 0x14 c && c.w1 == 2
  | .queryEvsel => cmdOk 0x14 c && c.w1 == 3
  | .pmcSet => cmdOk 0x15 c
  | .handlerEntryDelayExpiry => false
  | .saveEnd => false
  | .lossOfPower => false

end Sys2Proof
end

