-- ==== Sys2Proof/Decode.lean ====
section
/-! DEFINITION. Decoding of bundles (32 bytes, spec/02_bundles_and_ports.md R73 to R77, R92 class 2) and of loader
command entries (64 bytes, spec/13_loader.md R470, R471), total on any bytes; and the encoder. A bundle that holds
one move alone decodes to the row of that move; every other bundle to `bundleIssue`. -/

namespace Sys2Proof
open Sys2Proof.Machine

/-- Why bytes are no instruction. -/
inductive DecErr where
  /-- Neither 32 nor 64 bytes. -/
  | badLength
  /-- ILLEGAL-BUNDLE, with the fault mask of R92. -/
  | illegalBundle (mask : BitVec 6)
  /-- BAD-COMMAND: the entry does not meet R470. -/
  | badCommand
  deriving DecidableEq, Repr

/-- The number that bytes form, the first byte lowest (spec/00_scope.md R6). -/
def natOfBytes : List Byte → Nat
  | [] => 0
  | b :: r => b.toNat + 256 * natOfBytes r

/-- The `n` bytes of a number, the lowest first. -/
def bytesOfNat : Nat → Nat → List Byte
  | 0, _ => []
  | n + 1, v => BitVec.ofNat 8 v :: bytesOfNat n (v / 256)

/-- Bits [lo+len-1:lo] of a number. -/
def field (v lo len : Nat) : Nat := v / 2 ^ lo % 2 ^ len

/-- The number of slot `k` of a bundle: bytes 2+5k to 6+5k (R73). -/
def slotOf (bs : List Byte) (k : Nat) : Nat := natOfBytes ((bs.drop (2 + 5 * k)).take 5)

/-- Source of a slot: kind K and field SRC, under mode M5 (R75, R92); `none` where the pair is not allowed. -/
def decodeSrc (m5 v : Nat) : Option MSrc :=
  let k := field v 20 2
  let src := field v 0 20
  if k = 0 then (if src / 2 ^ 13 = 0 then some (.port (BitVec.ofNat 13 src)) else none)
  else if k = 1 then some (.imm (BitVec.ofNat 20 src))
  else if k = 2 then (if m5 = 1 ∧ src = 0 then some .const else none)
  else none

/-- The move of a slot, but for its source (R75). -/
def slotMove (v : Nat) (src : MSrc) : Move :=
  { g := BitVec.ofNat 4 (field v 36 4), ng := field v 35 1 == 1, dst := BitVec.ofNat 13 (field v 22 13), src := src }

/-- The move of a slot (R75). -/
def decodeMove (m5 v : Nat) : Option Move := (decodeSrc m5 v).map (slotMove v)

/-- The moves of the slots, and the numbers of those whose slot is not allowed. -/
def decodeMoves (m5 : Nat) (bs : List Byte) : List Nat → List Move × List Nat
  | [] => ([], [])
  | k :: r =>
    let rest := decodeMoves m5 bs r
    match decodeMove m5 (slotOf bs k) with
    | some m => (m :: rest.1, rest.2)
    | none => (rest.1, k :: rest.2)

/-- The mask of a list of slot numbers. -/
def slotMask : List Nat → BitVec 6
  | [] => 0
  | k :: r => BitVec.ofNat 6 (2 ^ k) ||| slotMask r

/-- The bundle that 32 bytes hold (R73 to R77), or the failure of class 2 of R92. -/
def decodeBundle (bs : List Byte) : Except DecErr Bundle :=
  let h := natOfBytes (bs.take 2)
  let n := field h 4 3
  let m5 := field h 2 2
  let lv := field h 9 3
  let im := field h 7 2
  if field h 0 2 ≠ 0 ∨ n = 7 ∨ m5 = 3 ∨ 6 ≤ lv ∨ (lv ≠ 0 ∧ im = 0) ∨ (m5 ≠ 0 ∧ n = 6) then
    .error (.illegalBundle 0)
  else
    let s5 := slotOf bs 5
    let ms := decodeMoves m5 bs (List.range n)
    let unused := ([0, 1, 2, 3, 4, 5].filter fun k => decide (n ≤ k)).filter fun k =>
      decide (slotOf bs k ≠ 0) && (decide (k ≠ 5) || decide (m5 = 0))
    let bad5 := if (m5 = 1 ∧ s5 / 2 ^ 32 ≠ 0) ∨ (m5 = 2 ∧ s5 / 2 ^ 36 ≠ 0) then [5] else []
    let coll := collisions ((List.range n).map fun k => slotMove (slotOf bs k) (.imm 0))
    let bad := ms.2 ++ unused ++ bad5 ++ coll
    if bad.isEmpty then
      .ok { sw := field h 15 1 == 1, d := BitVec.ofNat 3 (field h 12 3), lv := BitVec.ofNat 3 lv,
            im := BitVec.ofNat 2 im, moves := ms.1,
            slot5 :=
              if m5 = 1 then .const (BitVec.ofNat 32 s5)
              else if m5 = 2 then
                .cfg (BitVec.ofNat 2 (field s5 34 2)) (BitVec.ofNat 2 (field s5 32 2)) (BitVec.ofNat 32 s5)
              else .none }
    else .error (.illegalBundle (slotMask bad))

/-- The source of a lone move with its constant in place. -/
def loneSrc (s5 : Slot5) (s : MSrc) : Src :=
  match s, s5 with
  | .port c, _ => .port c
  | .imm v, _ => .imm v
  | .const, .const v => .const v
  | .const, _ => .const 0

/-- A list of the triggers of a unit kind, by opcode. -/
abbrev TrigRow := List (Trig → Instr)

/-- The triggers of `int`, by opcode (R86). -/
def intRow (u : Fin 2) : TrigRow :=
  [.intAdd u, .intSub u, .intAdd64 u, .intSub64 u, .intAnd u, .intOr u, .intXor u, .intAndn u, .intShl u,
    .intShr u, .intSar u, .intShl64 u, .intShr64 u, .intSar64 u, .intMinS32 u, .intMaxS32 u, .intMinU32 u,
    .intMaxU32 u, .intMinS64 u, .intMaxS64 u, .intSel u, .intAbs u, .intClz u, .intPopc u, .intBrev u,
    .intBfx u, .intBfi u, .intAddsatS32 u, .intSubsatS32 u, .intLea u, .intPass u]

/-- The triggers of `mul`, by opcode (R86). -/
def mulRow : TrigRow :=
  [.mulLo, .mulhiS32, .mulhiU32, .madLo, .mulwS32, .mulwU32, .mul64Lo, .dot4S8, .dot2S16, .divU32, .divS32,
    .remU32, .remS32]

/-- The triggers of `fma`, by opcode (R86). -/
def fmaRow (u : Fin 2) : TrigRow :=
  [.fmaF32 u, .addF32 u, .mulF32 u, .subF32 u, .minF32 u, .maxF32 u, .fmaF16x2 u, .addF16x2 u, .mulF16x2 u,
    .fmaBf16x2 u, .fmaF64 u, .addF64 u, .mulF64 u, .dot2F16F32 u, .fmaSatF32 u, .minF64 u, .maxF64 u]

/-- The triggers of `cmp`, by opcode (R86). -/
def cmpRow : TrigRow :=
  [.cmpEq, .cmpNe, .cmpLtS32, .cmpLeS32, .cmpLtU32, .cmpLeU32, .cmpEq64, .cmpLtS64, .cmpLtU64, .cmpFeqF32,
    .cmpFltF32, .cmpFleF32, .cmpFunF32, .cmpFltF64, .cmpFeqF64, .cmpClassF32, .cmpTstz, .cmpAny, .cmpAll,
    .cmpBallot]

/-- The triggers of `sfn`, by opcode (R86). -/
def sfnRow : TrigRow :=
  [.sfnRcp, .sfnRsqrt, .sfnSqrt, .sfnExp2, .sfnLog2, .sfnSin, .sfnCos, .sfnTanh, .sfnDivF32, .sfnRcpF64,
    .sfnSqrtF64]

/-- The triggers of `cvt`, by opcode (R86). -/
def cvtRow : TrigRow :=
  [.cvtF32S32, .cvtF32U32, .cvtS32F32, .cvtU32F32, .cvtF16F32, .cvtF32F16, .cvtBf16F32, .cvtF32Bf16,
    .cvtF64F32, .cvtF32F64, .cvtF64S64, .cvtS64F64, .cvtZbpack8, .cvtZbunpack8, .cvtZbpack4, .cvtZbunpack4,
    .cvtRoundF32, .cvtXlaneIdx, .cvtXlaneXor, .cvtBcast, .cvtScanAdd, .cvtRedAddF32]

/-- The triggers of `mem`, by opcode (R86). -/
def memRow (u : Fin 2) : TrigRow :=
  [.memLdU8 u, .memLdS8 u, .memLdU16 u, .memLdS16 u, .memLd32 u, .memLd64 u, .memSt8 u, .memSt16 u, .memSt32 u,
    .memSt64 u, .memLdTs u, .memStTs u, .memAtomAdd u, .memAtomAdd64 u, .memAtomMinS32 u, .memAtomMaxS32 u,
    .memAtomMinU64 u, .memAtomAnd u, .memAtomOr u, .memAtomXor u, .memAtomExch u, .memAtomExch64 u,
    .memAtomCas u, .memAtomCas64 u, .memAtomAddF32 u, .memFence u, .memWaitcmp u, .memPrefetch u, .memPin u,
    .memUnpin u, .memLdAcq u, .memStRel u, .memLdAcq64 u, .memStRel64 u, .memFlush u, .memLdNc u]

/-- The triggers of `mx`, by opcode (R86). -/
def mxRow : TrigRow :=
  [.mxLdw, .mxSwap, .mxMma, .mxMmaSwap, .mxZero, .mxDrain, .mxDrainAdd, .mxDrainMax, .mxLdacc, .mxScaleSet,
    .mxWait, .mxRdacc, .mxWracc, .mxMmaT]

/-- The triggers of `cp`, by opcode (R86). -/
def cpRow : TrigRow :=
  [.cpCopy, .cpCopy2d, .cpGather, .cpScatter, .cpFill, .cpQuantZb8, .cpZrlPack, .cpZrlUnpack, .cpStreamOpen,
    .cpStreamClose, .cpBarInit, .cpBarExpect, .cpBarWait, .cpChanSend, .cpChanRecv, .cpCancel, .cpPoll]

/-- The triggers of `snap`, by opcode (R86). -/
def snapRow : TrigRow :=
  [.snapBegin, .snapBeginRo, .snapCommit, .snapAbort, .snapNow, .snapHold, .snapRelease, .snapStatus, .snapLdAt]

/-- The triggers of `tell`, by opcode (R86). -/
def tellRow : TrigRow :=
  [.tellCommit, .tellConfirm, .tellNext, .tellArm, .tellDisarm, .tellFork, .tellReset, .tellNotify, .tellCount]

/-- The triggers of `tq`, by opcode (R86). -/
def tqRow : TrigRow :=
  [.tqPush, .tqPop, .tqSteal, .tqStealAny, .tqSize, .tqInit]

/-- The triggers of `ace`, by opcode (R86). -/
def aceRow : TrigRow :=
  [.aceMin, .aceMax, .aceRd, .aceSet, .aceWaitlt]

/-- The triggers of `seq`, by opcode (R86). -/
def seqRow : TrigRow :=
  [.seqBr, .seqBrr, .seqCall, .seqCallr, .seqRet, .seqLoop, .seqBrk, .seqCont, .seqEnd, .seqYield, .seqBar,
    .seqBarArrive, .seqSetfmt, .seqTrap, .seqRspush, .seqRspop]

/-- The triggers of `sup`, by opcode (R86). -/
def supRow : TrigRow :=
  [.supCsrRd, .supCsrWr, .supTret, .supMark, .supCntRd, .supHalt, .supFaultRd, .supIcinval, .supSync]

/-- The triggers of unit `k` (spec/03_warp_sequencer.md R135 gives the numbers). -/
def trigRow (k : Nat) : TrigRow :=
  match k with
  | 0 => intRow 0
  | 1 => intRow 1
  | 2 => mulRow
  | 3 => fmaRow 0
  | 4 => fmaRow 1
  | 5 => cmpRow
  | 6 => sfnRow
  | 7 => cvtRow
  | 8 => memRow 0
  | 9 => memRow 1
  | 10 => mxRow
  | 11 => cpRow
  | 12 => snapRow
  | 13 => tellRow
  | 14 => tqRow
  | 15 => aceRow
  | 16 => seqRow
  | 17 => supRow
  | _ => []

/-- The instruction of a lone trigger of opcode `n` of unit `k`. -/
def trigInstr (k n : Nat) (t : Trig) : Option Instr :=
  if k = 13 ∧ n = 0 ∧ t.src.isDraft then some (.tellCommitDraft t)
  else ((trigRow k)[n]?).map fun f => f t

/-- The instruction that a bundle is: the row of its lone move, or `bundleIssue`. -/
def classify (b : Bundle) : Instr :=
  if b.single then
    match b.moves with
    | [m] =>
      let t : Trig := { g := m.g, ng := m.ng, src := loneSrc b.slot5 m.src }
      match (trigOf m.dst.toNat).bind fun x => trigInstr x.1 x.2 t with
      | some i => i
      | none =>
        if m.dst.toNat = flagsCode then .seqFlagsWrite t
        else
          match m.src with
          | .port c => .streamPortRead ⟨(c.toNat - 0x786) % 8, Nat.mod_lt _ (by decide)⟩ m.g m.ng m.dst
          | _ => .bundleIssue b
    | _ => .bundleIssue b
  else .bundleIssue b

/-- The command of a 64-byte entry (spec/13_loader.md R470). -/
def cmdOfBytes (bs : List Byte) : Cmd :=
  let w := fun k => natOfBytes ((bs.drop (8 * k)).take 8)
  { fence := field (w 0) 50 1 == 1, irq := field (w 0) 49 1 == 1, ctx := BitVec.ofNat 16 (field (w 0) 32 16),
    tag := BitVec.ofNat 32 (w 0), w1 := BitVec.ofNat 64 (w 1), w2 := BitVec.ofNat 64 (w 2),
    w3 := BitVec.ofNat 64 (w 3), w4 := BitVec.ofNat 64 (w 4), w5 := BitVec.ofNat 64 (w 5),
    w6 := BitVec.ofNat 64 (w 6), w7 := BitVec.ofNat 64 (w 7) }

/-- The command that code `opc` names, with its sub-kind by operand (spec/13_loader.md R471, R473, R476, R477). -/
def cmdInstr (opc : Nat) (c : Cmd) : Option Instr :=
  match opc with
  | 0x01 => some .loadImage
  | 0x02 => some .unloadImage
  | 0x03 => some .launch
  | 0x04 => some .kill
  | 0x05 => some .ctxCreate
  | 0x06 => some .ctxDestroy
  | 0x07 => some .ctxConfig
  | 0x08 => some .inval
  | 0x09 => some .pageReply
  | 0x0A => some .pageMove
  | 0x0B => if c.w4.getLsbD 0 then some .grantRevoke else some .grant
  | 0x0C => if c.w1.getLsbD 0 then some .switchResume else some .switchPreempt
  | 0x0D =>
    if debugSub c == 0 then some .debugTake
    else if debugSub c == 1 then some .debugGive
    else if debugSub c == 2 then some .debugRevoke
    else if debugSub c == 3 then some .debugHalt
    else if debugSub c == 4 then some .debugResume
    else if debugSub c == 5 then some .debugRead
    else if debugSub c == 6 then some .debugWrite
    else if debugSub c == 7 then some .debugLog
    else none
  | 0x0E => if c.w1 == 0 then some .attestCertificate else some .attest
  | 0x0F => some .reinstall
  | 0x10 => some .ctxExport
  | 0x11 => some .ctxImport
  | 0x12 =>
    if c.w2 == 0 then some .devConfigDevice
    else if c.w2 == 1 then some .devConfigPartition
    else if c.w2 == 2 then some .devConfigHostWindow
    else if c.w2 == 3 then some .devConfigPeerWindow
    else none
  | 0x13 => some .verOpen
  | 0x14 =>
    if c.w1 == 0 then some .queryDeviceMap
    else if c.w1 == 1 then some .queryConfig
    else if c.w1 == 2 then some .queryPartition
    else if c.w1 == 3 then some .queryEvsel
    else none
  | 0x15 => some .pmcSet
  | _ => none

/-- The command of an entry, or the refusal of R470. -/
def decodeCommand (bs : List Byte) : Except DecErr Instr :=
  let h := natOfBytes (bs.take 8)
  let opc := field h 56 8
  let c := cmdOfBytes bs
  if field h 51 5 ≠ 0 ∨ field h 48 1 ≠ 0 ∨ ¬ cmdOk opc c then .error .badCommand
  else
    match cmdInstr opc c with
    | some i => .ok i
    | none => .error .badCommand

/-- Decoding: 32 bytes are a bundle, 64 bytes a command entry. -/
def decode (bs : List Byte) : Except DecErr Instr :=
  if bs.length = 32 then
    match decodeBundle bs with
    | .ok b => .ok (classify b)
    | .error e => .error e
  else if bs.length = 64 then decodeCommand bs
  else .error .badLength

/-! ## The encoder -/

/-- The 40-bit number of a move (R75). -/
def encodeMove (m : Move) : Nat :=
  let s := match m.src with
    | .port c => c.toNat
    | .imm v => 2 ^ 20 + v.toNat
    | .const => 2 * 2 ^ 20
  m.g.toNat * 2 ^ 36 + (if m.ng then 2 ^ 35 else 0) + m.dst.toNat * 2 ^ 22 + s

/-- The 16-bit header (R74). -/
def encodeHeader (b : Bundle) : Nat :=
  let m5 := match b.slot5 with
    | .none => 0
    | .const _ => 1
    | .cfg _ _ _ => 2
  (if b.sw then 2 ^ 15 else 0) + b.d.toNat * 2 ^ 12 + b.lv.toNat * 2 ^ 9 + b.im.toNat * 2 ^ 7 +
    b.moves.length * 2 ^ 4 + m5 * 2 ^ 2

/-- The 40-bit number of slot 5 where it holds no move (R76). -/
def encodeSlot5 (s : Slot5) : Nat :=
  match s with
  | .none => 0
  | .const v => v.toNat
  | .cfg set j e => set.toNat * 2 ^ 34 + j.toNat * 2 ^ 32 + e.toNat

/-- The 32 bytes of a bundle. -/
def encodeBundle (b : Bundle) : List Byte :=
  let slot := fun k =>
    match b.moves[k]? with
    | some m => encodeMove m
    | none => if k = 5 then encodeSlot5 b.slot5 else 0
  bytesOfNat 2 (encodeHeader b) ++ bytesOfNat 5 (slot 0) ++ bytesOfNat 5 (slot 1) ++ bytesOfNat 5 (slot 2) ++
    bytesOfNat 5 (slot 3) ++ bytesOfNat 5 (slot 4) ++ bytesOfNat 5 (slot 5)

/-- The bundle of one move alone. -/
def loneBundle (g : BitVec 4) (ng : Bool) (dst : BitVec 13) (src : Src) : Bundle :=
  let s := match src with
    | .port c => MSrc.port c
    | .imm v => MSrc.imm v
    | .const _ => MSrc.const
  { sw := false, d := 0, lv := 0, im := 0, moves := [{ g := g, ng := ng, dst := dst, src := s }],
    slot5 := match src with
      | .const v => .const v
      | _ => .none }

/-- The bundle of a trigger of opcode `n` of unit `u` alone. -/
def trigBundle (u n : Nat) (t : Trig) : Option Bundle :=
  some (loneBundle t.g t.ng (BitVec.ofNat 13 (portCode u (64 + n))) t.src)

/-- The 64 bytes of a command entry. -/
def encodeCommand (opc : Nat) (c : Cmd) : List Byte :=
  let h := opc * 2 ^ 56 + (if c.fence then 2 ^ 50 else 0) + (if c.irq then 2 ^ 49 else 0) + c.ctx.toNat * 2 ^ 32 +
    c.tag.toNat
  bytesOfNat 8 h ++ bytesOfNat 8 c.w1.toNat ++ bytesOfNat 8 c.w2.toNat ++ bytesOfNat 8 c.w3.toNat ++
    bytesOfNat 8 c.w4.toNat ++ bytesOfNat 8 c.w5.toNat ++ bytesOfNat 8 c.w6.toNat ++ bytesOfNat 8 c.w7.toNat

/-- The bundle that encodes an instruction; none for a command or a step that has no encoding. -/
def toBundle : Instr → Option Bundle
  | .bundleIssue b => some b
  | .seqFlagsWrite t => some (loneBundle t.g t.ng (BitVec.ofNat 13 flagsCode) t.src)
  | .streamPortRead k g ng dst => some (loneBundle g ng dst (.port (BitVec.ofNat 13 (streamCode k.val))))
  | .barrierPhaseComplete => none
  | .delayExpiry => none
  | .yieldExpiry => none
  | .progressBoost => none
  | .laneResultFill => none
  | .divisionComplete => none
  | .sfnComplete => none
  | .teamRetire => none
  | .storeQueueLeave => none
  | .writeAcknowledge => none
  | .updateApply => none
  | .loadFill => none
  | .atomicPerform => none
  | .fenceComplete => none
  | .monitorRetest => none
  | .monitorPoll => none
  | .monitorSwapOut => none
  | .tstoreArbiterPass => none
  | .l1Eviction => none
  | .l2Eviction => none
  | .tableWalk => none
  | .translationFault => none
  | .faultQueueRetry => none
  | .pageRequestTimeout => none
  | .quarantineRelease => none
  | .eccError => none
  | .jobBegin => none
  | .copyCursorAdvance => none
  | .copyJobComplete => none
  | .barDecrement => none
  | .streamRowWrite => none
  | .chanMessageDelivery => none
  | .chanPoolRetry => none
  | .mxRowApply => none
  | .mxJobComplete => none
  | .drainUpdatePerform => none
  | .arrayWaitExpiry => none
  | .fmaPairIdle => none
  | .commitTurn => none
  | .commitPublish => none
  | .autoCommit => none
  | .heapWaitExpiry => none
  | .lichenReclaim => none
  | .homeOperationPerform => none
  | .teamPlacement => none
  | .aceBroadcastApply => none
  | .flitArrival => none
  | .flitInjection => none
  | .overflowMove => none
  | .creditReturn => none
  | .ageTick => none
  | .throttleUpdate => none
  | .goldenEpoch => none
  | .reassemblyTimeout => none
  | .linkFrameReceive => none
  | .systemTimeStep => none
  | .systemTimeSlew => none
  | .peerAccess => none
  | .hostWrite => none
  | .hostRead => none
  | .hostAtomic => none
  | .doorbellWrite => none
  | .commandComplete => none
  | .launchProgressUpdate => none
  | .exportTimeout => none
  | .permitBackoffExpiry => none
  | .serviceTimeout => none
  | .teamWatchdog => none
  | .waitGraphScan => none
  | .preemptionRequest => none
  | .haltEdge => none
  | .deviceReset => none
  | .firmwareBoot => none
  | .intAdd u t => trigBundle (0 + u.val) 0 t
  | .intSub u t => trigBundle (0 + u.val) 1 t
  | .intAdd64 u t => trigBundle (0 + u.val) 2 t
  | .intSub64 u t => trigBundle (0 + u.val) 3 t
  | .intAnd u t => trigBundle (0 + u.val) 4 t
  | .intOr u t => trigBundle (0 + u.val) 5 t
  | .intXor u t => trigBundle (0 + u.val) 6 t
  | .intAndn u t => trigBundle (0 + u.val) 7 t
  | .intShl u t => trigBundle (0 + u.val) 8 t
  | .intShr u t => trigBundle (0 + u.val) 9 t
  | .intSar u t => trigBundle (0 + u.val) 10 t
  | .intShl64 u t => trigBundle (0 + u.val) 11 t
  | .intShr64 u t => trigBundle (0 + u.val) 12 t
  | .intSar64 u t => trigBundle (0 + u.val) 13 t
  | .intMinS32 u t => trigBundle (0 + u.val) 14 t
  | .intMaxS32 u t => trigBundle (0 + u.val) 15 t
  | .intMinU32 u t => trigBundle (0 + u.val) 16 t
  | .intMaxU32 u t => trigBundle (0 + u.val) 17 t
  | .intMinS64 u t => trigBundle (0 + u.val) 18 t
  | .intMaxS64 u t => trigBundle (0 + u.val) 19 t
  | .intSel u t => trigBundle (0 + u.val) 20 t
  | .intAbs u t => trigBundle (0 + u.val) 21 t
  | .intClz u t => trigBundle (0 + u.val) 22 t
  | .intPopc u t => trigBundle (0 + u.val) 23 t
  | .intBrev u t => trigBundle (0 + u.val) 24 t
  | .intBfx u t => trigBundle (0 + u.val) 25 t
  | .intBfi u t => trigBundle (0 + u.val) 26 t
  | .intAddsatS32 u t => trigBundle (0 + u.val) 27 t
  | .intSubsatS32 u t => trigBundle (0 + u.val) 28 t
  | .intLea u t => trigBundle (0 + u.val) 29 t
  | .intPass u t => trigBundle (0 + u.val) 30 t
  | .mulLo t => trigBundle 2 0 t
  | .mulhiS32 t => trigBundle 2 1 t
  | .mulhiU32 t => trigBundle 2 2 t
  | .madLo t => trigBundle 2 3 t
  | .mulwS32 t => trigBundle 2 4 t
  | .mulwU32 t => trigBundle 2 5 t
  | .mul64Lo t => trigBundle 2 6 t
  | .dot4S8 t => trigBundle 2 7 t
  | .dot2S16 t => trigBundle 2 8 t
  | .divU32 t => trigBundle 2 9 t
  | .divS32 t => trigBundle 2 10 t
  | .remU32 t => trigBundle 2 11 t
  | .remS32 t => trigBundle 2 12 t
  | .fmaF32 u t => trigBundle (3 + u.val) 0 t
  | .addF32 u t => trigBundle (3 + u.val) 1 t
  | .mulF32 u t => trigBundle (3 + u.val) 2 t
  | .subF32 u t => trigBundle (3 + u.val) 3 t
  | .minF32 u t => trigBundle (3 + u.val) 4 t
  | .maxF32 u t => trigBundle (3 + u.val) 5 t
  | .fmaF16x2 u t => trigBundle (3 + u.val) 6 t
  | .addF16x2 u t => trigBundle (3 + u.val) 7 t
  | .mulF16x2 u t => trigBundle (3 + u.val) 8 t
  | .fmaBf16x2 u t => trigBundle (3 + u.val) 9 t
  | .fmaF64 u t => trigBundle (3 + u.val) 10 t
  | .addF64 u t => trigBundle (3 + u.val) 11 t
  | .mulF64 u t => trigBundle (3 + u.val) 12 t
  | .dot2F16F32 u t => trigBundle (3 + u.val) 13 t
  | .fmaSatF32 u t => trigBundle (3 + u.val) 14 t
  | .minF64 u t => trigBundle (3 + u.val) 15 t
  | .maxF64 u t => trigBundle (3 + u.val) 16 t
  | .cmpEq t => trigBundle 5 0 t
  | .cmpNe t => trigBundle 5 1 t
  | .cmpLtS32 t => trigBundle 5 2 t
  | .cmpLeS32 t => trigBundle 5 3 t
  | .cmpLtU32 t => trigBundle 5 4 t
  | .cmpLeU32 t => trigBundle 5 5 t
  | .cmpEq64 t => trigBundle 5 6 t
  | .cmpLtS64 t => trigBundle 5 7 t
  | .cmpLtU64 t => trigBundle 5 8 t
  | .cmpFeqF32 t => trigBundle 5 9 t
  | .cmpFltF32 t => trigBundle 5 10 t
  | .cmpFleF32 t => trigBundle 5 11 t
  | .cmpFunF32 t => trigBundle 5 12 t
  | .cmpFltF64 t => trigBundle 5 13 t
  | .cmpFeqF64 t => trigBundle 5 14 t
  | .cmpClassF32 t => trigBundle 5 15 t
  | .cmpTstz t => trigBundle 5 16 t
  | .cmpAny t => trigBundle 5 17 t
  | .cmpAll t => trigBundle 5 18 t
  | .cmpBallot t => trigBundle 5 19 t
  | .sfnRcp t => trigBundle 6 0 t
  | .sfnRsqrt t => trigBundle 6 1 t
  | .sfnSqrt t => trigBundle 6 2 t
  | .sfnExp2 t => trigBundle 6 3 t
  | .sfnLog2 t => trigBundle 6 4 t
  | .sfnSin t => trigBundle 6 5 t
  | .sfnCos t => trigBundle 6 6 t
  | .sfnTanh t => trigBundle 6 7 t
  | .sfnDivF32 t => trigBundle 6 8 t
  | .sfnRcpF64 t => trigBundle 6 9 t
  | .sfnSqrtF64 t => trigBundle 6 10 t
  | .cvtF32S32 t => trigBundle 7 0 t
  | .cvtF32U32 t => trigBundle 7 1 t
  | .cvtS32F32 t => trigBundle 7 2 t
  | .cvtU32F32 t => trigBundle 7 3 t
  | .cvtF16F32 t => trigBundle 7 4 t
  | .cvtF32F16 t => trigBundle 7 5 t
  | .cvtBf16F32 t => trigBundle 7 6 t
  | .cvtF32Bf16 t => trigBundle 7 7 t
  | .cvtF64F32 t => trigBundle 7 8 t
  | .cvtF32F64 t => trigBundle 7 9 t
  | .cvtF64S64 t => trigBundle 7 10 t
  | .cvtS64F64 t => trigBundle 7 11 t
  | .cvtZbpack8 t => trigBundle 7 12 t
  | .cvtZbunpack8 t => trigBundle 7 13 t
  | .cvtZbpack4 t => trigBundle 7 14 t
  | .cvtZbunpack4 t => trigBundle 7 15 t
  | .cvtRoundF32 t => trigBundle 7 16 t
  | .cvtXlaneIdx t => trigBundle 7 17 t
  | .cvtXlaneXor t => trigBundle 7 18 t
  | .cvtBcast t => trigBundle 7 19 t
  | .cvtScanAdd t => trigBundle 7 20 t
  | .cvtRedAddF32 t => trigBundle 7 21 t
  | .memLdU8 u t => trigBundle (8 + u.val) 0 t
  | .memLdS8 u t => trigBundle (8 + u.val) 1 t
  | .memLdU16 u t => trigBundle (8 + u.val) 2 t
  | .memLdS16 u t => trigBundle (8 + u.val) 3 t
  | .memLd32 u t => trigBundle (8 + u.val) 4 t
  | .memLd64 u t => trigBundle (8 + u.val) 5 t
  | .memSt8 u t => trigBundle (8 + u.val) 6 t
  | .memSt16 u t => trigBundle (8 + u.val) 7 t
  | .memSt32 u t => trigBundle (8 + u.val) 8 t
  | .memSt64 u t => trigBundle (8 + u.val) 9 t
  | .memLdTs u t => trigBundle (8 + u.val) 10 t
  | .memStTs u t => trigBundle (8 + u.val) 11 t
  | .memAtomAdd u t => trigBundle (8 + u.val) 12 t
  | .memAtomAdd64 u t => trigBundle (8 + u.val) 13 t
  | .memAtomMinS32 u t => trigBundle (8 + u.val) 14 t
  | .memAtomMaxS32 u t => trigBundle (8 + u.val) 15 t
  | .memAtomMinU64 u t => trigBundle (8 + u.val) 16 t
  | .memAtomAnd u t => trigBundle (8 + u.val) 17 t
  | .memAtomOr u t => trigBundle (8 + u.val) 18 t
  | .memAtomXor u t => trigBundle (8 + u.val) 19 t
  | .memAtomExch u t => trigBundle (8 + u.val) 20 t
  | .memAtomExch64 u t => trigBundle (8 + u.val) 21 t
  | .memAtomCas u t => trigBundle (8 + u.val) 22 t
  | .memAtomCas64 u t => trigBundle (8 + u.val) 23 t
  | .memAtomAddF32 u t => trigBundle (8 + u.val) 24 t
  | .memFence u t => trigBundle (8 + u.val) 25 t
  | .memWaitcmp u t => trigBundle (8 + u.val) 26 t
  | .memPrefetch u t => trigBundle (8 + u.val) 27 t
  | .memPin u t => trigBundle (8 + u.val) 28 t
  | .memUnpin u t => trigBundle (8 + u.val) 29 t
  | .memLdAcq u t => trigBundle (8 + u.val) 30 t
  | .memStRel u t => trigBundle (8 + u.val) 31 t
  | .memLdAcq64 u t => trigBundle (8 + u.val) 32 t
  | .memStRel64 u t => trigBundle (8 + u.val) 33 t
  | .memFlush u t => trigBundle (8 + u.val) 34 t
  | .memLdNc u t => trigBundle (8 + u.val) 35 t
  | .cpCopy t => trigBundle 11 0 t
  | .cpCopy2d t => trigBundle 11 1 t
  | .cpGather t => trigBundle 11 2 t
  | .cpScatter t => trigBundle 11 3 t
  | .cpFill t => trigBundle 11 4 t
  | .cpQuantZb8 t => trigBundle 11 5 t
  | .cpZrlPack t => trigBundle 11 6 t
  | .cpZrlUnpack t => trigBundle 11 7 t
  | .cpStreamOpen t => trigBundle 11 8 t
  | .cpStreamClose t => trigBundle 11 9 t
  | .cpBarInit t => trigBundle 11 10 t
  | .cpBarExpect t => trigBundle 11 11 t
  | .cpBarWait t => trigBundle 11 12 t
  | .cpChanSend t => trigBundle 11 13 t
  | .cpChanRecv t => trigBundle 11 14 t
  | .cpCancel t => trigBundle 11 15 t
  | .cpPoll t => trigBundle 11 16 t
  | .mxLdw t => trigBundle 10 0 t
  | .mxSwap t => trigBundle 10 1 t
  | .mxMma t => trigBundle 10 2 t
  | .mxMmaSwap t => trigBundle 10 3 t
  | .mxZero t => trigBundle 10 4 t
  | .mxDrain t => trigBundle 10 5 t
  | .mxDrainAdd t => trigBundle 10 6 t
  | .mxDrainMax t => trigBundle 10 7 t
  | .mxLdacc t => trigBundle 10 8 t
  | .mxScaleSet t => trigBundle 10 9 t
  | .mxWait t => trigBundle 10 10 t
  | .mxRdacc t => trigBundle 10 11 t
  | .mxWracc t => trigBundle 10 12 t
  | .mxMmaT t => trigBundle 10 13 t
  | .snapBegin t => trigBundle 12 0 t
  | .snapBeginRo t => trigBundle 12 1 t
  | .snapCommit t => trigBundle 12 2 t
  | .snapAbort t => trigBundle 12 3 t
  | .snapNow t => trigBundle 12 4 t
  | .snapHold t => trigBundle 12 5 t
  | .snapRelease t => trigBundle 12 6 t
  | .snapStatus t => trigBundle 12 7 t
  | .snapLdAt t => trigBundle 12 8 t
  | .tellCommit t => trigBundle 13 0 t
  | .tellCommitDraft t => trigBundle 13 0 t
  | .tellConfirm t => trigBundle 13 1 t
  | .tellNext t => trigBundle 13 2 t
  | .tellArm t => trigBundle 13 3 t
  | .tellDisarm t => trigBundle 13 4 t
  | .tellFork t => trigBundle 13 5 t
  | .tellReset t => trigBundle 13 6 t
  | .tellNotify t => trigBundle 13 7 t
  | .tellCount t => trigBundle 13 8 t
  | .tqPush t => trigBundle 14 0 t
  | .tqPop t => trigBundle 14 1 t
  | .tqSteal t => trigBundle 14 2 t
  | .tqStealAny t => trigBundle 14 3 t
  | .tqSize t => trigBundle 14 4 t
  | .tqInit t => trigBundle 14 5 t
  | .aceMin t => trigBundle 15 0 t
  | .aceMax t => trigBundle 15 1 t
  | .aceRd t => trigBundle 15 2 t
  | .aceSet t => trigBundle 15 3 t
  | .aceWaitlt t => trigBundle 15 4 t
  | .seqBr t => trigBundle 16 0 t
  | .seqBrr t => trigBundle 16 1 t
  | .seqCall t => trigBundle 16 2 t
  | .seqCallr t => trigBundle 16 3 t
  | .seqRet t => trigBundle 16 4 t
  | .seqLoop t => trigBundle 16 5 t
  | .seqBrk t => trigBundle 16 6 t
  | .seqCont t => trigBundle 16 7 t
  | .seqEnd t => trigBundle 16 8 t
  | .seqYield t => trigBundle 16 9 t
  | .seqBar t => trigBundle 16 10 t
  | .seqBarArrive t => trigBundle 16 11 t
  | .seqSetfmt t => trigBundle 16 12 t
  | .seqTrap t => trigBundle 16 13 t
  | .seqRspush t => trigBundle 16 14 t
  | .seqRspop t => trigBundle 16 15 t
  | .supCsrRd t => trigBundle 17 0 t
  | .supCsrWr t => trigBundle 17 1 t
  | .supTret t => trigBundle 17 2 t
  | .supMark t => trigBundle 17 3 t
  | .supCntRd t => trigBundle 17 4 t
  | .supHalt t => trigBundle 17 5 t
  | .supFaultRd t => trigBundle 17 6 t
  | .supIcinval t => trigBundle 17 7 t
  | .supSync t => trigBundle 17 8 t
  | .loadImage => none
  | .unloadImage => none
  | .launch => none
  | .kill => none
  | .ctxCreate => none
  | .ctxDestroy => none
  | .ctxConfig => none
  | .inval => none
  | .pageReply => none
  | .pageMove => none
  | .grant => none
  | .grantRevoke => none
  | .switchPreempt => none
  | .switchResume => none
  | .debugTake => none
  | .debugGive => none
  | .debugRevoke => none
  | .debugHalt => none
  | .debugResume => none
  | .debugRead => none
  | .debugWrite => none
  | .debugLog => none
  | .attest => none
  | .attestCertificate => none
  | .reinstall => none
  | .ctxExport => none
  | .ctxImport => none
  | .devConfigDevice => none
  | .devConfigPartition => none
  | .devConfigHostWindow => none
  | .devConfigPeerWindow => none
  | .verOpen => none
  | .queryDeviceMap => none
  | .queryConfig => none
  | .queryPartition => none
  | .queryEvsel => none
  | .pmcSet => none
  | .handlerEntryDelayExpiry => none
  | .saveEnd => none
  | .lossOfPower => none

/-- The code of a loader command; none for the rest. -/
def commandCode : Instr → Option Nat
  | .bundleIssue _ => none
  | .seqFlagsWrite _ => none
  | .streamPortRead _ _ _ _ => none
  | .barrierPhaseComplete => none
  | .delayExpiry => none
  | .yieldExpiry => none
  | .progressBoost => none
  | .laneResultFill => none
  | .divisionComplete => none
  | .sfnComplete => none
  | .teamRetire => none
  | .storeQueueLeave => none
  | .writeAcknowledge => none
  | .updateApply => none
  | .loadFill => none
  | .atomicPerform => none
  | .fenceComplete => none
  | .monitorRetest => none
  | .monitorPoll => none
  | .monitorSwapOut => none
  | .tstoreArbiterPass => none
  | .l1Eviction => none
  | .l2Eviction => none
  | .tableWalk => none
  | .translationFault => none
  | .faultQueueRetry => none
  | .pageRequestTimeout => none
  | .quarantineRelease => none
  | .eccError => none
  | .jobBegin => none
  | .copyCursorAdvance => none
  | .copyJobComplete => none
  | .barDecrement => none
  | .streamRowWrite => none
  | .chanMessageDelivery => none
  | .chanPoolRetry => none
  | .mxRowApply => none
  | .mxJobComplete => none
  | .drainUpdatePerform => none
  | .arrayWaitExpiry => none
  | .fmaPairIdle => none
  | .commitTurn => none
  | .commitPublish => none
  | .autoCommit => none
  | .heapWaitExpiry => none
  | .lichenReclaim => none
  | .homeOperationPerform => none
  | .teamPlacement => none
  | .aceBroadcastApply => none
  | .flitArrival => none
  | .flitInjection => none
  | .overflowMove => none
  | .creditReturn => none
  | .ageTick => none
  | .throttleUpdate => none
  | .goldenEpoch => none
  | .reassemblyTimeout => none
  | .linkFrameReceive => none
  | .systemTimeStep => none
  | .systemTimeSlew => none
  | .peerAccess => none
  | .hostWrite => none
  | .hostRead => none
  | .hostAtomic => none
  | .doorbellWrite => none
  | .commandComplete => none
  | .launchProgressUpdate => none
  | .exportTimeout => none
  | .permitBackoffExpiry => none
  | .serviceTimeout => none
  | .teamWatchdog => none
  | .waitGraphScan => none
  | .preemptionRequest => none
  | .haltEdge => none
  | .deviceReset => none
  | .firmwareBoot => none
  | .intAdd _ _ => none
  | .intSub _ _ => none
  | .intAdd64 _ _ => none
  | .intSub64 _ _ => none
  | .intAnd _ _ => none
  | .intOr _ _ => none
  | .intXor _ _ => none
  | .intAndn _ _ => none
  | .intShl _ _ => none
  | .intShr _ _ => none
  | .intSar _ _ => none
  | .intShl64 _ _ => none
  | .intShr64 _ _ => none
  | .intSar64 _ _ => none
  | .intMinS32 _ _ => none
  | .intMaxS32 _ _ => none
  | .intMinU32 _ _ => none
  | .intMaxU32 _ _ => none
  | .intMinS64 _ _ => none
  | .intMaxS64 _ _ => none
  | .intSel _ _ => none
  | .intAbs _ _ => none
  | .intClz _ _ => none
  | .intPopc _ _ => none
  | .intBrev _ _ => none
  | .intBfx _ _ => none
  | .intBfi _ _ => none
  | .intAddsatS32 _ _ => none
  | .intSubsatS32 _ _ => none
  | .intLea _ _ => none
  | .intPass _ _ => none
  | .mulLo _ => none
  | .mulhiS32 _ => none
  | .mulhiU32 _ => none
  | .madLo _ => none
  | .mulwS32 _ => none
  | .mulwU32 _ => none
  | .mul64Lo _ => none
  | .dot4S8 _ => none
  | .dot2S16 _ => none
  | .divU32 _ => none
  | .divS32 _ => none
  | .remU32 _ => none
  | .remS32 _ => none
  | .fmaF32 _ _ => none
  | .addF32 _ _ => none
  | .mulF32 _ _ => none
  | .subF32 _ _ => none
  | .minF32 _ _ => none
  | .maxF32 _ _ => none
  | .fmaF16x2 _ _ => none
  | .addF16x2 _ _ => none
  | .mulF16x2 _ _ => none
  | .fmaBf16x2 _ _ => none
  | .fmaF64 _ _ => none
  | .addF64 _ _ => none
  | .mulF64 _ _ => none
  | .dot2F16F32 _ _ => none
  | .fmaSatF32 _ _ => none
  | .minF64 _ _ => none
  | .maxF64 _ _ => none
  | .cmpEq _ => none
  | .cmpNe _ => none
  | .cmpLtS32 _ => none
  | .cmpLeS32 _ => none
  | .cmpLtU32 _ => none
  | .cmpLeU32 _ => none
  | .cmpEq64 _ => none
  | .cmpLtS64 _ => none
  | .cmpLtU64 _ => none
  | .cmpFeqF32 _ => none
  | .cmpFltF32 _ => none
  | .cmpFleF32 _ => none
  | .cmpFunF32 _ => none
  | .cmpFltF64 _ => none
  | .cmpFeqF64 _ => none
  | .cmpClassF32 _ => none
  | .cmpTstz _ => none
  | .cmpAny _ => none
  | .cmpAll _ => none
  | .cmpBallot _ => none
  | .sfnRcp _ => none
  | .sfnRsqrt _ => none
  | .sfnSqrt _ => none
  | .sfnExp2 _ => none
  | .sfnLog2 _ => none
  | .sfnSin _ => none
  | .sfnCos _ => none
  | .sfnTanh _ => none
  | .sfnDivF32 _ => none
  | .sfnRcpF64 _ => none
  | .sfnSqrtF64 _ => none
  | .cvtF32S32 _ => none
  | .cvtF32U32 _ => none
  | .cvtS32F32 _ => none
  | .cvtU32F32 _ => none
  | .cvtF16F32 _ => none
  | .cvtF32F16 _ => none
  | .cvtBf16F32 _ => none
  | .cvtF32Bf16 _ => none
  | .cvtF64F32 _ => none
  | .cvtF32F64 _ => none
  | .cvtF64S64 _ => none
  | .cvtS64F64 _ => none
  | .cvtZbpack8 _ => none
  | .cvtZbunpack8 _ => none
  | .cvtZbpack4 _ => none
  | .cvtZbunpack4 _ => none
  | .cvtRoundF32 _ => none
  | .cvtXlaneIdx _ => none
  | .cvtXlaneXor _ => none
  | .cvtBcast _ => none
  | .cvtScanAdd _ => none
  | .cvtRedAddF32 _ => none
  | .memLdU8 _ _ => none
  | .memLdS8 _ _ => none
  | .memLdU16 _ _ => none
  | .memLdS16 _ _ => none
  | .memLd32 _ _ => none
  | .memLd64 _ _ => none
  | .memSt8 _ _ => none
  | .memSt16 _ _ => none
  | .memSt32 _ _ => none
  | .memSt64 _ _ => none
  | .memLdTs _ _ => none
  | .memStTs _ _ => none
  | .memAtomAdd _ _ => none
  | .memAtomAdd64 _ _ => none
  | .memAtomMinS32 _ _ => none
  | .memAtomMaxS32 _ _ => none
  | .memAtomMinU64 _ _ => none
  | .memAtomAnd _ _ => none
  | .memAtomOr _ _ => none
  | .memAtomXor _ _ => none
  | .memAtomExch _ _ => none
  | .memAtomExch64 _ _ => none
  | .memAtomCas _ _ => none
  | .memAtomCas64 _ _ => none
  | .memAtomAddF32 _ _ => none
  | .memFence _ _ => none
  | .memWaitcmp _ _ => none
  | .memPrefetch _ _ => none
  | .memPin _ _ => none
  | .memUnpin _ _ => none
  | .memLdAcq _ _ => none
  | .memStRel _ _ => none
  | .memLdAcq64 _ _ => none
  | .memStRel64 _ _ => none
  | .memFlush _ _ => none
  | .memLdNc _ _ => none
  | .cpCopy _ => none
  | .cpCopy2d _ => none
  | .cpGather _ => none
  | .cpScatter _ => none
  | .cpFill _ => none
  | .cpQuantZb8 _ => none
  | .cpZrlPack _ => none
  | .cpZrlUnpack _ => none
  | .cpStreamOpen _ => none
  | .cpStreamClose _ => none
  | .cpBarInit _ => none
  | .cpBarExpect _ => none
  | .cpBarWait _ => none
  | .cpChanSend _ => none
  | .cpChanRecv _ => none
  | .cpCancel _ => none
  | .cpPoll _ => none
  | .mxLdw _ => none
  | .mxSwap _ => none
  | .mxMma _ => none
  | .mxMmaSwap _ => none
  | .mxZero _ => none
  | .mxDrain _ => none
  | .mxDrainAdd _ => none
  | .mxDrainMax _ => none
  | .mxLdacc _ => none
  | .mxScaleSet _ => none
  | .mxWait _ => none
  | .mxRdacc _ => none
  | .mxWracc _ => none
  | .mxMmaT _ => none
  | .snapBegin _ => none
  | .snapBeginRo _ => none
  | .snapCommit _ => none
  | .snapAbort _ => none
  | .snapNow _ => none
  | .snapHold _ => none
  | .snapRelease _ => none
  | .snapStatus _ => none
  | .snapLdAt _ => none
  | .tellCommit _ => none
  | .tellCommitDraft _ => none
  | .tellConfirm _ => none
  | .tellNext _ => none
  | .tellArm _ => none
  | .tellDisarm _ => none
  | .tellFork _ => none
  | .tellReset _ => none
  | .tellNotify _ => none
  | .tellCount _ => none
  | .tqPush _ => none
  | .tqPop _ => none
  | .tqSteal _ => none
  | .tqStealAny _ => none
  | .tqSize _ => none
  | .tqInit _ => none
  | .aceMin _ => none
  | .aceMax _ => none
  | .aceRd _ => none
  | .aceSet _ => none
  | .aceWaitlt _ => none
  | .seqBr _ => none
  | .seqBrr _ => none
  | .seqCall _ => none
  | .seqCallr _ => none
  | .seqRet _ => none
  | .seqLoop _ => none
  | .seqBrk _ => none
  | .seqCont _ => none
  | .seqEnd _ => none
  | .seqYield _ => none
  | .seqBar _ => none
  | .seqBarArrive _ => none
  | .seqSetfmt _ => none
  | .seqTrap _ => none
  | .seqRspush _ => none
  | .seqRspop _ => none
  | .supCsrRd _ => none
  | .supCsrWr _ => none
  | .supTret _ => none
  | .supMark _ => none
  | .supCntRd _ => none
  | .supHalt _ => none
  | .supFaultRd _ => none
  | .supIcinval _ => none
  | .supSync _ => none
  | .loadImage => some 0x01
  | .unloadImage => some 0x02
  | .launch => some 0x03
  | .kill => some 0x04
  | .ctxCreate => some 0x05
  | .ctxDestroy => some 0x06
  | .ctxConfig => some 0x07
  | .inval => some 0x08
  | .pageReply => some 0x09
  | .pageMove => some 0x0A
  | .grant => some 0x0B
  | .grantRevoke => some 0x0B
  | .switchPreempt => some 0x0C
  | .switchResume => some 0x0C
  | .debugTake => some 0x0D
  | .debugGive => some 0x0D
  | .debugRevoke => some 0x0D
  | .debugHalt => some 0x0D
  | .debugResume => some 0x0D
  | .debugRead => some 0x0D
  | .debugWrite => some 0x0D
  | .debugLog => some 0x0D
  | .attest => some 0x0E
  | .attestCertificate => some 0x0E
  | .reinstall => some 0x0F
  | .ctxExport => some 0x10
  | .ctxImport => some 0x11
  | .devConfigDevice => some 0x12
  | .devConfigPartition => some 0x12
  | .devConfigHostWindow => some 0x12
  | .devConfigPeerWindow => some 0x12
  | .verOpen => some 0x13
  | .queryDeviceMap => some 0x14
  | .queryConfig => some 0x14
  | .queryPartition => some 0x14
  | .queryEvsel => some 0x14
  | .pmcSet => some 0x15
  | .handlerEntryDelayExpiry => none
  | .saveEnd => none
  | .lossOfPower => none

/-- The bytes of an instruction, `c` holding the operands of a command; none for a step that has no encoding. -/
def encode (i : Instr) (c : Cmd) : Option (List Byte) :=
  match toBundle i with
  | some b => some (encodeBundle b)
  | none =>
    match commandCode i with
    | some opc => some (encodeCommand opc c)
    | none => none

/-- The bytes of an instruction whose bits, bit 0 the least significant bit of the first byte, are `w`: a bundle
where the table gives at most 256 bits, otherwise a command entry. -/
def tableBytes (nbits w : Nat) : List Byte := bytesOfNat (if nbits ≤ 256 then 32 else 64) (w % 2 ^ nbits)

/-- The instruction that the decoder reads from bits numbered as spec/opcode_table.json numbers them. -/
def decodeTableWord (nbits w : Nat) : Option Instr :=
  match decode (tableBytes nbits w) with
  | .ok i => some i
  | .error _ => none

end Sys2Proof
end

