-- ==== Sys2Proof/Machine/Map.lean ====
section
/-! DEFINITION. Sparse data by number: a list of key and value pairs with strictly rising keys. -/

namespace Sys2Proof.Machine

/-- Data by number. The invariant (`FMap.wf`) is that the keys rise strictly. -/
structure FMap (β : Type) where
  entries : List (Nat × β)
  deriving DecidableEq, Repr

/-- No entry at all. -/
def FMap.empty {β : Type} : FMap β := ⟨[]⟩

/-- The value listed at `k`, in a list of pairs. -/
def lookupKey {β : Type} (k : Nat) : List (Nat × β) → Option β
  | [] => none
  | (j, v) :: r => if j = k then some v else lookupKey k r

/-- Puts `v` at `k`, keeping the keys in order. -/
def putKey {β : Type} (k : Nat) (v : β) : List (Nat × β) → List (Nat × β)
  | [] => [(k, v)]
  | (j, w) :: r => if k < j then (k, v) :: (j, w) :: r else if j = k then (k, v) :: r else (j, w) :: putKey k v r

/-- Removes every entry at `k`. -/
def dropKey {β : Type} (k : Nat) : List (Nat × β) → List (Nat × β)
  | [] => []
  | (j, w) :: r => if j = k then dropKey k r else (j, w) :: dropKey k r

/-- Do the keys rise strictly? -/
def keysRise {β : Type} : List (Nat × β) → Bool
  | [] => true
  | [_] => true
  | (i, _) :: (j, w) :: r => decide (i < j) && keysRise ((j, w) :: r)

namespace FMap
variable {β : Type}

/-- The value at `k`, if any. -/
def find? (m : FMap β) (k : Nat) : Option β := lookupKey k m.entries

/-- The value at `k`, or `d`. -/
def getD (m : FMap β) (k : Nat) (d : β) : β := (m.find? k).getD d

/-- Is there a value at `k`? -/
def has (m : FMap β) (k : Nat) : Bool := (m.find? k).isSome

/-- Puts `v` at `k`. -/
def insert (m : FMap β) (k : Nat) (v : β) : FMap β := ⟨putKey k v m.entries⟩

/-- Removes the entry at `k`. -/
def erase (m : FMap β) (k : Nat) : FMap β := ⟨dropKey k m.entries⟩

/-- Changes the value at `k`, taking `d` where there is none. -/
def modifyD (m : FMap β) (k : Nat) (d : β) (f : β → β) : FMap β := m.insert k (f (m.getD k d))

/-- Changes the value at `k`, if there is one. -/
def modify (m : FMap β) (k : Nat) (f : β → β) : FMap β :=
  match m.find? k with
  | some v => m.insert k (f v)
  | none => m

/-- The keys, rising. -/
def keys (m : FMap β) : List Nat := m.entries.map Prod.fst

/-- The values, by rising key. -/
def vals (m : FMap β) : List β := m.entries.map Prod.snd

/-- Changes every value. -/
def mapVals (m : FMap β) (f : Nat → β → β) : FMap β := ⟨m.entries.map fun e => (e.1, f e.1 e.2)⟩

/-- Keeps the entries that `p` picks. -/
def filter (m : FMap β) (p : Nat → β → Bool) : FMap β := ⟨m.entries.filter fun e => p e.1 e.2⟩

/-- The canonical form: strictly rising keys. -/
def wf (m : FMap β) : Bool := keysRise m.entries

/-- A write into a map whose unlisted keys read as `d`: writing `d` removes the entry. -/
def setD [DecidableEq β] (m : FMap β) (k : Nat) (d v : β) : FMap β :=
  if v = d then m.erase k else m.insert k v

/-- The canonical form of a map whose unlisted keys read as `d`. -/
def wfD [DecidableEq β] (m : FMap β) (d : β) : Bool := m.wf && m.entries.all fun e => decide (e.2 ≠ d)

end FMap
end Sys2Proof.Machine
end

