-- ==== Sys2Proof/Machine/WarpState.lean ====
section
/-! DEFINITION. The state held per lane and per warp, as plain data. Each structure names the rule that gives its
items; INVENTORY.md lists them with their reset values. -/

namespace Sys2Proof.Machine

/-! ## Held per lane and per warp (spec/01_engines_together.md R29) -/

/-- A return-stack entry (spec/03_warp_sequencer.md R124). -/
structure RetEntry where
  addr : W32
  slot : BitVec 4
  deriving DecidableEq, Repr

/-- What a parked lane waits for (spec/03_warp_sequencer.md R146). -/
inductive Wait where
  /-- `seq.bar` at barrier `bar`, whose arrival counts, by the trigger's number. -/
  | barrier (bar id : Nat)
  /-- A repeated arrival (R138), made again when the phase advances: by `seq.bar` or `seq.bar.arrive`. -/
  | again (bar : Nat) (isBar : Bool) (id : Nat)
  /-- Loop-wait of a level. -/
  | loop (level : Nat)
  /-- `mem.waitcmp`, by the operation's number. -/
  | monitor (op : Nat)
  /-- `ace.waitlt`. -/
  | bound (op : Nat)
  /-- `cp.bar.wait`. -/
  | object (op : Nat)
  deriving DecidableEq, Repr

/-- A lane. `owes` is the loop level whose end bundle it has left while another wait holds it (R131). -/
structure Lane where
  pc : W32
  age : Nat
  live : Bool
  wait : Option Wait
  owes : Option Nat
  regs : FMap W32
  nfr : BitVec 16
  rstack : List RetEntry
  deriving DecidableEq, Repr

/-- An element of a result port: its value, its fill bit and its pending-trap tag, 0 for none
(spec/01_engines_together.md R29, R37). -/
structure Elem where
  val : W64
  filled : Bool
  tag : BitVec 8
  deriving DecidableEq, Repr

/-- The start value of a result element (R29). -/
def Elem.start : Elem := { val := 0, filled := true, tag := 0 }

/-- The ports of one unit of a warp, by lane; an unlisted lane holds the start value. `last` is the number of the
lane's most recent trigger (R35), and `must` the lanes whose next trigger counts as a read of .y2
(spec/05_memory_ports.md R202). -/
structure UnitPorts where
  a : FMap W64
  b : FMap W64
  c : FMap W64
  m : FMap W64
  y : FMap Elem
  y2 : FMap Elem
  last : FMap Nat
  must : W64
  deriving DecidableEq, Repr

/-- Ports at team start (R29). -/
def UnitPorts.start : UnitPorts :=
  { a := .empty, b := .empty, c := .empty, m := .empty, y := .empty, y2 := .empty, last := .empty, must := 0 }

/-- An open loop level (spec/03_warp_sequencer.md R129, R130). -/
structure LoopLevel where
  members : W64
  ix : W32
  trip : W32
  trip0 : W32
  stride : W32
  start : W32
  stop : W32
  exit : W32
  deriving DecidableEq, Repr

/-- The loop state of a warp, or of one half of a ganged warp: the open levels, level 0 first, and the slot-fill
counters by (level × 18 + unit) × 2 + kind, kind 0 FILLED and 1 EMPTY (R135, R153). -/
structure Half where
  levels : List LoopLevel
  counters : FMap W32
  deriving DecidableEq, Repr

/-- What one lane of an operation fills: .y, .y2, its exceptions, and whether they meet the enables of its NFR, so that
it completes with an FP tag in place of .y (spec/04_lane_units.md R164; notes/assumptions/26.md). -/
structure LaneRes where
  lane : Nat
  y : W64
  y2 : W64
  exc : BitVec 5
  trap : Bool
  deriving DecidableEq, Repr

/-- A lane-unit result in flight: fixed latency, division or sfn0 (spec/02_bundles_and_ports.md R95). -/
structure Fill where
  id : Nat
  unit : Nat
  opc : Nat
  due : Nat
  res : List LaneRes
  deriving DecidableEq, Repr

/-- A result that came while its warp stood halted: it is applied at the resume (spec/12_supervisor.md R463, R465). -/
structure HeldFill where
  unit : Nat
  id : Nat
  lane : Nat
  y : Elem
  y2 : Elem
  deriving DecidableEq, Repr

/-- A stream binding (spec/06_copy_engine.md R246 to R248). `failed` is the row an unrecoverable fault struck and
its trap code, `given` the elements that a handler has replaced (spec/12_supervisor.md R445). -/
structure Stream where
  job : Nat
  off : Nat
  rows : Nat
  esz : Nat
  count : Nat
  written : Nat
  failed : Option (Nat × BitVec 8)
  reads : FMap Nat
  given : FMap W64
  deriving DecidableEq, Repr

/-- How far an access of one lane, or an engine job, is with its translation (spec/05_memory_ports.md R200,
R228 to R233). -/
inductive Stage where
  /-- A table walk is to be made. -/
  | walk
  /-- The walk failed with a kind of R228; `s2` in stage 2; `va` the address. -/
  | failed (kind : Nat) (s2 : Bool) (va : Nat) (wr : Bool)
  /-- The fault queue or the request table was full; the translation is tried again at a clk. -/
  | retry (clk : Nat)
  /-- A page request is outstanding. -/
  | paged (req : Nat)
  /-- Translated: the access may be performed. -/
  | go
  /-- A monitor is armed, or a wait is under way, at the home. -/
  | armed
  deriving DecidableEq, Repr

/-- Where an access goes (spec/05_memory_ports.md R225): target 0 local, 1 host, 2 peer; `wr` whether writes are allowed,
`wr1` whether stage 1 allows them. -/
structure Place where
  tgt : Nat
  dev : Nat
  pa : Nat
  grain : Nat
  ver : Bool
  wr : Bool
  wr1 : Bool
  deriving DecidableEq, Repr

/-- One lane of a memory or object operation in flight: its operands and mode, its stage, where it goes, the epoch it
carries (R235), and whether its message has made its way (`trip`: 0 not sent, 1 under way, 2 done). `lost` says that the
response was lost: what the home does stands, and the lane fills with POISON (spec/11_fabric.md R417); `spoiled` that poisoned bytes
came beside its own, so that no copy is kept (R405). -/
structure Item where
  lane : Nat
  a : W64
  b : W64
  c : W64
  m : W64
  stage : Stage
  place : Option Place
  epoch : Nat
  trip : Nat
  filled : Bool
  extra : List Nat
  lost : Bool
  spoiled : Bool
  deriving DecidableEq, Repr

/-- An operation in flight of mem0, mem1, snap, tell, tq, ace, seq or sup. Numbers rise in program order. For a memory
operation `mode` is the number of the transaction that it belongs to, 0 for none (spec/08_snapshot_engine.md R300). -/
structure Op where
  id : Nat
  unit : Nat
  opc : Nat
  mode : W64
  pc : W32
  clk : Nat
  items : List Item
  info : List Nat
  deriving DecidableEq, Repr

/-- A byte range of a written line in a transaction's write set (spec/08_snapshot_engine.md R302). -/
structure TxnLine where
  va : Nat
  pa : Nat
  bytes : FMap Byte
  deriving DecidableEq, Repr

/-- An open transaction (spec/08_snapshot_engine.md R300 to R306), by the number of its begin. `doom` is the first cause,
as a status code. -/
structure Txn where
  id : Nat
  time : Nat
  held : Option Nat
  ro : Bool
  doom : Option Nat
  lines : FMap TxnLine
  deriving DecidableEq, Repr

/-- A trap record (spec/12_supervisor.md R444). -/
structure TrapRec where
  code : BitVec 8
  rung : Nat
  cls : Nat
  faultMask : BitVec 6
  laneMask : W64
  clk : Nat
  detail : FMap W64
  timeoutRung : Nat
  deriving DecidableEq, Repr

/-- An element that a marked slot of a trapping bundle read: of a result port, or of stream port `off` element `idx` (R445). -/
structure ElemRef where
  unit : Nat
  off : Nat
  lane : Nat
  idx : Nat
  deriving DecidableEq, Repr

/-- A handler that runs at the warp rung (0) or the team rung (1): its lanes, trap PCs, banked guards and ports with their poisoned
elements, record, the elements read, and the clk of service counted (spec/12_supervisor.md R435 to R437). -/
structure Handler where
  rung : Nat
  lanes : W64
  held : W64
  tpc : FMap W32
  guards : List W64
  ports : FMap UnitPorts
  poison : List (Nat × Nat)
  trap : TrapRec
  reads : List ElemRef
  served : Nat
  deriving DecidableEq, Repr

/-- The choice of R24, for the halves of R28: the address, its active lanes, the candidates whose ages it updates, and
the half that issues (2 for both). -/
structure Choice where
  pc : W32
  active : List Nat
  cand : List Nat
  half : Nat
  deriving DecidableEq, Repr

/-- A warp. `delayTo`, `yieldTo`, `replayTo`, `backoffTo` and `entryTo` are the first clk in which each hold no
longer keeps it from issuing; `marker` lists the unfilled results a switch marker waits for
(spec/02_bundles_and_ports.md R96, R99, R100; spec/03_warp_sequencer.md R143, R148; spec/12_supervisor.md R435,
R438). `excNow` are the exceptions that completed in clk `excClk` (spec/04_lane_units.md R165). `replayPc` is the bundle
that a violation replays, held to `replayTo` (spec/02_bundles_and_ports.md R99); `split` the clk of the second part of a split bundle, with
the choice of its first part (R103). `owesPermit` says that the warp came back in a
handler and has no permit yet (spec/12_supervisor.md R438). -/
structure Warp where
  role : Nat
  roleNum : Nat
  quad : Nat
  slot : Nat
  budget : Nat
  lanes : List Lane
  guards : List W64
  halves : List Half
  sticky : BitVec 5
  excNow : BitVec 5
  excClk : Nat
  sched : Bool
  schk : Bool
  w32 : Bool
  boost : Bool
  prio : Nat
  ports : FMap UnitPorts
  poison : List (Nat × Nat)
  streams : FMap Stream
  fills : List Fill
  ops : List Op
  sq : List Nat
  txn : Option Txn
  lastRead : Nat
  delayTo : Nat
  yieldTo : Nat
  replayTo : Nat
  replayPc : Option W32
  backoffTo : Nat
  entryTo : Nat
  marker : List (Nat × Nat)
  backoff : Nat
  readyWait : Nat
  lastHalf : Nat
  handlers : List Handler
  split : Option (Nat × Choice)
  halted : Option Nat
  held : List HeldFill
  owesPermit : Bool
  committed : BitVec 48
  deriving DecidableEq, Repr

end Sys2Proof.Machine
end

