-- ==== Sys2Proof/Machine/TeamState.lean ====
section
/-! DEFINITION. The state held per team and per core, as plain data. Each structure names the rule that gives its
items; INVENTORY.md lists them with their reset values. -/

namespace Sys2Proof.Machine

/-! ## Held per team -/

/-- A named barrier (spec/03_warp_sequencer.md R136). `arrived` lists warp × 64 + lane; `warps` the
warps whose arrival is completed, and `stores` their team-store stores that the phase waits for (R139). -/
structure Bar where
  phase : W32
  mask : BitVec 4
  arrived : List Nat
  warps : List Nat
  stores : List Nat
  deriving DecidableEq, Repr

/-- A store or atomic waiting for the team-store arbiter (spec/01_engines_together.md R61). -/
structure TsWrite where
  op : Nat
  warp : Nat
  writes : List (Nat × Byte)
  deriving DecidableEq, Repr

/-- A region of a footprint: team store or global, first byte, length (spec/01_engines_together.md R57). -/
structure Region where
  ts : Bool
  first : Nat
  len : Nat
  deriving DecidableEq, Repr

/-- A copy or matrix job (spec/06_copy_engine.md R239, R254; spec/07_matrix_engine.md R263). Numbers rise in submission
order; `trig` is the trigger's number, `lane` the submitting lane, `lanes` those whose ports it fills, `data` the lanes'
own operands. `cursor` counts the output units performed, `acc` the bytes of a unit that is under way, `written` the bytes
performed, `counted` those subtracted from the barrier object at `bar`, `total` those of the whole job, `final` that nothing
more is to be subtracted. `old` keeps source bytes that the job has written over, `held` the scales taken at the trigger or
coded bytes that are not written yet, `pos` and `pos2` positions and counts of its kind, `at_` the clk of a retry or wait, `fetch` the lines that the unit under way reads,
each with whether its data are there. -/
structure Job where
  id : Nat
  trig : Nat
  warp : Nat
  unit : Nat
  opc : Nat
  lane : Nat
  lanes : W64
  a : W64
  b : W64
  c : W64
  mode : W64
  data : FMap W64
  core : Nat
  regions : List Region
  wregions : List Region
  begun : Bool
  cursor : Nat
  acc : Nat
  written : Nat
  counted : Nat
  total : Nat
  bar : Nat
  final : Bool
  stage : Stage
  epoch : Nat
  status : Nat
  tag : BitVec 8
  ending : Bool
  cancel : Bool
  pos : Nat
  pos2 : Nat
  held : List (BitVec 8)
  old : FMap Byte
  rows : List (Nat × List W32)
  at_ : Nat
  fetch : FMap Bool
  deriving DecidableEq, Repr

/-- Where a team stands. -/
inductive TeamStatus where
  | resident
  | saving
  | saved
  deriving DecidableEq, Repr

/-- A weight plane or an element store of the matrix engine (spec/07_matrix_engine.md R257): element codes, format
and exponents. -/
structure Plane where
  fmt : Nat
  elems : FMap Nat
  hdrs : FMap Byte
  scale : List (BitVec 8)
  poison : Bool
  deriving DecidableEq, Repr

/-- A weight plane at device reset and after a team that used it ends (R257). -/
def Plane.start : Plane := { fmt := 0, elems := .empty, hdrs := .empty, scale := List.replicate 16 0, poison := false }

/-- The matrix engine's data: planes, active plane, tiles by tile × 16,384 + row × 128 + column, poisoned tile
elements, and tile status words (spec/07_matrix_engine.md R257). -/
structure MxState where
  p0 : Plane
  p1 : Plane
  active : Bool
  tiles : FMap W32
  poison : List Nat
  ts : FMap W64
  deriving DecidableEq, Repr

/-- The matrix engine at device reset (R257). -/
def MxState.start : MxState :=
  { p0 := .start, p1 := .start, active := false, tiles := .empty, poison := [], ts := .empty }

/-- A pinned line of a team: its pin count, and the virtual pages by which it was pinned with the places that they had (spec/05_memory_ports.md
R216, R234). -/
structure Pin where
  count : Nat
  pages : List (Nat × Place)
  deriving DecidableEq, Repr

/-- A team (spec/01_engines_together.md R16, R29). Times of a saved team's warps are as they stood at clk `savedAt`; `wake` says
that a monitor of a saved team was satisfied (spec/05_memory_ports.md R214); `swapped` that it was saved for its monitor waits, `dead` that
it was killed (spec/12_supervisor.md R459, R462). `mxFailed` lists the matrix jobs that did not end
with OK: trigger, selectors as a mask, status word; `mxWaited` the last wait of each selector (spec/07_matrix_engine.md R281).
`scalePrev` is the scale table before the writes of clk `scaleClk` (spec/02_bundles_and_ports.md R78). -/
structure Team where
  launch : Nat
  index : Nat
  ctx : Nat
  core : Nat
  status : TeamStatus
  warps : List Warp
  tsBase : Nat
  tsSize : Nat
  tstore : FMap Byte
  tsPoison : List Nat
  arb : List TsWrite
  bars : FMap Bar
  scale : FMap (BitVec 8)
  scalePrev : FMap (BitVec 8)
  scaleClk : Nat
  pins : FMap Pin
  mx : Option MxState
  owner : Bool
  jobs : List Job
  lastIssue : Nat
  lastCommit : Nat
  barWait : Nat
  monWait : Nat
  savedAt : Nat
  readyAt : Nat
  wake : Bool
  swapped : Bool
  dead : Bool
  startedAt : Nat
  mxFailed : List (Nat × Nat × Nat)
  mxWaited : FMap Nat
  deriving DecidableEq, Repr

/-! ## Held per core -/

/-- A sector of an L1: 32 bytes, its grain, and whether it is a non-coherent or a remote copy
(spec/05_memory_ports.md R215, R218). -/
structure L1Sector where
  bytes : List Byte
  grain : Nat
  nc : Bool
  remote : Bool
  deriving DecidableEq, Repr

/-- A cached translation: context, 4 KiB page of the virtual address, place of the page (R227). -/
structure TlbEntry where
  ctx : Nat
  page : Nat
  place : Place
  deriving DecidableEq, Repr

/-- The issue log of a quad (spec/12_supervisor.md R467): mode 0 off, 1 record, 2 replay; the run under way. -/
structure IssueLog where
  mode : Nat
  ring : Nat
  size : Nat
  pos : Nat
  kind : Nat
  slot : Nat
  run : Nat
  deriving DecidableEq, Repr

/-- A quad: when its divider and sfn0 can next accept, when each fma unit's f64 path is free, whether its FMA pair is
active and until when (spec/04_lane_units.md R160, R170, R179; spec/10_team_scheduler.md R377), and its issue log. -/
structure Quad where
  divFree : Nat
  sfnFree : Nat
  f64Free : List Nat
  pairActive : Bool
  pairUntil : Nat
  busy : Nat
  log : IssueLog
  deriving DecidableEq, Repr

/-- A local copy of an Ace register, with the sequence number last applied (spec/10_team_scheduler.md R392). -/
structure AceCopy where
  val : W64
  dir : Bool
  seqno : Nat
  deriving DecidableEq, Repr

/-- A line of code in a bundle buffer: where it stands in memory, and the contents that writes to it have replaced since it was
last invalidated (spec/02_bundles_and_ports.md R105, R106). -/
structure CodeLine where
  tgt : Nat
  dev : Nat
  pa : Nat
  olds : List (List Byte)
  deriving DecidableEq, Repr

/-- A core. `fused` says that its L1 array is one of the four of a fused cluster (spec/05_memory_ports.md R219). `arrayWait` is one more than the clk in which its array began to wait for a heavy unit, 0 for no wait; `arrayFirst` that
it goes before inactive FMA pairs; `mxQ` are the quarter-planes active until clk `mxBusy` (spec/10_team_scheduler.md R378);
`cpAt` and `mxAt` the first clk in which each engine takes another trigger. -/
structure Core where
  permits : Nat
  fused : Bool
  l1 : FMap L1Sector
  tlb : List TlbEntry
  buffer : FMap CodeLine
  quads : FMap Quad
  pmcs : List (BitVec 48)
  func : Nat
  aceCopies : FMap AceCopy
  mx : MxState
  arrayWait : Nat
  arrayFirst : Bool
  mxBusy : Nat
  mxQ : Nat
  cpAt : Nat
  mxAt : Nat
  save : List Nat
  saveQueue : List (List Nat × Nat)
  saveKill : List Nat
  slots : List (Nat × List Nat)
  deriving DecidableEq, Repr

/-- A quad at device reset: free, inactive, no log. -/
def Quad.start : Quad :=
  { divFree := 0, sfnFree := 0, f64Free := [0, 0], pairActive := false, pairUntil := 0, busy := 0,
    log := { mode := 0, ring := 0, size := 0, pos := 0, kind := 0, slot := 0, run := 0 } }

/-- A core at device reset (spec/01_engines_together.md R29) (DESIGN CHOICE, notes/assumptions/2.md). -/
def Core.start : Core :=
  { permits := 4, fused := false, l1 := .empty, tlb := [], buffer := .empty, quads := .empty, pmcs := List.replicate 8 0, func := 64,
    aceCopies := .empty, mx := .start, arrayWait := 0, arrayFirst := false, mxBusy := 0, mxQ := 0, cpAt := 0, mxAt := 0, save := [], saveQueue := [],
    saveKill := [], slots := [] }

end Sys2Proof.Machine
end

