-- ==== Sys2Proof/Machine/DeviceState.lean ====
section
/-! DEFINITION. The state of the device's memory paths, walker, loader and debugger, as plain data. Each structure
names the rule that gives its items; INVENTORY.md lists them with their reset values. -/

namespace Sys2Proof.Machine

/-! ## Memory (spec/05_memory_ports.md) -/

/-- A write that has left its store queue or engine and is not yet acknowledged: the outstanding-write table of its
core is made of these (R206, R221). `warp` is none for an engine job; the bytes lie in one line, `arrived` says that
they have reached their home, `seqno` is the line's number once performed, `epoch` is that of R235, `line` its line, `lost` that the write or its
acknowledgement was lost (spec/11_fabric.md R417), `ack` how far its acknowledgement is: 0 not sent, 1 on its way, 2 there; `bad` the sectors
that it poisons (spec/11_fabric.md R405). `also` are further cores on which it counts as tabled: those that a team which had
seen it came back on (R50, R458). -/
structure MemWrite where
  core : Nat
  warp : Option WRef
  op : Nat
  bytes : List (Nat × Byte)
  tgt : Nat
  dev : Nat
  arrived : Bool
  performed : Bool
  seqno : Nat
  epoch : Nat
  line : Nat
  lost : Bool
  ack : Nat
  bad : List Nat
  also : List Nat
  deriving DecidableEq, Repr

/-- An update on its way from a home slice to a sharer, with the line's sequence number (R221). -/
structure Update where
  core : Nat
  line : Nat
  seqno : Nat
  bytes : List (Nat × Byte)
  write : Nat
  arrived : Bool
  deriving DecidableEq, Repr

/-- A cached copy of a remote or host line in the L2 of a die, with its poisoned sectors (R220, R222). -/
structure RemoteLine where
  bytes : List Byte
  poison : List Nat
  deriving DecidableEq, Repr

/-- A frame in quarantine, with its stamp (R235). -/
structure QFrame where
  frame : Nat
  stamp : Nat
  deriving DecidableEq, Repr

/-! ## Launches, contexts, functions, images -/

/-- Where a launch stands: it waits for edges, runs, or has ended (spec/10_team_scheduler.md R362, R364). -/
inductive LaunchState where
  | waiting
  | running
  | ended (status : Nat)
  deriving DecidableEq, Repr

/-- A graph edge: producer, region (spec/10_team_scheduler.md R358). -/
structure Edge where
  pred : Nat
  base : Nat
  len : Nat
  done : Bool
  deriving DecidableEq, Repr

/-- A launch by its journal number (spec/10_team_scheduler.md R358 to R374). `entries` are the native role entries;
`killed` is the status with which a killed launch ends once its teams are gone. -/
structure Launch where
  ctx : Nat
  image : Nat
  prio : Nat
  grant : Nat
  acec : Bool
  matrix : Bool
  snap : Bool
  fuse : Bool
  data : W64
  arg : W64
  tsu : Nat
  order : Nat
  extents : List Nat
  roles : List (Nat × Nat)
  entries : List W32
  edges : List Edge
  state : LaunchState
  total : Nat
  next : Nat
  retired : List Nat
  lastCore : Option Nat
  snapTime : Option Nat
  clusters : List Nat
  killed : Option Nat
  deriving DecidableEq, Repr

/-- A loaded image by its handle (spec/13_loader.md R486 to R501): its slot, code base and length in device memory,
whether its pages may be executed, the virtual address under which
the context maps it, if its fetches are translated, vectors, flags, the bytes it came from, its Osmin entry table, and the handle that
replaces it. -/
structure Image where
  ctx : Nat
  slot : Nat
  base : Nat
  len : Nat
  exec : Bool
  va : Option Nat
  step : Nat
  schk : Bool
  w32 : Bool
  tvec0 : W32
  tvec1 : W32
  ir : Bool
  nf : Nat
  entries : List W32
  bytes : List Byte
  digest : List Byte
  replaced : Option Nat
  unloading : Bool
  deriving DecidableEq, Repr

/-- A trap that waits at the context rung or above (spec/12_supervisor.md R439); `since` is the clk from which its service time counts, none
once that has passed (R437). -/
structure CtxTrap where
  warp : WRef
  trap : TrapRec
  pc : FMap W32
  reads : List ElemRef
  values : List W64
  since : Option Nat
  deriving DecidableEq, Repr

/-- A channel as the device keeps it, by its object's address (spec/06_copy_engine.md R251): the messages written and not yet
received, in the ring or in an overflow block; positions whose receive has finished, all below `doneTo` and those of `done`;
positions that a cancelled receive abandoned. -/
structure Chan where
  sent : FMap (Option Nat)
  doneTo : Nat
  done : List Nat
  abandoned : List Nat
  deriving DecidableEq, Repr

/-- A context (spec/13_loader.md R480). `cfg` are the eight words of its configuration block as in force. -/
structure Context where
  func : Nat
  cfg : List W64
  slots : List (Option Nat)
  tell : List Nat
  deques : List Nat
  aces : List Nat
  stopped : Bool
  traps : List CtxTrap
  debugQueue : Option Nat
  fqPos : Nat
  fqRetries : BitVec 48
  nrPos : Nat
  nrDrops : BitVec 48
  trPos : Nat
  trDrops : BitVec 48
  chanFull : BitVec 48
  chans : FMap Chan
  exporting : Option Nat
  scanSince : Option Nat
  deriving DecidableEq, Repr

/-- A page request outstanding: context, virtual page, clk (spec/05_memory_ports.md R231). -/
structure PageReq where
  ctx : Nat
  page : Nat
  clk : Nat
  deriving DecidableEq, Repr

/-- A function: 0 to 63 virtual, 64 physical (spec/13_loader.md R474, spec/12_supervisor.md R447, R448). -/
structure Func where
  cores : List Nat
  defGrant : Nat
  s2root : Nat
  asid0 : Nat
  asidN : Nat
  evsel : List W64
  pmcs : FMap (List (BitVec 48))
  reqs : FMap PageReq
  nextReq : Nat
  windows : FMap (List W64)
  deriving DecidableEq, Repr

/-- A function at device reset. -/
def Func.start : Func :=
  { cores := [], defGrant := 8, s2root := 0, asid0 := 0, asidN := 0, evsel := List.replicate 8 0, pmcs := .empty,
    reqs := .empty, nextReq := 1, windows := .empty }

/-! ## The loader (spec/13_loader.md) -/

/-- A command queue: owner, ring base (in device or host memory), size, indices, interrupt pending (R469). -/
structure Queue where
  func : Nat
  host : Bool
  base : Nat
  size : Nat
  producer : Nat
  consumer : Nat
  irq : Bool
  deriving DecidableEq, Repr

/-- How far a command is (R481 to R484). -/
inductive CmdState where
  | accepted
  | running
  /-- The effects are performed. -/
  | done (status : Nat)
  | complete (status : Nat)
  | recorded (status : Nat)
  deriving DecidableEq, Repr

/-- A journal entry with its command (R481, R483). `entry` are the 64 bytes taken; `host` whether the queue's
function addresses host memory for its record. -/
structure CmdRun where
  queue : Nat
  func : Nat
  entry : List Byte
  state : CmdState
  cur0 : Nat
  cur1 : Nat
  clkIn : Nat
  clkOut : Nat
  info : List Nat
  deriving DecidableEq, Repr

/-- A halted group (spec/12_supervisor.md R463 to R465): its warps, edge, whether it stands halted, and the warp whose `sup.halt`
asked for it. `scope` is 0 a warp, 1 a team, 2 the teams of launch `launch`, 3 the context. -/
structure HaltGroup where
  ctx : Nat
  scope : Nat
  launch : Nat
  warps : List WRef
  edge : Nat
  halted : Bool
  issuer : Option WRef
  deriving DecidableEq, Repr

/-- The grade and repair data of the device (spec/02_bundles_and_ports.md R102, spec/13_loader.md R477): cores
that are not enabled, quads in which a pair of units shares one, by 4 × core + quad with three bits. -/
structure Grade where
  code : Nat
  mxp : Bool
  disabled : List Nat
  pairs : List (Nat × Nat)
  deriving DecidableEq, Repr

/-- What the last access of the host or of a peer was answered: nothing yet, done, its data, an Unsupported Request
completion, a PROTECTION tag, or that there was no room for its version (spec/11_fabric.md R423, R426, spec/13_loader.md R475,
spec/08_snapshot_engine.md R319). -/
inductive Answer where
  | none
  | done
  | data (l : List Byte)
  | poisoned
  | unsupported
  | protection
  | heapFull
  deriving DecidableEq, Repr

/-- An access of the host (`dev` none) or of a peer that is not answered yet (spec/11_fabric.md R423, R426 to R428): the marker of its Requester ID
and attribute, its kind and memory opcode, device physical address, bytes written, width read, operand and compare value; the epoch that a
peer's access carries from its arrival at the I/O die (spec/05_memory_ports.md R235); whether it has performed, and its answer once that
is on its way back. -/
structure OutAccess where
  dev : Option Nat
  mark : Nat
  kind : AccKind
  opc : Nat
  pa : Nat
  bytes : List (Nat × Byte)
  width : Nat
  operand : W64
  cmp : W64
  epoch : Option Nat
  performed : Bool
  answer : Answer
  deriving DecidableEq, Repr

/-- The loader and the device's configuration. `workStopped` says that the device rung's service timeout has passed
(spec/12_supervisor.md R437). -/
structure Loader where
  queues : FMap Queue
  journal : FMap CmdRun
  nextJ : Nat
  contexts : FMap Context
  funcs : FMap Func
  images : FMap Image
  nextHandle : Nat
  codeTop : Nat
  launches : FMap Launch
  peerWins : FMap (List W64)
  device : List W64
  stClk : Option Nat
  stBase : Nat
  grade : Grade
  keys : List (Option (List Byte))
  fwDigest : List Byte
  hostErrors : Nat
  debugReports : List (Nat × Nat × W32)
  events : List (Nat × Nat × Nat)
  halts : FMap HaltGroup
  booted : Bool
  workStopped : Bool
  outs : FMap OutAccess
  answer : Answer
  deriving DecidableEq, Repr

end Sys2Proof.Machine
end

