-- ==== Sys2Proof/Machine/EngineState.lean ====
section
/-! DEFINITION. The state of the snapshot engine, the Tell unit, the Talon deques, the Ace registers and the fabric,
as plain data. Each structure names the rule that gives its items; INVENTORY.md lists them with their reset
values. -/

namespace Sys2Proof.Machine

/-! ## Snapshot engine (spec/08_snapshot_engine.md) -/

/-- An older version of a line: its commit time, its bytes, its poisoned sectors (R290, R322). -/
structure Version where
  time : Nat
  bytes : FMap Byte
  poison : List Nat
  deriving DecidableEq, Repr

/-- The version chain of a line of a versioned page: the commit time of the newest version, whose bytes stand in
memory, and the older versions, newest first (R290). -/
structure Chain where
  time : Nat
  older : List Version
  deriving DecidableEq, Repr

/-- A commit on its way: who asked, its lines with the bytes written, and the transaction time it is checked against.
`job` and `op` name the asker: an operation of a warp, a store-queue entry's lane, an engine job, or the host or a
peer. `since` is when it began to wait for room, `epoch` that of its oldest access (R304, R312, R313, R319; spec/05_memory_ports.md
R235). -/
structure Commit where
  warp : Option WRef
  op : Nat
  lane : Nat
  job : Option (Nat × Nat)
  lines : FMap (FMap Byte)
  since : Option Nat
  epoch : Nat
  deriving DecidableEq, Repr

/-- A taken commit time whose versions are being installed (R295). -/
structure Taken where
  time : Nat
  commit : Commit
  deriving DecidableEq, Repr

/-- A held snapshot: its time, and the function and context that hold it (R309). -/
structure Held where
  time : Nat
  ctx : Nat
  deriving DecidableEq, Repr

/-- The snapshot engine of the device: the last time taken and the clk that follows it (R294), the published value. -/
structure SnapState where
  clock : Nat
  tookAt : Nat
  published : Nat
  chains : FMap Chain
  waiting : FMap Commit
  taken : List Taken
  held : FMap Held
  lwm : Nat
  deriving DecidableEq, Repr

/-! ## Tell unit (spec/09_tell_unit.md R327) -/

/-- State of a slot (R328). -/
inductive TellMode where
  | free
  | live
  | stopped
  | trapped
  deriving DecidableEq, Repr

/-- A counter of a slot (R335). -/
structure TellCounter where
  value : W32
  thr : W32
  act : BitVec 2
  note : Byte
  deriving DecidableEq, Repr

/-- A draft token with its provisional state: its token, whether it was forced, and the action word computed (R343). -/
structure Draft where
  token : BitVec 24
  forced : Bool
  final : Bool
  word : W64
  deriving DecidableEq, Repr

/-- A Tell slot. A watch entry is the 128-byte image of its descriptor as sixteen words. -/
structure TellSlot where
  mode : TellMode
  entries : FMap (List W64)
  counters : List TellCounter
  history : List (BitVec 24)
  step : W32
  queue : List (BitVec 24)
  drafts : List Draft
  parent : Option Nat
  forkTime : Nat
  hold : Option Nat
  last : Byte
  word : W64
  deriving DecidableEq, Repr

/-- A slot after CLEAR; device reset leaves it FREE (R325, R350). -/
def TellSlot.cleared : TellSlot :=
  { mode := .live, entries := .empty, counters := List.replicate 4 { value := 0, thr := 0, act := 0, note := 0 },
    history := [], step := 0, queue := [], drafts := [], parent := none, forkTime := 0, hold := none, last := 0xFF,
    word := 0 }

/-- A slot at device reset. -/
def TellSlot.start : TellSlot := { TellSlot.cleared with mode := .free }

/-! ## Talon deques and Ace registers (spec/10_team_scheduler.md R379 to R394) -/

/-- An initialised deque: its items from top to bottom, segment base (virtual and physical pages) and capacity. -/
structure Deque where
  items : List W64
  cap : Nat
  seg : Nat
  ctx : Nat
  pages : List Nat
  deriving DecidableEq, Repr

/-- An Ace register at its home: value, direction (false descending), sequence number (R388, R392). -/
structure AceReg where
  val : W64
  dir : Bool
  seqno : Nat
  deriving DecidableEq, Repr

/-- An Ace register as device reset or an acquisition leaves it (R389). -/
def AceReg.start : AceReg := { val := 0x7FFFFFFFFFFFFFFF, dir := false, seqno := 0 }

/-- A change on its way from an Ace home to a core's local copy (R392). -/
structure AceMsg where
  core : Nat
  reg : Nat
  val : W64
  dir : Bool
  seqno : Nat
  due : Nat
  deriving DecidableEq, Repr

/-! ## Fabric (spec/11_fabric.md) -/

/-- What a message is for. -/
inductive Purpose where
  /-- The request of one lane of an operation, to its home; its arrival is answered by a `reply`. -/
  | request (w : WRef) (op lane : Nat)
  | reply (w : WRef) (op lane : Nat)
  /-- A write on its way to its home. -/
  | write (id : Nat)
  /-- The acknowledgement of a write, to the core that made it. -/
  | ack (id : Nat)
  /-- An update on its way to a sharer. -/
  | update (id : Nat)
  /-- The acknowledgement of an update of a write, by its sharer. -/
  | updateAck (write : Nat)
  /-- A line that an engine job reads, by its number over all targets, to its home, and its data. -/
  | fetch (team job line : Nat)
  | data (team job line : Nat)
  /-- An access of the host or of a peer, to its home, and its answer. -/
  | access (id : Nat)
  | answer (id : Nat)
  /-- A doorbell that the host writes, to the loader's command front end: queue and producer index. -/
  | doorbell (queue producer : Nat)
  /-- Traffic of other devices that passes through. -/
  | transit
  deriving DecidableEq, Repr

/-- A message that is not yet reassembled: its route, the numbers of its flits that wait to be injected and of those
that have arrived, where its arrived flits stand (a slot, or the overflow list), and whether a flit was lost
(R401 to R404, R414, R415). `xd` marks the link leg of a message to or from another device (R502); `inbound` that its flits
to be sent stand outside since clk `outAt`, to come by link frames; for a message that leaves the device `outAt` is the clk in which its last
flit left. `bad` lists the 8-byte groups of its data that an error has poisoned (R405). -/
structure Message where
  src : Nat
  srcEp : Nat
  dst : Nat
  dstEp : Nat
  cls : Nat
  ctx : Nat
  msgid : Nat
  nflit : Nat
  purpose : Purpose
  xd : Bool
  sdev : Nat
  ddev : Nat
  toSend : List Nat
  arrived : List Nat
  overflow : List Nat
  inbound : Bool
  core : Option Nat
  firstAt : Option Nat
  lost : Bool
  bad : List Nat
  outAt : Nat
  deriving DecidableEq, Repr

/-- A flit in the network: its message, number, age, the router it arrives at next and the input it comes by (0 N,
1 E, 2 S, 3 W, 4 and up link sub-ports), and whether a router of this device injected it, which then counts it (R409). -/
structure Flit where
  msg : Nat
  seqno : Nat
  age : Nat
  router : Nat
  input : Nat
  own : Bool
  deriving DecidableEq, Repr

/-- A router: throttle level, deflections of the running window, its own flits in the network, the endpoint that
injected last, the endpoints' candidates (message and flit number), and the outputs and ejection ports taken in this clk
and whether it has injected (R409, R411). -/
structure Router where
  level : Nat
  defl : Nat
  own : Nat
  lastEp : Nat
  cand : FMap (Nat × Nat)
  taken : List Nat
  eject : List Nat
  injected : Bool
  deriving DecidableEq, Repr

/-- A router at device reset (R411). -/
def Router.start : Router := { level := 0, defl := 0, own := 0, lastEp := 7, cand := .empty, taken := [], eject := [], injected := false }

/-- A link port: whether it is down, consecutive failed replays (R422). -/
structure LinkPort where
  down : Bool
  fails : Nat
  deriving DecidableEq, Repr

/-- The fabric. `flits` are those that arrive in the next or the present clk; `credits` the messages whose flits were
ejected, by source router; `corrected` the errors corrected in flits (R405); `slewAt` the first clk in which system time may slew again (spec/13_loader.md R473). -/
structure Fabric where
  messages : FMap Message
  flits : List Flit
  moved : List Flit
  routers : FMap Router
  credits : List (Nat × Nat)
  ports : FMap LinkPort
  golden : Nat
  slewAt : Nat
  deflections : FMap (BitVec 48)
  lostCount : BitVec 48
  corrected : BitVec 48
  overflowCount : BitVec 48
  replayCount : BitVec 48
  deriving DecidableEq, Repr

/-- The engines of the device beyond its cores. -/
structure Engines where
  snap : SnapState
  tell : FMap TellSlot
  deques : FMap Deque
  aces : FMap AceReg
  aceOwner : FMap Nat
  aceMsgs : FMap AceMsg
  fab : Fabric
  deriving DecidableEq, Repr

/-- The engines at device reset (spec/01_engines_together.md R29). -/
def Engines.start : Engines :=
  { snap := { clock := 0, tookAt := 0, published := 0, chains := .empty, waiting := .empty, taken := [], held := .empty, lwm := 0 },
    tell := .empty, deques := .empty, aces := .empty, aceOwner := .empty, aceMsgs := .empty,
    fab :=
      { messages := .empty, flits := [], moved := [], routers := .empty, credits := [], ports := .empty, golden := 0, slewAt := 0,
        deflections := .empty, lostCount := 0, corrected := 0, overflowCount := 0, replayCount := 0 } }

end Sys2Proof.Machine
end

