-- ==== Sys2Proof/Machine/State.lean ====
section
/-! DEFINITION. The state of the ZLX-A9, the reasons a step can stop, and the state after device reset
(spec/01_engines_together.md R29). -/

namespace Sys2Proof.Machine

/-- A turn of the agenda of a clk: a quad picks and issues, a step of the device is made, or a command of the loader
acts (notes/assumptions/5.md). -/
inductive Turn where
  | issue (core quad : Nat)
  | event (i : Instr) (sub : Subject)
  | command (j : Nat)
  deriving DecidableEq, Repr

/-- What arrives from outside between two steps: a step made by the surroundings, a write of host or peer memory
by its owner, or a command queue that a driver sets up (notes/assumptions/13.md). -/
inductive Stimulus where
  | step (i : Instr) (sub : Subject)
  | hostWrite (addr : Nat) (byte : Byte)
  | peerWrite (dev addr : Nat) (byte : Byte)
  | queue (n : Nat) (q : Queue)
  deriving DecidableEq, Repr

/-- Bytes by address (`entries` is a list of cells, `Host.Cell`). An unlisted byte reads 0 (notes/assumptions/1.md). -/
abbrev Memory := FMap Byte

/-- The canonical form: addresses rise strictly, and no entry is equal to what an unlisted address reads as. -/
def Memory.wf (m : Memory) : Bool := keysRise m.entries && m.entries.all fun (e : Host.Cell) => decide (e.2 ≠ 0)

/-- The memory of the device, of the host and of peers as the device reaches them, with poison, writes and updates
under way, cached copies of remote lines by line × 4 + die, for a poisoned sector the bytes that each engine job has written of it
(R223), and the quarantine (spec/05_memory_ports.md R206, R220 to R223, R235). An
unlisted byte reads 0 (notes/assumptions/1.md). -/
structure Mem where
  bytes : Memory
  host : Memory
  peer : Memory
  poison : List Nat
  seqs : FMap Nat
  writes : FMap MemWrite
  updates : FMap Update
  remote : FMap RemoteLine
  mend : FMap (FMap W32)
  tlb : List (Nat × TlbEntry)
  epoch : Nat
  quarantine : List QFrame
  errors : List (BitVec 48)
  deriving DecidableEq, Repr

/-- Memory at device reset: nothing listed. -/
def Mem.start : Mem :=
  { bytes := .empty, host := .empty, peer := .empty, poison := [], seqs := .empty, writes := .empty,
    updates := .empty, remote := .empty, mend := .empty, tlb := [], epoch := 0, quarantine := [], errors := List.replicate 6 0 }

/-- The loader at device reset: torus extents 1, heap wait limit 2^12 clk (spec/13_loader.md R473, R474, R481; notes/assumptions/2.md, 3.md). -/
def Loader.start : Loader :=
  { queues := .empty, journal := .empty, nextJ := 1, contexts := .empty, funcs := .empty, images := .empty,
    nextHandle := 1, codeTop := Config.reservedBase, launches := .empty, peerWins := .empty,
    device := [0x204080000, 0, 0xC00000000, 0, 0, 0, 0, 0], stClk := none, stBase := 0,
    grade := { code := 0, mxp := true, disabled := [], pairs := [] }, keys := List.replicate 16 none, fwDigest := [],
    hostErrors := 0, debugReports := [], events := [], halts := .empty, booted := false, workStopped := false, outs := .empty, answer := .none }

/-- The state. `clk` is sr.clk (spec/02_bundles_and_ports.md R80). `issuing` is the warp that a bundle is issued for,
`subject` what a step acts on, `curCmd` the command that acts; `freeCtr` counts the free values used, `fairAt` is the clk in which every step at no
stated time comes to its turn (spec/01_engines_together.md R42; notes/assumptions/5.md), and `nextId`
names operations, jobs, writes and messages. Cores, teams and the rest are listed when they differ from their start. -/
structure State where
  clk : Nat
  inbox : List Stimulus
  agenda : List Turn
  issuing : Option WRef
  subject : Subject
  curCmd : Option Nat
  freeCtr : Nat
  fairAt : Nat
  nextId : Nat
  cores : FMap Core
  teams : FMap Team
  mem : Mem
  ldr : Loader
  eng : Engines
  deriving DecidableEq, Repr

/-- Why the machine stops. -/
inductive Fault where
  /-- Raised by no instruction: the device takes every trap of a program as a next state. Safe. -/
  | stopped
  deriving DecidableEq, Repr

/-- Why a step has no meaning here. -/
inductive Refusal where
  /-- An instruction without a meaning, by the mnemonic of the table; raised by the arms of Dispatch. Safe: the
  machine stops. -/
  | notModelled (mnemonic : String)
  deriving DecidableEq, Repr

/-- The machine right after device reset (spec/01_engines_together.md R29 and the chapters' Reset columns). -/
def State.reset : State :=
  { clk := 0, inbox := [], agenda := [], issuing := none, subject := .none, curCmd := none, freeCtr := 0, fairAt := 0, nextId := 1,
    cores := .empty, teams := .empty, mem := .start, ldr := .start, eng := .start }

end Sys2Proof.Machine
end

