-- ==== Sys2Proof/Machine/Access.lean ====
section
/-! DEFINITION. Reading and changing the parts of the state: teams, warps, lanes, ports, cores, memory bytes, free
values. Every register and every byte of memory is read and written through these. -/

namespace Sys2Proof.Machine

/-! ## Free values and numbers -/

/-- The next free choice between two allowed outcomes (DESIGN CHOICE, notes/assumptions/4.md). -/
def freeBool (s : State) : Bool × State := (Config.freeBool s.freeCtr, { s with freeCtr := s.freeCtr + 1 })

/-- The next free number below `n`, 0 where `n` leaves no choice. -/
def freeBelow (s : State) (n : Nat) : Nat × State :=
  if n ≤ 1 then (0, s) else (Config.freeNat s.freeCtr % n, { s with freeCtr := s.freeCtr + 1 })

/-- The next unspecified 64-bit value (spec/00_scope.md R11). -/
def freeWord (s : State) : W64 × State := (Config.freeWord s.freeCtr, { s with freeCtr := s.freeCtr + 1 })

/-- The next number for an operation, job, write or message. -/
def takeId (s : State) : Nat × State := (s.nextId, { s with nextId := s.nextId + 1 })

/-! ## Cores, teams, warps -/

/-- Core `c`. -/
def State.core (s : State) (c : Nat) : Core := s.cores.getD c Core.start

/-- Puts core `c`. -/
def State.setCore (s : State) (c : Nat) (k : Core) : State := { s with cores := s.cores.insert c k }

/-- Changes core `c`. -/
def State.modCore (s : State) (c : Nat) (f : Core → Core) : State := s.setCore c (f (s.core c))

/-- Quad `q` of a core. -/
def Core.quad (k : Core) (q : Nat) : Quad := k.quads.getD q Quad.start

/-- Changes quad `q` of core `c`. -/
def State.modQuad (s : State) (c q : Nat) (f : Quad → Quad) : State :=
  s.modCore c fun k => { k with quads := k.quads.insert q (f (k.quad q)) }

/-- Team `t`, if there is one. -/
def State.team? (s : State) (t : Nat) : Option Team := s.teams.find? t

/-- Puts team `t`. -/
def State.setTeam (s : State) (t : Nat) (x : Team) : State := { s with teams := s.teams.insert t x }

/-- Changes team `t`, if there is one. -/
def State.modTeam (s : State) (t : Nat) (f : Team → Team) : State :=
  match s.team? t with
  | some x => s.setTeam t (f x)
  | none => s

/-- The warp that `w` names, if there is one. -/
def State.warp? (s : State) (w : WRef) : Option Warp :=
  match s.team? w.team with
  | some t => t.warps[w.warp]?
  | none => none

/-- Changes the warp that `w` names. -/
def State.modWarp (s : State) (w : WRef) (f : Warp → Warp) : State :=
  s.modTeam w.team fun t => { t with warps := modifyAt f w.warp t.warps }

/-- Puts a warp. -/
def State.setWarp (s : State) (w : WRef) (x : Warp) : State := s.modWarp w fun _ => x

/-- The core that a team runs on, or ran on. -/
def State.coreOf (s : State) (t : Nat) : Nat :=
  match s.team? t with
  | some x => x.core
  | none => 0

/-- Is a team on its core: not saved? -/
def State.onCore (s : State) (t : Nat) : Bool :=
  match s.team? t with
  | some x => x.status != .saved
  | none => false

/-- The warps of a team, by reference. -/
def Team.refs (t : Team) (n : Nat) : List WRef := mapIdx (fun i _ => { team := n, warp := i }) t.warps

/-- The context that a team belongs to. -/
def State.ctxOf (s : State) (t : Nat) : Nat :=
  match s.team? t with
  | some x => x.ctx
  | none => 0

/-- Context `c`, if there is one. -/
def State.context? (s : State) (c : Nat) : Option Context := s.ldr.contexts.find? c

/-- Changes the loader's state. -/
def State.modLdr (s : State) (f : Loader → Loader) : State := { s with ldr := f s.ldr }

/-- Changes context `c`. -/
def State.modCtx (s : State) (c : Nat) (f : Context → Context) : State :=
  s.modLdr fun l => { l with contexts := l.contexts.modify c f }

/-- Word `k` of the configuration block of context `c` (spec/13_loader.md R480); 0 without a context. -/
def State.cfgWord (s : State) (c k : Nat) : W64 :=
  match s.context? c with
  | some x => x.cfg.getD k 0
  | none => 0

/-- Function `f` (64 the physical function). -/
def State.func (s : State) (f : Nat) : Func := s.ldr.funcs.getD f Func.start

/-- Changes function `f`. -/
def State.modFunc (s : State) (f : Nat) (g : Func → Func) : State :=
  s.modLdr fun l => { l with funcs := l.funcs.insert f (g (l.funcs.getD f Func.start)) }

/-- The function of context `c`; the physical function without one. -/
def State.funcOf (s : State) (c : Nat) : Nat :=
  match s.context? c with
  | some x => x.func
  | none => 64

/-- Changes memory. -/
def State.modMem (s : State) (f : Mem → Mem) : State := { s with mem := f s.mem }

/-- Changes the engines. -/
def State.modEng (s : State) (f : Engines → Engines) : State := { s with eng := f s.eng }

/-! ## Lanes and registers -/

/-- A lane that is not there: not live. -/
def Lane.none : Lane :=
  { pc := 0, age := 0, live := false, wait := Option.none, owes := Option.none, regs := .empty, nfr := 0, rstack := [] }

/-- Lane `l` of a warp. -/
def Warp.lane (w : Warp) (l : Nat) : Lane := w.lanes.getD l Lane.none

/-- Changes lane `l` of a warp. -/
def Warp.modLane (w : Warp) (l : Nat) (f : Lane → Lane) : Warp := { w with lanes := modifyAt f l w.lanes }

/-- Register `n` of a lane (spec/01_engines_together.md R19). -/
def Lane.reg (x : Lane) (n : Nat) : W32 := x.regs.getD n 0

/-- Writes register `n` of a lane. -/
def Lane.setReg (x : Lane) (n : Nat) (v : W32) : Lane := { x with regs := x.regs.setD n 0 v }

/-- Is the lane parked (spec/01_engines_together.md R23)? -/
def Lane.parked (x : Lane) : Bool := x.wait.isSome

/-- The live lanes of a warp. -/
def Warp.liveLanes (w : Warp) : List Nat := laneNums.filter fun l => (w.lane l).live

/-- Guard `g` of lane `l`; g15 is all true (spec/02_bundles_and_ports.md R79). -/
def Warp.guard (w : Warp) (g l : Nat) : Bool := if g = 15 then true else (w.guards.getD g 0).getLsbD l

/-- Sets guard `g` of lane `l`; g15 ignores the write (R84). -/
def Warp.setGuard (w : Warp) (g l : Nat) (v : Bool) : Warp :=
  let put := fun (m : W64) => if v then m ||| BitVec.ofNat 64 (2 ^ l) else m &&& ~~~BitVec.ofNat 64 (2 ^ l)
  { w with guards := modifyAt put g w.guards }

/-! ## Ports -/

/-- The ports of unit `u`. -/
def Warp.unit (w : Warp) (u : Nat) : UnitPorts := w.ports.getD u UnitPorts.start

/-- Changes the ports of unit `u`. -/
def Warp.modUnit (w : Warp) (u : Nat) (f : UnitPorts → UnitPorts) : Warp :=
  { w with ports := w.ports.insert u (f (w.unit u)) }

/-- Operand or mode port at offset `off` for lane `l`: .a, .b, .c, .m. -/
def UnitPorts.operand (p : UnitPorts) (off l : Nat) : W64 :=
  if off = 0 then p.a.getD l 0 else if off = 1 then p.b.getD l 0 else if off = 2 then p.c.getD l 0 else p.m.getD l 0

/-- Writes an operand or mode port. -/
def UnitPorts.setOperand (p : UnitPorts) (off l : Nat) (v : W64) : UnitPorts :=
  if off = 0 then { p with a := p.a.setD l 0 v }
  else if off = 1 then { p with b := p.b.setD l 0 v }
  else if off = 2 then { p with c := p.c.setD l 0 v }
  else { p with m := p.m.setD l 0 v }

/-- Result element at offset 4 (.y) or 5 (.y2) for lane `l`. -/
def UnitPorts.elem (p : UnitPorts) (off l : Nat) : Elem :=
  if off = 4 then p.y.getD l Elem.start else p.y2.getD l Elem.start

/-- Writes a result element. -/
def UnitPorts.setElem (p : UnitPorts) (off l : Nat) (e : Elem) : UnitPorts :=
  if off = 4 then { p with y := p.y.setD l Elem.start e } else { p with y2 := p.y2.setD l Elem.start e }

/-- The content of port `off` of unit `u` for lane `l` (R45 `port`). -/
def Warp.port (w : Warp) (u off l : Nat) : W64 :=
  if off < 4 then (w.unit u).operand off l else ((w.unit u).elem off l).val

/-- The result element of unit `u`. -/
def Warp.elem (w : Warp) (u off l : Nat) : Elem := (w.unit u).elem off l

/-- A filled element with a value. -/
def Elem.value (v : W64) : Elem := { val := v, filled := true, tag := 0 }

/-- A filled element with a pending-trap tag (R45 `defer`). -/
def Elem.tagged (code : BitVec 8) (v : W64) : Elem := { val := v, filled := true, tag := code }

/-- Fills .y and .y2 of lane `l` in these ports, if its most recent trigger is `id`
(spec/01_engines_together.md R35). -/
def UnitPorts.fillIf (p : UnitPorts) (id l : Nat) (y y2 : Elem) : UnitPorts :=
  if p.last.find? l = some id then (p.setElem 4 l y).setElem 5 l y2 else p

/-- The poisoned elements that stay when trigger `id` of unit `u` fills its two elements of lane `l` in these ports (notes/assumptions/39.md). -/
def poisonAfter (m : FMap UnitPorts) (u id l : Nat) (ps : List (Nat × Nat)) : List (Nat × Nat) :=
  if ps.isEmpty ∨ (m.getD u UnitPorts.start).last.find? l ≠ some id then ps
  else ps.filter fun e => e != (portCode u offY, l) && e != (portCode u offY2, l)

/-- Fills .y and .y2 of unit `u` for lane `l`, as the result of trigger `id`: in the ports, or in the bank that holds
that trigger (spec/12_supervisor.md R435). -/
def Warp.fillNow (w : Warp) (u id l : Nat) (y y2 : Elem) : Warp :=
  let upd := fun (m : FMap UnitPorts) => m.modify u fun p => p.fillIf id l y y2
  { w with
    ports := upd w.ports, poison := poisonAfter w.ports u id l w.poison,
    handlers := w.handlers.map fun h => { h with ports := upd h.ports, poison := poisonAfter h.ports u id l h.poison } }

/-- A result comes for a lane: a halted warp takes it at its resume (spec/12_supervisor.md R463). -/
def Warp.fill (w : Warp) (u id l : Nat) (y y2 : Elem) : Warp :=
  if w.halted.isSome then { w with held := w.held ++ [{ unit := u, id := id, lane := l, y := y, y2 := y2 }] }
  else w.fillNow u id l y y2

/-! ## Memory bytes -/

/-- The byte at a device physical address; an unlisted byte reads 0 (notes/assumptions/1.md) (DESIGN CHOICE, notes/assumptions/12.md). -/
def Mem.byte (m : Mem) (pa : Nat) : Byte := m.bytes.getD pa 0

/-- The `n` bytes from a device physical address. -/
def Mem.read (m : Mem) (pa n : Nat) : List Byte := (List.range n).map fun i => m.byte (pa + i)

/-- Writes listed bytes. -/
def Mem.writeList (m : Mem) (l : List (Nat × Byte)) : Mem :=
  { m with bytes := foldOver (fun (f : FMap Byte) (x : Nat × Byte) => f.setD x.1 0 x.2) m.bytes l }

/-- Pairs bytes with rising addresses. -/
def atAddr (a : Nat) (bs : List Byte) : List (Nat × Byte) := mapIdx (fun i b => (a + i, b)) bs

/-- The 8-byte word at a device physical address. -/
def Mem.word (m : Mem) (pa : Nat) : W64 := BitVec.ofNat 64 (natOfBytes (m.read pa 8))

/-- Key of a peer byte. -/
def peerKey (dev pa : Nat) : Nat := dev * 2 ^ 40 + pa

/-- The byte at a place: target 0 device memory, 1 host memory, 2 a peer (log 13). -/
def Mem.byteAt (m : Mem) (tgt dev pa : Nat) : Byte :=
  if tgt = 0 then m.byte pa else if tgt = 1 then m.host.getD pa 0 else m.peer.getD (peerKey dev pa) 0

/-- The `n` bytes from an address of a target. -/
def Mem.readAt (m : Mem) (tgt dev pa n : Nat) : List Byte := (List.range n).map fun i => m.byteAt tgt dev (pa + i)

/-- Writes listed bytes at a target. -/
def Mem.writeAt (m : Mem) (tgt dev : Nat) (l : List (Nat × Byte)) : Mem :=
  if tgt = 0 then m.writeList l
  else if tgt = 1 then { m with host := foldOver (fun (f : FMap Byte) (x : Nat × Byte) => f.setD x.1 0 x.2) m.host l }
  else
    { m with
      peer := foldOver (fun (f : FMap Byte) (x : Nat × Byte) => f.setD (peerKey dev x.1) 0 x.2) m.peer l }

/-- Does a byte range, by its address over all targets, touch a poisoned 32-byte sector (spec/05_memory_ports.md R222)? -/
def Mem.touchesPoison (m : Mem) (g n : Nat) : Bool :=
  m.poison.any fun sec => decide (sec * 32 < g + n) && decide (g < sec * 32 + 32)

/-- The bytes of a word, the lowest first. -/
def wordBytes (n : Nat) (v : W64) : List Byte := bytesOfNat n v.toNat

/-- The word that bytes form. -/
def wordOf (bs : List Byte) : W64 := BitVec.ofNat 64 (natOfBytes bs)

/-! ## The place of a core (spec/01_engines_together.md R47; spec/02_bundles_and_ports.md R80) -/

/-- Cluster of a core. -/
def clusterOf (core : Nat) : Nat := core / Config.coresPerCluster

/-- Die of a core. -/
def dieOf (core : Nat) : Nat := clusterOf core / Config.clustersPerDie

/-- Do cores `a` and `b` lie within scope code `sc` of each other, teams aside (R47)? -/
def within (sc a b : Nat) : Bool :=
  if sc = 0 then a == b else if sc = 1 then clusterOf a == clusterOf b else if sc = 2 then dieOf a == dieOf b else true

end Sys2Proof.Machine
end

