-- ==== Sys2Proof/Machine/Flags.lean ====
section
/-! DEFINITION. The sticky floating-point flags of a warp, the exceptions of operations, and the guards
(spec/02_bundles_and_ports.md R81, spec/04_lane_units.md R159, R164, R165). -/

namespace Sys2Proof.Machine

/-- Exception bits of R159, as a five-bit set: invalid, divide-by-zero, overflow, underflow, inexact. -/
def excInvalid : BitVec 5 := 0x10
def excDivZero : BitVec 5 := 0x08
def excOverflow : BitVec 5 := 0x04
def excUnderflow : BitVec 5 := 0x02
def excInexact : BitVec 5 := 0x01

/-- Trap enables NFR[14:10] (R161): TINV, TDZ, TOF, TUF, TNX from bit 14 down, in the order of the exception bits. -/
def trapEnables (nfr : BitVec 16) : BitVec 5 := nfr.extractLsb' 10 5

/-- Does an exception set meet the enables of an NFR (R164)? -/
def meetsEnables (nfr : BitVec 16) (e : BitVec 5) : Bool := (trapEnables nfr &&& e) != 0

/-- ORs exceptions that complete in clk `clk` into the sticky flags (R165). -/
def Warp.raise (w : Warp) (clk : Nat) (e : BitVec 5) : Warp :=
  if e = 0 then w
  else
    { w with sticky := w.sticky ||| e, excNow := (if w.excClk = clk then w.excNow else 0) ||| e, excClk := clk }

/-- What a read of seq.flags returns in clk `clk` (R165): the flags, with every exception that has completed. -/
def Warp.readFlags (w : Warp) : W64 := w.sticky.setWidth 64

/-- A write of seq.flags in clk `clk`: the value's bits [4:0], and the exceptions that complete in the same clk, which
are ORed in after the write (R81, R165). -/
def Warp.writeFlags (w : Warp) (clk : Nat) (v : W64) : Warp :=
  { w with sticky := v.setWidth 5 ||| (if w.excClk = clk then w.excNow else 0) }

/-- Trap code FP (spec/12_supervisor.md R431). -/
def codeFp : BitVec 8 := 0x20

/-- The .y element of a completing operation: its value, or an FP tag where the lane enables an exception that it
raised (R164). -/
def resultElem (r : LaneRes) : Elem := if r.trap then .tagged codeFp 0 else .value r.y

end Sys2Proof.Machine
end

