-- ==== Sys2Proof/Machine/Float.lean ====
section
/-! DEFINITION. Floating point: unpacking, exact sums, one rounding, NaN results and exceptions
(spec/04_lane_units.md R161 to R164). Values are computed exactly as integers times powers of two. -/

namespace Sys2Proof.Machine

/-- A binary format: exponent and fraction bits. -/
structure Fmt where
  eb : Nat
  mb : Nat
  deriving DecidableEq, Repr

def f16 : Fmt := { eb := 5, mb := 10 }
def bf16 : Fmt := { eb := 8, mb := 7 }
def f32 : Fmt := { eb := 8, mb := 23 }
def f64 : Fmt := { eb := 11, mb := 52 }

/-- Rounding mode: the low two bits of an NFR (R161). -/
inductive RMode where
  | rne
  | rtz
  | rup
  | rdn
  deriving DecidableEq, Repr

/-- How an operation rounds, flushes and forms NaNs (R161). -/
structure FEnv where
  rm : RMode
  fz32 : Bool
  fz16 : Bool
  dn : Bool
  deriving DecidableEq, Repr

/-- The environment of an NFR. -/
def envOf (nfr : BitVec 16) : FEnv :=
  { rm := if nfr.toNat % 4 = 0 then .rne else if nfr.toNat % 4 = 1 then .rtz else if nfr.toNat % 4 = 2 then .rup else .rdn,
    fz32 := nfr.getLsbD 2, fz16 := nfr.getLsbD 3, dn := nfr.getLsbD 4 }

/-- Round to nearest, nothing flushed. -/
def envNear : FEnv := { rm := .rne, fz32 := false, fz16 := false, dn := false }

/-- Does the environment flush subnormals of a format (R161, R162)? -/
def FEnv.fz (v : FEnv) (f : Fmt) : Bool :=
  if f.eb = 11 then false else if f.mb = 23 then v.fz32 else v.fz16

/-- A decoded value: a NaN with its fraction at the top of 52 bits, an infinity, or ±m × 2^e exactly. -/
inductive FVal where
  | nan (neg : Bool) (frac : Nat) (sig : Bool)
  | inf (neg : Bool)
  | fin (neg : Bool) (m : Nat) (e : Int)
  deriving DecidableEq, Repr

/-- The bias of a format. -/
def Fmt.bias (f : Fmt) : Int := 2 ^ (f.eb - 1) - 1

/-- The exponent of the lowest bit of a subnormal. -/
def Fmt.tiny (f : Fmt) : Int := 1 - f.bias - f.mb

/-- Decodes bits, flushing a subnormal operand to a zero of its sign where `fz` (R162). -/
def unpack (f : Fmt) (fz : Bool) (x : Nat) : FVal :=
  let neg := x / 2 ^ (f.eb + f.mb) % 2 == 1
  let ex := x / 2 ^ f.mb % 2 ^ f.eb
  let fr := x % 2 ^ f.mb
  if ex = 2 ^ f.eb - 1 then
    if fr = 0 then .inf neg else .nan neg (fr * 2 ^ (52 - f.mb)) (fr / 2 ^ (f.mb - 1) == 0)
  else if ex = 0 then .fin neg (if fz then 0 else fr) f.tiny
  else .fin neg (2 ^ f.mb + fr) ((ex : Int) - f.bias - f.mb)

/-- Bits from sign, exponent field and fraction. -/
def packBits (f : Fmt) (neg : Bool) (ex fr : Nat) : Nat :=
  (if neg then 2 ^ (f.eb + f.mb) else 0) + ex * 2 ^ f.mb + fr

/-- ±0. -/
def zeroBits (f : Fmt) (neg : Bool) : Nat := packBits f neg 0 0

/-- ±∞. -/
def infBits (f : Fmt) (neg : Bool) : Nat := packBits f neg (2 ^ f.eb - 1) 0

/-- The largest finite value of a sign. -/
def maxBits (f : Fmt) (neg : Bool) : Nat := packBits f neg (2 ^ f.eb - 2) (2 ^ f.mb - 1)

/-- The canonical NaN (R163). -/
def canonNan (f : Fmt) : Nat := packBits f false (2 ^ f.eb - 1) (2 ^ (f.mb - 1))

/-- A NaN operand as a result: quiet bit set, fraction cut or widened to the format (R163). -/
def quietBits (f : Fmt) (neg : Bool) (frac : Nat) : Nat :=
  let fr := frac / 2 ^ (52 - f.mb)
  packBits f neg (2 ^ f.eb - 1) (if fr / 2 ^ (f.mb - 1) = 0 then fr + 2 ^ (f.mb - 1) else fr)

/-- Is a value a NaN? -/
def FVal.isNan : FVal → Bool
  | .nan _ _ _ => true
  | _ => false

/-- Is a value a signalling NaN (R163)? -/
def FVal.isSnan : FVal → Bool
  | .nan _ _ s => s
  | _ => false

/-- Result bits and exceptions. -/
structure FRes where
  bits : Nat
  exc : BitVec 5
  deriving DecidableEq, Repr

/-- A NaN result of operands in order (R163). -/
def nanBits (f : Fmt) (v : FEnv) (ops : List FVal) : Nat :=
  if v.dn then canonNan f
  else match firstWhere FVal.isNan ops with
    | some (.nan neg frac _) => quietBits f neg frac
    | _ => canonNan f

/-- invalid where an operand is a signalling NaN (R163). -/
def snanExc (ops : List FVal) : BitVec 5 := if ops.any FVal.isSnan then excInvalid else 0

/-- A rounding decision: `q` the quotient, `r` of `d` the remainder, to an integer. -/
def roundUp (rm : RMode) (neg : Bool) (q r d : Nat) : Bool :=
  match rm with
  | .rne => decide (d < 2 * r) || (2 * r == d && q % 2 == 1)
  | .rtz => false
  | .rup => r != 0 && !neg
  | .rdn => r != 0 && neg

/-- `m` × 2^e rounded to a multiple of 2^q: the multiple and whether anything was lost. -/
def roundTo (rm : RMode) (neg : Bool) (m : Nat) (e q : Int) : Nat × Bool :=
  if q ≤ e then (m * 2 ^ (e - q).toNat, false)
  else
    let d := 2 ^ (q - e).toNat
    (m / d + (if roundUp rm neg (m / d) (m % d) d then 1 else 0), m % d != 0)

/-- An overflow's result: infinity or the largest finite value, as the mode directs (R164). -/
def overBits (f : Fmt) (rm : RMode) (neg : Bool) : Nat :=
  match rm with
  | .rne => infBits f neg
  | .rtz => maxBits f neg
  | .rup => if neg then maxBits f neg else infBits f neg
  | .rdn => if neg then infBits f neg else maxBits f neg

/-- One rounding of ±m × 2^e, m not 0: overflow, tininess after rounding, underflow, flushing (R162, R164). -/
def roundNonzero (f : Fmt) (v : FEnv) (neg : Bool) (m : Nat) (e : Int) : FRes :=
  let top := e + sigBits m - 1
  let q := max (top - f.mb) f.tiny
  let r := roundTo v.rm neg m e q
  let n := if 2 ^ (f.mb + 1) ≤ r.1 then r.1 / 2 else r.1
  let ex := if 2 ^ f.mb ≤ n then (q - f.tiny + (if 2 ^ (f.mb + 1) ≤ r.1 then 2 else 1)).toNat else 0
  let u := roundTo v.rm neg m e (top - f.mb)
  let isTiny := decide (top < f.tiny + f.mb) && !(top == f.tiny + f.mb - 1 && u.1 == 2 ^ (f.mb + 1))
  if 2 ^ f.eb - 1 ≤ ex then { bits := overBits f v.rm neg, exc := excOverflow ||| excInexact }
  else if v.fz f ∧ ex = 0 ∧ n ≠ 0 then { bits := zeroBits f neg, exc := excUnderflow ||| excInexact }
  else
    { bits := packBits f neg ex (n % 2 ^ f.mb),
      exc := (if r.2 then excInexact else 0) ||| (if r.2 && isTiny then excUnderflow else 0) }

/-- One rounding of ±m × 2^e; a zero keeps its sign. -/
def roundFin (f : Fmt) (v : FEnv) (neg : Bool) (m : Nat) (e : Int) : FRes :=
  if m = 0 then { bits := zeroBits f neg, exc := 0 } else roundNonzero f v neg m e

/-- A term of a sum: a product of an infinity and a zero, an infinity, or ±m × 2^e. -/
inductive Term where
  | bad
  | inf (neg : Bool)
  | fin (neg : Bool) (m : Nat) (e : Int)
  deriving DecidableEq, Repr

/-- A value as a term; NaNs are dealt with before. -/
def termOf : FVal → Term
  | .nan _ _ _ => .bad
  | .inf n => .inf n
  | .fin n m e => .fin n m e

/-- The product of two values; of NaNs nothing is asked. -/
def prodOf (a b : FVal) : Term :=
  match a, b with
  | .inf x, .inf y => .inf (x != y)
  | .inf x, .fin y m _ => if m = 0 then .bad else .inf (x != y)
  | .fin x m _, .inf y => if m = 0 then .bad else .inf (x != y)
  | .fin x m e, .fin y n d => .fin (x != y) (m * n) (e + d)
  | _, _ => .fin false 0 0

/-- The sign of a term. -/
def Term.neg : Term → Bool
  | .bad => false
  | .inf n => n
  | .fin n _ _ => n

/-- The exponent of a term, where it is finite. -/
def Term.exp? : Term → Option Int
  | .fin _ _ e => some e
  | _ => none

/-- The least of a list of integers, or 0. -/
def minInt : List Int → Int
  | [] => 0
  | [x] => x
  | x :: r => min x (minInt r)

/-- The sum of finite terms in units of 2^e. -/
def sumUnits (e : Int) : List Term → Int
  | [] => 0
  | .fin n m d :: r =>
    let x : Int := (m : Int) * 2 ^ (d - e).toNat
    (if n then -x else x) + sumUnits e r
  | _ :: r => sumUnits e r

/-- The exact sum of terms, rounded once. An exact zero takes the terms' common sign, else + or, toward −∞, −. -/
def roundSum (f : Fmt) (v : FEnv) (ts : List Term) : FRes :=
  let e := minInt (ts.filterMap Term.exp?)
  let t := sumUnits e ts
  if t = 0 then
    let neg := if ts.all Term.neg then true else if ts.all fun x => !x.neg then false else v.rm == .rdn
    { bits := zeroBits f neg, exc := 0 }
  else roundNonzero f v (decide (t < 0)) t.natAbs e

/-- A sum of terms over operands, with NaNs and infinities (R163, R171). -/
def addTerms (f : Fmt) (v : FEnv) (ops : List FVal) (ts : List Term) : FRes :=
  let infs := ts.filter fun t => match t with
    | .inf _ => true
    | _ => false
  let bad := ts.any fun t => t == .bad
  let clash := infs.any Term.neg && infs.any fun t => !t.neg
  let hasNan := ops.any FVal.isNan
  if hasNan then { bits := nanBits f v ops, exc := snanExc ops ||| (if bad || clash then excInvalid else 0) }
  else if bad || clash then { bits := canonNan f, exc := excInvalid }
  else match infs with
    | t :: _ => { bits := infBits f t.neg, exc := 0 }
    | [] => roundSum f v ts

/-- The product term of operands that may be NaNs: only ∞ × 0 is bad. -/
def prodTerm (a b : FVal) : Term := if a.isNan || b.isNan then .fin false 0 0 else prodOf a b

/-- The term of an operand that may be a NaN. -/
def plainTerm (a : FVal) : Term := if a.isNan then .fin false 0 0 else termOf a

/-- The opposite of a value. -/
def FVal.negate : FVal → FVal
  | .nan n f s => .nan n f s
  | .inf n => .inf !n
  | .fin n m e => .fin (!n) m e

/-- a × b + c, rounded once. -/
def fmaBits (f : Fmt) (v : FEnv) (a b c : Nat) : FRes :=
  let x := unpack f (v.fz f) a
  let y := unpack f (v.fz f) b
  let z := unpack f (v.fz f) c
  addTerms f v [x, y, z] [prodTerm x y, plainTerm z]

/-- a + b. -/
def addBits (f : Fmt) (v : FEnv) (a b : Nat) : FRes :=
  let x := unpack f (v.fz f) a
  let y := unpack f (v.fz f) b
  addTerms f v [x, y] [plainTerm x, plainTerm y]

/-- a − b. -/
def subBits (f : Fmt) (v : FEnv) (a b : Nat) : FRes :=
  let x := unpack f (v.fz f) a
  let y := unpack f (v.fz f) b
  addTerms f v [x, y] [plainTerm x, plainTerm y.negate]

/-- a × b. -/
def mulBits (f : Fmt) (v : FEnv) (a b : Nat) : FRes :=
  let x := unpack f (v.fz f) a
  let y := unpack f (v.fz f) b
  addTerms f v [x, y] [prodTerm x y]

/-- Bits with a subnormal replaced by a zero of its sign (R162). -/
def flushBits (f : Fmt) (fz : Bool) (x : Nat) : Nat :=
  if fz && x / 2 ^ f.mb % 2 ^ f.eb == 0 then zeroBits f (x / 2 ^ (f.eb + f.mb) % 2 == 1) else x % 2 ^ (f.eb + f.mb + 1)

/-- A number that orders the bits of values that are no NaNs, −0 below +0. -/
def orderKey (f : Fmt) (x : Nat) : Int :=
  let mag := x % 2 ^ (f.eb + f.mb)
  if x / 2 ^ (f.eb + f.mb) % 2 = 1 then -(mag : Int) - 1 else mag

/-- The lesser or greater of two values (R172). -/
def minMaxBits (f : Fmt) (v : FEnv) (isMax : Bool) (a b : Nat) : FRes :=
  let x := flushBits f (v.fz f) a
  let y := flushBits f (v.fz f) b
  let xv := unpack f false x
  let yv := unpack f false y
  let e := snanExc [xv, yv]
  if xv.isNan && yv.isNan then { bits := nanBits f v [xv, yv], exc := e }
  else if xv.isNan then { bits := y, exc := e }
  else if yv.isNan then { bits := x, exc := e }
  else
    let less := decide (orderKey f x ≤ orderKey f y)
    { bits := if less != isMax then x else y, exc := e }

/-- Are two values that are no NaNs equal, −0 and +0 the same? -/
def eqBits (f : Fmt) (x y : Nat) : Bool :=
  (x % 2 ^ (f.eb + f.mb) == 0 && y % 2 ^ (f.eb + f.mb) == 0) || x == y

/-- Is x below y, of values that are no NaNs? -/
def ltBits (f : Fmt) (x y : Nat) : Bool := decide (orderKey f x < orderKey f y) && !eqBits f x y

/-- A value converted to a format: rounded, or a NaN carried over (R163, R180). -/
def convert (g : Fmt) (v : FEnv) (x : FVal) : FRes :=
  match x with
  | .nan _ _ _ => { bits := nanBits g v [x], exc := snanExc [x] }
  | .inf n => { bits := infBits g n, exc := 0 }
  | .fin n m e => roundFin g v n m e

/-- An integer converted to a format (R180). -/
def ofInt (g : Fmt) (v : FEnv) (i : Int) : FRes := roundFin g v (decide (i < 0)) i.natAbs 0

/-- A float truncated to an integer in a range, as its value modulo 2^64 (R181). -/
def toInt (x : FVal) (lo hi : Int) : FRes :=
  let out := fun (i : Int) (e : BitVec 5) => ({ bits := wrapNat i 64, exc := e } : FRes)
  match x with
  | .nan _ _ _ => out 0 excInvalid
  | .inf n => out (if n then lo else hi) excInvalid
  | .fin n m e =>
    let t : Nat := (roundTo .rtz n m e 0).1
    let i : Int := if n then -(t : Int) else t
    if hi < i then out hi excInvalid
    else if i < lo then out lo excInvalid
    else out i (if (roundTo .rtz n m e 0).2 then excInexact else 0)

/-- The integral value that the mode selects (R182). -/
def roundIntegral (f : Fmt) (v : FEnv) (x : FVal) : FRes :=
  match x with
  | .nan _ _ _ => { bits := nanBits f v [x], exc := snanExc [x] }
  | .inf n => { bits := infBits f n, exc := 0 }
  | .fin n m e => { bits := (roundFin f { v with fz32 := false } n (roundTo v.rm n m e 0).1 0).bits, exc := 0 }

/-- The integer square root of `n`, by bits from `k` down. -/
def isqrtFrom (n : Nat) : Nat → Nat → Nat
  | 0, r => r
  | k + 1, r => let c := r + 2 ^ k; isqrtFrom n k (if c * c ≤ n then c else r)

/-- The integer square root. -/
def isqrt (n : Nat) : Nat := isqrtFrom n (sigBits n / 2 + 1) 0

/-- A quotient of ±m × 2^e as a number with a last bit that stands for all that follows: enough bits for one rounding
of any format here. -/
def quotient (m n : Nat) (e : Int) : Nat × Int :=
  let k := 200 + sigBits n
  let q := m * 2 ^ k / n
  (2 * q + (if m * 2 ^ k % n = 0 then 0 else 1), e - k - 1)

/-- A square root likewise. -/
def rootOf (m : Nat) (e : Int) : Nat × Int :=
  let m1 := if e % 2 = 0 then m else 2 * m
  let e1 := if e % 2 = 0 then e else e - 1
  let n := m1 * 2 ^ 400
  let r := isqrt n
  (2 * r + (if r * r = n then 0 else 1), e1 / 2 - 201)

/-- a / b, correctly rounded (R177, R178). -/
def divBits (f : Fmt) (v : FEnv) (a b : FVal) : FRes :=
  match a, b with
  | .inf _, .inf _ => { bits := canonNan f, exc := excInvalid }
  | .inf x, .fin y _ _ => { bits := infBits f (x != y), exc := 0 }
  | .fin x _ _, .inf y => { bits := zeroBits f (x != y), exc := 0 }
  | .fin x m e, .fin y n d =>
    if n = 0 then
      if m = 0 then { bits := canonNan f, exc := excInvalid } else { bits := infBits f (x != y), exc := excDivZero }
    else if m = 0 then { bits := zeroBits f (x != y), exc := 0 }
    else let q := quotient m n (e - d); roundNonzero f v (x != y) q.1 q.2
  | _, _ => { bits := nanBits f v [a, b], exc := snanExc [a, b] }

/-- √a, correctly rounded (R177, R178). -/
def sqrtBits (f : Fmt) (v : FEnv) (a : FVal) : FRes :=
  match a with
  | .nan _ _ _ => { bits := nanBits f v [a], exc := snanExc [a] }
  | .inf n => if n then { bits := canonNan f, exc := excInvalid } else { bits := infBits f false, exc := 0 }
  | .fin n m e =>
    if m = 0 then { bits := zeroBits f n, exc := 0 }
    else if n then { bits := canonNan f, exc := excInvalid }
    else let r := rootOf m e; roundNonzero f v false r.1 r.2

end Sys2Proof.Machine
end

