-- ==== Sys2Proof/Machine/Kinds.lean ====
section
/-! DEFINITION. Kinds of memory operations, their widths and the fields of a memory mode
(spec/05_memory_ports.md R197 to R199). -/

namespace Sys2Proof.Machine

/-- Is a unit a memory unit? -/
def isMem (u : Nat) : Bool := u == 8 || u == 9

def isLoad (n : Nat) : Bool := decide (n ≤ 5) || n == 10 || n == 30 || n == 32 || n == 35
def isStore (n : Nat) : Bool := n == 6 || n == 7 || n == 8 || n == 9 || n == 11 || n == 31 || n == 33
def isAtomic (n : Nat) : Bool := decide (12 ≤ n) && decide (n ≤ 24)
def isAcqLoad (n : Nat) : Bool := n == 30 || n == 32
def isRelStore (n : Nat) : Bool := n == 31 || n == 33

/-- Width in bytes of an access; `c` is the control word of `waitcmp` (R198, R212). -/
def memWidth (n : Nat) (c : W64) : Nat :=
  if n = 0 ∨ n = 1 ∨ n = 6 then 1
  else if n = 2 ∨ n = 3 ∨ n = 7 then 2
  else if n = 5 ∨ n = 9 ∨ n = 13 ∨ n = 16 ∨ n = 21 ∨ n = 23 ∨ n = 32 ∨ n = 33 then 8
  else if n = 26 then (if bitOf c 2 then 8 else 4)
  else 4

/-- Fields of a memory mode (R197). -/
def modeSpace (m : W64) : Nat := bitsOf m 8 7
def modeHint (m : W64) : Nat := bitsOf m 6 5
def modeOrd (m : W64) : Nat := bitsOf m 4 3
def modeScope (m : W64) : Nat := bitsOf m 2 0

/-- Is an operation a team-store access (R199)? -/
def isTs (n : Nat) (m : W64) : Bool := n == 10 || n == 11 || (modeSpace m == 1 && (isLoad n || isStore n || isAtomic n))

end Sys2Proof.Machine
end

