-- ==== Sys2Proof/Machine/Vm.lean ====
section
/-! DEFINITION. Translation of virtual addresses (spec/05_memory_ports.md R224 to R228): the walk of one or two
stages, as a function of the tables in memory. -/

namespace Sys2Proof.Machine

/-- Why a walk fails: the kind code of R228 and whether in stage 2. -/
structure WalkErr where
  kind : Nat
  s2 : Bool
  deriving DecidableEq, Repr

/-- Kind codes of R228. -/
def kindNotPresent : Nat := 0
def kindPermission : Nat := 1
def kindRange : Nat := 2
def kindMalformed : Nat := 3

/-- A leaf that a walk ends at: its level and its entry. -/
structure Leaf where
  level : Nat
  entry : Nat
  deriving DecidableEq, Repr

/-- Is a table entry (V = 1, L = 0) malformed at a level (R225)? -/
def tableMalformed (e level : Nat) : Bool := level == 0 || field e 52 12 != 0 || field e 2 10 != 0

/-- The first bit of FRAME that a leaf of a level uses (R224). -/
def leafBits (level : Nat) : Nat := if level = 2 then 30 else if level = 1 then 21 else 12

/-- Is a leaf entry (V = 1, L = 1) malformed at a level (R225, R226)? `stage1` of a virtual function forbids TGT, DEV
and FRAME bits [51:40]. -/
def leafMalformed (e level : Nat) (stage1 : Bool) : Bool :=
  let tgt := field e 6 2
  decide (3 ≤ level) || field e 4 1 != 0 || decide (3 ≤ field e 8 3) || tgt == 3 ||
    (if tgt = 2 then field e 59 5 != 0 else field e 52 12 != 0) ||
    (field e 5 1 == 1 && level != 0) ||
    field e 12 (leafBits level - 12) != 0 ||
    (stage1 && (tgt != 0 || field e 40 12 != 0))

/-- Index of an address at a level (R224). -/
def levelIndex (va level : Nat) : Nat := field va (12 + 9 * level) 9

/-- The walk from a level down, over the entry reader of the stage (R224). `stage1`, `s2` say which stage it is. -/
def walkFrom (rd : Nat → Except WalkErr Nat) (stage1 s2 : Bool) (va : Nat) : List Nat → Nat → Except WalkErr Leaf
  | [], _ => .error { kind := kindMalformed, s2 := s2 }
  | level :: rest, base =>
    match rd (base + 8 * levelIndex va level) with
    | .error x => .error x
    | .ok e =>
      if field e 0 1 = 0 then .error { kind := kindNotPresent, s2 := s2 }
      else if field e 1 1 = 0 then
        if tableMalformed e level then .error { kind := kindMalformed, s2 := s2 }
        else walkFrom rd stage1 s2 va rest (field e 12 40 * 2 ^ 12)
      else if leafMalformed e level stage1 then .error { kind := kindMalformed, s2 := s2 }
      else .ok { level := level, entry := e }

/-- The levels of a walk, from the root. -/
def walkLevels : List Nat := [4, 3, 2, 1, 0]

/-- Do two entries of a 64 KiB group agree in every field but FRAME bits [15:12] (R225)? -/
def groupAgree (a b : Nat) : Bool := a % 2 ^ 12 == b % 2 ^ 12 && a / 2 ^ 16 == b / 2 ^ 16

/-- Physical address of an address under a leaf. -/
def leafAddr (l : Leaf) (va : Nat) : Nat :=
  let k := leafBits l.level
  let frame := if field l.entry 6 2 = 2 then field l.entry 12 28 * 2 ^ 12 else field l.entry 12 40 * 2 ^ 12
  frame / 2 ^ k * 2 ^ k + va % 2 ^ k

/-- Reads an 8-byte table entry of stage 2, or of a single stage. -/
def readEntry (m : Mem) (a : Nat) : Except WalkErr Nat := .ok (m.word a).toNat

/-- The entries of the 64 KiB group that the walk's last entry belongs to, agreeing with it and holding their index in
FRAME bits [15:12]? Asked by re-walking each page of the group (R225) (DESIGN CHOICE, notes/assumptions/22.md). -/
def groupOk (rd : Nat → Except WalkErr Nat) (stage1 s2 : Bool) (root va : Nat) (l : Leaf) : Bool :=
  (List.range 16).all fun i =>
    match walkFrom rd stage1 s2 (va / 2 ^ 16 * 2 ^ 16 + i * 2 ^ 12) walkLevels root with
    | .ok x => x.level == 0 && groupAgree x.entry l.entry && field x.entry 12 4 == i
    | .error _ => false

/-- One stage: the walk, and the check of a 64 KiB group, whose disagreement is a malformed entry or is overlooked as
`own` chooses (R225 leaves it open). -/
def oneStage (rd : Nat → Except WalkErr Nat) (own stage1 s2 : Bool) (root va : Nat) : Except WalkErr Leaf :=
  match walkFrom rd stage1 s2 va walkLevels root with
  | .error x => .error x
  | .ok l =>
    if field l.entry 5 1 = 1 ∧ ¬ groupOk rd stage1 s2 root va l ∧ ¬ own then .error { kind := kindMalformed, s2 := s2 }
    else .ok l

/-- The target of a leaf, and the peer that it names (R225). -/
def Leaf.tgt (l : Leaf) : Nat := field l.entry 6 2
def Leaf.dev (l : Leaf) : Nat := if l.tgt = 2 then field l.entry 40 19 else 0

/-- Stage 2 of an intermediate address: the leaf and the physical address. -/
def stage2 (m : Mem) (own : Bool) (root ipa : Nat) : Except WalkErr (Leaf × Nat) :=
  match oneStage (readEntry m) own false true root ipa with
  | .error x => .error x
  | .ok l => .ok (l, leafAddr l ipa)

/-- Reads a stage-1 entry through stage 2, in the memory that the leaf of stage 2 names (R226). -/
def readEntry2 (m : Mem) (own : Bool) (root a : Nat) : Except WalkErr Nat :=
  match stage2 m own root a with
  | .error x => .error x
  | .ok x => .ok (natOfBytes (m.readAt x.1.tgt x.1.dev x.2 8))

/-- The grain in bytes of a GRAIN code (R225). -/
def grainBytes (g : Nat) : Nat := if g = 0 then 32 else if g = 1 then 128 else 512

/-- The place of an address: stage-1 leaf, leaf that gives target and frame, write permission of both. -/
def placeOf (l1 l2 : Leaf) (pa : Nat) (w : Bool) : Place :=
  { tgt := l2.tgt, dev := l2.dev, pa := pa,
    grain := grainBytes (field l1.entry 8 3), ver := field l1.entry 11 1 == 1, wr := w,
    wr1 := field l1.entry 2 1 == 1 }

/-- Where a leaf allows an access: versioned pages lie in local HBM, and a write needs W (R228, R289). -/
def checkPlace (p : Place) (wr : Bool) : Except WalkErr Place :=
  if p.ver ∧ p.tgt ≠ 0 then .error { kind := kindPermission, s2 := false }
  else if wr ∧ ¬ p.wr then .error { kind := kindPermission, s2 := p.wr1 }
  else .ok p

/-- The page walk of an address (R224 to R226): the leaf of stage 1, the leaf that gives target and frame (the same for one
stage), the physical address. `own` settles the case of a 64 KiB group that disagrees. -/
def walkLeaves (s : State) (ctx va : Nat) (own : Bool) : Except WalkErr (Leaf × Leaf × Nat) :=
  let f := s.funcOf ctx
  let root := (s.cfgWord ctx 7).toNat / 2 ^ 12 * 2 ^ 12
  if 2 ^ 57 ≤ va then .error { kind := kindRange, s2 := false }
  else if f = 64 then
    match oneStage (readEntry s.mem) own false false root va with
    | .error x => .error x
    | .ok l => .ok (l, l, leafAddr l va)
  else
    let r2 := (s.func f).s2root
    match oneStage (readEntry2 s.mem own r2) own true false root va with
    | .error x => .error x
    | .ok l1 =>
      match stage2 s.mem own r2 (leafAddr l1 va) with
      | .error x => .error x
      | .ok x => .ok (l1, x.1, x.2)

/-- May a leaf be written, and may code be fetched from it (R225)? -/
def Leaf.w (l : Leaf) : Bool := field l.entry 2 1 == 1
def Leaf.x (l : Leaf) : Bool := field l.entry 3 1 == 1

/-- The place that the page walk gives an address, without the check of permissions. -/
def walkPage (s : State) (ctx va : Nat) (own : Bool) : Except WalkErr Place :=
  match walkLeaves s ctx va own with
  | .error x => .error x
  | .ok r => .ok (placeOf r.1 r.2.1 r.2.2 (r.1.w && r.2.1.w))

/-- Translation with permissions. A write that stage 2 alone forbids reports stage 2 (R230 S2). -/
def translate (s : State) (ctx va : Nat) (wr own : Bool) : Except WalkErr Place :=
  match walkPage s ctx va own with
  | .error x => .error x
  | .ok p => checkPlace p wr

/-- The place of a code address that the tables map: X must be 1 at either stage (R228). -/
def fetchPlace (s : State) (ctx va : Nat) (own : Bool) : Except WalkErr Place :=
  match walkLeaves s ctx va own with
  | .error x => .error x
  | .ok r =>
    if r.1.x && r.2.1.x then checkPlace (placeOf r.1 r.2.1 r.2.2 (r.1.w && r.2.1.w)) false
    else .error { kind := kindPermission, s2 := r.1.x }

/-- The trap code of a failed translation (R228): TRANSLATION or PROTECTION. -/
def kindCode (kind : Nat) : BitVec 8 := if kind = kindPermission then 0x11 else 0x10

/-- Is a failure recoverable: not present, in a context with page requests enabled (R228)? -/
def recoverable (s : State) (ctx kind : Nat) : Bool := kind == kindNotPresent && (s.cfgWord ctx 4).getLsbD 0

end Sys2Proof.Machine
end

