-- ==== Sys2Proof/Machine/Copies.lean ====
section
/-! DEFINITION. Copies of memory on the device: the L1 arrays, fused or not, remote lines in L2, bundle buffers; poison; and a
write that every copy takes at once (spec/05_memory_ports.md R206, R215, R218 to R223; spec/11_fabric.md R424, R425). -/

namespace Sys2Proof.Machine

/-- Steps put before the rest of the agenda. -/
def pushTurns (s : State) (l : List Turn) : State := { s with agenda := l ++ s.agenda }

/-- An address of any target as one number: device memory, host memory, a peer's memory. -/
def gaddr (tgt dev pa : Nat) : Nat := tgt * 2 ^ 60 + dev * 2 ^ 40 + pa

/-- The `n` bytes that the home of a global address holds. -/
def Mem.homeBytes (m : Mem) (g n : Nat) : List Byte :=
  if g / 2 ^ 60 = 2 then m.readAt 2 (g % 2 ^ 60 / 2 ^ 40) (g % 2 ^ 40) n else m.readAt (g / 2 ^ 60) 0 (g % 2 ^ 60) n

/-- The global number of a place. -/
def Place.gaddr (p : Place) : Nat := Machine.gaddr p.tgt p.dev p.pa

/-- The line of a place, as a global number. -/
def Place.line (p : Place) : Nat := p.gaddr / 512

/-- Bytes of a list by global address. -/
def globalBytes (tgt dev : Nat) (l : List (Nat × Byte)) : List (Nat × Byte) := l.map fun x => (gaddr tgt dev x.1, x.2)

/-! ## The L1 arrays (R218, R219) -/

/-- The core whose L1 array holds a line for core `core`: in a fused cluster address bits [10:9] select it (R219). -/
def State.array (s : State) (core line : Nat) : Nat :=
  if (s.core core).fused then clusterOf core * Config.coresPerCluster + line % Config.coresPerCluster else core

/-- The cores whose arrays serve a core. -/
def State.arrays (s : State) (core : Nat) : List Nat :=
  if (s.core core).fused then (List.range Config.coresPerCluster).map fun k => clusterOf core * Config.coresPerCluster + k else [core]

/-- Do two cores share one L1 and one outstanding-write table (R206, R219)? -/
def State.joined (s : State) (a b : Nat) : Bool := a == b || ((s.core a).fused && clusterOf a == clusterOf b)

/-- The copy of a sector that a core reads. -/
def State.l1Sector (s : State) (core sec : Nat) : Option L1Sector := (s.core (s.array core (sec / 16))).l1.find? sec

/-- The sectors of 32 bytes from `a`, `n` bytes. -/
def sectorsOf (a n : Nat) : List Nat := (List.range ((a % 32 + n + 31) / 32)).map fun i => a / 32 + i

/-- Overwrites the bytes of a block of `size` with the listed bytes that lie in it. -/
def patchBlock (size block : Nat) (bs : List Byte) (l : List (Nat × Byte)) : List Byte :=
  foldOver (fun (b : List Byte) (x : Nat × Byte) => if x.1 / size = block then modifyAt (fun _ => x.2) (x.1 % size) b else b) bs l

/-- Applies bytes, by global address, to the copies of an array (R206). -/
def patchL1 (k : Core) (l : List (Nat × Byte)) : Core :=
  let secs := (l.map fun x => x.1 / 32).eraseDups
  { k with l1 := foldOver (fun m sec => m.modify sec fun x => { x with bytes := patchBlock 32 sec x.bytes l }) k.l1 secs }

/-- Applies bytes to the copies of one core's array. -/
def State.patchArray (s : State) (c : Nat) (l : List (Nat × Byte)) : State :=
  match s.cores.find? c with
  | some k => if l.any fun x => k.l1.has (x.1 / 32) then s.setCore c (patchL1 k l) else s
  | none => s

/-- Applies bytes to the copies that a core reads. -/
def State.patchCore (s : State) (core : Nat) (l : List (Nat × Byte)) : State :=
  foldOver (fun s c => s.patchArray c (l.filter fun x => s.array core (x.1 / 512) == c)) s (s.arrays core)

/-- Discards copies of the arrays that serve a core. -/
def State.dropCopies (s : State) (core : Nat) (p : Nat → L1Sector → Bool) : State :=
  foldOver
    (fun (s : State) c => match s.cores.find? c with
      | some k => s.setCore c { k with l1 := k.l1.filter fun sec x => !p sec x }
      | none => s)
    s (s.arrays core)

/-! ## Remote lines in L2 (R220, R424) -/

/-- The key of a die's copy of a remote line. -/
def remoteKey (die line : Nat) : Nat := 4 * line + die

/-- The copy of a remote line in the L2 of a core's die. -/
def State.remoteLine (s : State) (core line : Nat) : Option RemoteLine := s.mem.remote.find? (remoteKey (dieOf core) line)

/-- Applies bytes to a copy; a sector written whole is poisoned no more (R223). -/
def RemoteLine.patch (r : RemoteLine) (line : Nat) (l : List (Nat × Byte)) : RemoteLine :=
  { bytes := patchBlock 512 line r.bytes l,
    poison := r.poison.filter fun k => decide ((l.filter fun x => x.1 / 32 == 16 * line + k).length < 32) }

/-- Applies bytes to the copies of remote lines in L2, of the dies that `p` picks. -/
def State.patchRemoteL2 (s : State) (p : Nat → Bool) (l : List (Nat × Byte)) : State :=
  s.modMem fun m => { m with remote := m.remote.mapVals fun key r => if p (key % 4) then r.patch (key / 4) l else r }

/-- Applies bytes to every copy of remote lines on the device: L2 and L1s (spec/11_fabric.md R425). -/
def patchRemote (s : State) (l : List (Nat × Byte)) : State :=
  { s with cores := s.cores.mapVals fun _ k => patchL1 k l }.patchRemoteL2 (fun _ => true) l

/-! ## Poison (R222, R223) -/

/-- The bytes of a sector that a list writes, as a mask. -/
def sectorMask (sec : Nat) (l : List (Nat × Byte)) : W32 :=
  foldOver (fun (m : W32) x => if x.1 / 32 = sec then m ||| BitVec.ofNat 32 (2 ^ (x.1 % 32)) else m) 0 l

/-- A write of listed bytes, by their addresses over all targets, clears the poison of the sectors that it covers whole, and that the writes of an
engine job have covered whole by now. -/
def clearPoison (m : Mem) (job : Option Nat) (l : List (Nat × Byte)) : Mem :=
  foldOver
    (fun (m : Mem) sec =>
      let now := sectorMask sec l
      let done := match job with
        | some j => now ||| (m.mend.getD sec .empty).getD j 0
        | none => now
      if done = 0xFFFFFFFF then { m with poison := m.poison.filter fun x => x != sec, mend := m.mend.erase sec }
      else match job with
        | some j => { m with mend := m.mend.insert sec ((m.mend.getD sec .empty).insert j done) }
        | none => m)
    m (m.poison.filter fun sec => l.any fun x => x.1 / 32 == sec)

/-- A sector, by its number over all targets, is poisoned. -/
def Mem.poisonSector (m : Mem) (sec : Nat) : Mem :=
  { m with poison := if m.poison.contains sec then m.poison else sec :: m.poison, mend := m.mend.erase sec }

/-! ## What else a write at a home touches -/

/-- The monitors armed at a home whose bytes a write touches: the turns in which they are tested again (R212). -/
def monitorTurns (s : State) (tgt dev : Nat) (l : List (Nat × Byte)) : List Turn :=
  s.teams.entries.flatMap fun e =>
    (e.2.refs e.1).flatMap fun w => match s.warp? w with
      | none => []
      | some x => x.ops.flatMap fun o =>
        if (o.unit = 8 ∨ o.unit = 9) ∧ o.opc = 26 then
          o.items.filterMap fun i => match i.stage, i.place with
            | .armed, some p =>
              if p.tgt = tgt ∧ p.dev = dev ∧ l.any fun y => decide (p.pa ≤ y.1) && decide (y.1 < p.pa + (if bitOf i.c 2 then 8 else 4)) then
                some (.event .monitorRetest (.op w o.id i.lane))
              else none
            | _, _ => none
        else []

/-- A write to code leaves its old bytes in the bundle buffers that hold the line: each content that a write replaces joins the
list of the line's old contents (spec/02_bundles_and_ports.md R106; notes/assumptions/10.md). Keys are
handle × 2^19 + line of 512 bytes. -/
def keepOldCode (s : State) (tgt dev : Nat) (l : List (Nat × Byte)) : State :=
  if s.cores.vals.all fun k => k.buffer.entries.isEmpty then s
  else
    let old := fun (_ : Nat) (e : CodeLine) =>
      if e.tgt = tgt ∧ e.dev = dev ∧ (l.any fun b => decide (e.pa ≤ b.1) && decide (b.1 < e.pa + 512)) then
        let bs := s.mem.readAt tgt dev e.pa 512
        if e.olds.contains bs then e else { e with olds := e.olds ++ [bs] }
      else e
    { s with cores := s.cores.mapVals fun _ k => { k with buffer := k.buffer.mapVals old } }

/-- A write to the segment of a deque makes its items unspecified values (spec/10_team_scheduler.md R380). -/
def spoilDeques (s : State) (l : List (Nat × Byte)) : State :=
  let pages := (l.map fun b => b.1 / 4096).eraseDups
  foldOver
    (fun s (e : Nat × Deque) =>
      if e.2.pages.any fun p => pages.contains p then
        let r := foldOver
          (fun (a : List W64 × State) _ => let f := freeWord a.2; (a.1 ++ [f.1], f.2)) ([], s) e.2.items
        r.2.modEng fun g => { g with deques := g.deques.insert e.1 { e.2 with items := r.1 } }
      else s)
    s s.eng.deques.entries

/-- A write to local memory that every copy takes at once: the line has its next number, and what was on its way to the copies is
older. A core keeps the bytes of its own writes that are still to be performed (R206, R221). -/
def writeEverywhere (s : State) (job : Option Nat) (l : List (Nat × Byte)) : State :=
  let own := fun (c a : Nat) => s.mem.writes.vals.any fun m =>
    m.tgt == 0 && !m.performed && ((m.core :: m.also).any fun k => s.array k m.line == c) && m.bytes.any fun b => b.1 == a
  let lines := (l.map fun x => x.1 / 512).eraseDups
  let s1 := (keepOldCode s 0 0 l).modMem fun m =>
    { clearPoison (m.writeList l) job l with
      seqs := foldOver (fun (q : FMap Nat) n => q.insert n (q.getD n 0 + 1)) m.seqs lines
      updates := m.updates.mapVals fun _ u => { u with bytes := u.bytes.filter fun b => !l.any fun x => x.1 == b.1 } }
  let s2 := { s1 with cores := s1.cores.mapVals fun c k => patchL1 k (l.filter fun x => !own c x.1) }
  pushTurns (spoilDeques s2 l) (monitorTurns s 0 0 l)

end Sys2Proof.Machine
end

