-- ==== Sys2Proof/Machine/Operands.lean ====
section
/-! DEFINITION. Sources and destinations of moves: what each code reads and writes
(spec/02_bundles_and_ports.md R79 to R84). -/

namespace Sys2Proof.Machine

/-- What a source reads. -/
inductive RSrc where
  | reg (n : Nat)
  | pair (n : Nat)
  | guard (k : Nat)
  /-- Special register by code (R80). -/
  | sreg (code : Nat)
  /-- Sequencer state by code (R81). -/
  | seqst (code : Nat)
  /-- Operand or mode port. -/
  | operand (u off : Nat)
  /-- Result port .y or .y2. -/
  | result (u off : Nat)
  | stream (k : Nat)
  | imm (v : BitVec 20)
  | const (v : BitVec 32)
  deriving DecidableEq, Repr

/-- What a destination that is no trigger writes. -/
inductive RDst where
  | reg (n : Nat)
  | pair (n : Nat)
  | guard (k : Nat)
  | flags
  | operand (u off : Nat)
  deriving DecidableEq, Repr

/-- Is a unit's block populated for a team: `mx` only where the team owns the matrix engine and the grade has one
(R30, R104). -/
def populated (s : State) (t : Team) (u : Nat) : Bool := u != unitMx || (t.owner && s.ldr.grade.mxp)

/-- The source of a port code, or none where a read of it is no port of this warp (R19, R30, R79, R82; class 3). -/
def resolveSrc (s : State) (t : Team) (budget code : Nat) : Option RSrc :=
  if code < 0x100 then (if code < budget then some (.reg code) else none)
  else if code ≤ 0x10F then some (.guard (code - 0x100))
  else if 0x110 ≤ code ∧ code ≤ 0x122 then some (.sreg code)
  else if 0x180 ≤ code ∧ code ≤ 0x18E then some (.seqst code)
  else if isPairCode code then
    (if code % 2 = 0 ∧ code - 0x1000 + 1 < budget then some (.pair (code - 0x1000)) else none)
  else
    match unitOf code with
    | none => none
    | some u =>
      let off := code % 128
      if ¬ populated s t u then none
      else if off ≤ 3 then some (.operand u off)
      else if off ≤ 5 then some (.result u off)
      else if u = unitCp ∧ off ≤ 13 then some (.stream (off - 6))
      else none

/-- The destination of a port code that is no trigger, or none (class 3). -/
def resolveDst (s : State) (t : Team) (budget code : Nat) : Option RDst :=
  if code < 0x100 then (if code < budget then some (.reg code) else none)
  else if code ≤ 0x10F then some (.guard (code - 0x100))
  else if code = flagsCode then some .flags
  else if isPairCode code then
    (if code % 2 = 0 ∧ code - 0x1000 + 1 < budget then some (.pair (code - 0x1000)) else none)
  else
    match unitOf code with
    | none => none
    | some u => if populated s t u ∧ code % 128 ≤ 3 then some (.operand u (code % 128)) else none

/-- The half of a ganged warp that a lane belongs to; 0 in a native warp (spec/03_warp_sequencer.md R152, R153). -/
def Warp.halfOf (w : Warp) (l : Nat) : Nat := if w.w32 then l / 32 else 0

/-- The loop state that a lane sees (R153). -/
def Warp.half (w : Warp) (h : Nat) : Half := w.halves.getD h { levels := [], counters := .empty }

/-- The lane number within its warp or legacy half (R80, R152). -/
def Warp.laneNo (w : Warp) (l : Nat) : Nat := if w.w32 then l % 32 else l

/-- A lane mask as a lane of it sees it: its half's 32 bits in a ganged warp (R152). -/
def Warp.viewMask (w : Warp) (l : Nat) (m : W64) : W64 :=
  if w.w32 then (m >>> (32 * (l / 32))) &&& 0xFFFFFFFF else m

/-- The warp control word WCTL (spec/03_warp_sequencer.md R116). -/
def Warp.wctl (w : Warp) : W64 :=
  BitVec.ofNat 64 (w.prio % 8 * 512 + (if w.boost then 256 else 0) + (if w.w32 then 4 else 0) +
    (if w.schk then 2 else 0) + (if w.sched then 1 else 0))

/-- The router that serves a core (spec/11_fabric.md R399). -/
def routerOfCore (core : Nat) : Nat :=
  let c := clusterOf core
  let d := c / 16
  let j := c % 16
  4 * (d % 2) + j % 4 + 8 * (4 * (d / 2) + j / 4)

/-- Router `n`. -/
def State.router (s : State) (n : Nat) : Router := s.eng.fab.routers.getD n Router.start

/-- Device id (spec/13_loader.md R473). -/
def State.deviceId (s : State) : Nat := bitsOf (s.ldr.device.getD 0 0) 18 0

/-- Special register by code for one lane (R80). `active` is the bundle's active mask, `pc` its address. -/
def readSreg (s : State) (t : Team) (wn : Nat) (w : Warp) (active : W64) (pc : W32) (code l : Nat) : W64 :=
  if code = 0x110 then BitVec.ofNat 64 (w.laneNo l)
  else if code = 0x111 then BitVec.ofNat 64 wn
  else if code = 0x112 then BitVec.ofNat 64 t.index
  else if code = 0x113 then BitVec.ofNat 64 w.role
  else if code = 0x114 then BitVec.ofNat 64 t.core
  else if code = 0x115 then BitVec.ofNat 64 (clusterOf t.core)
  else if code = 0x116 then BitVec.ofNat 64 (dieOf t.core)
  else if code = 0x117 then BitVec.ofNat 64 s.clk
  else if code = 0x118 then BitVec.ofNat 64 (s.router (routerOfCore t.core)).level
  else if code = 0x119 then (w.lane l).nfr.setWidth 64
  else if code = 0x11A then BitVec.ofNat 64 w.quad
  else if code = 0x11B then pc.setWidth 64
  else if code = 0x11C then w.viewMask l active
  else if code = 0x11D then w.viewMask l (maskOf w.liveLanes)
  else if code = 0x11E then w.wctl
  else if code = 0x11F then BitVec.ofNat 64 (w.halfOf l)
  else if code = 0x120 then (pc >>> 28).setWidth 64
  else if code = 0x121 then BitVec.ofNat 64 s.deviceId
  else BitVec.ofNat 64 s.ldr.grade.code

/-- Sequencer state by code for one lane (R81). -/
def readSeqst (w : Warp) (code l : Nat) : W64 :=
  let lv := (w.half (w.halfOf l)).levels
  if code ≤ 0x185 then
    match lv[code - 0x180]? with
    | some x => x.ix.setWidth 64
    | none => 0
  else if code = 0x186 then
    match (w.lane l).rstack with
    | e :: _ => e.addr.setWidth 64
    | [] => 0
  else if code = 0x187 then BitVec.ofNat 64 (w.lane l).rstack.length
  else if code ≤ 0x18D then
    match lv[code - 0x188]? with
    | some x => x.trip.setWidth 64
    | none => 0
  else w.readFlags

/-- The bytes of element `e` of a stream, from its ring in team store (spec/06_copy_engine.md R246). -/
def streamElem (t : Team) (st : Stream) (e : Nat) : W64 :=
  let a := st.off + (e / 64 % st.rows * 64 + e % 64) * st.esz
  wordOf ((List.range st.esz).map fun i => t.tstore.getD (a + i) 0)

/-- The element that lane `l` would read from stream `k` (spec/06_copy_engine.md R247). -/
def streamIndex (st : Stream) (l : Nat) : Nat := st.reads.getD l 0 * 64 + l

/-- The value of a source for one lane (R83, R85). -/
def readSrc (s : State) (t : Team) (wn : Nat) (w : Warp) (active : W64) (pc : W32) (src : RSrc) (l : Nat) : W64 :=
  match src with
  | .reg n => zext32 ((w.lane l).reg n)
  | .pair n => zext32 ((w.lane l).reg n) ||| (zext32 ((w.lane l).reg (n + 1)) <<< 32)
  | .guard k => if w.guard k l then 1 else 0
  | .sreg c => readSreg s t wn w active pc c l
  | .seqst c => readSeqst w c l
  | .operand u off => w.port u off l
  | .result u off => w.port u off l
  | .stream k =>
    match w.streams.find? k with
    | some st =>
      if streamIndex st l < st.count then
        (match st.given.find? (streamIndex st l) with
         | some v => v
         | none => streamElem t st (streamIndex st l))
      else 0
    | none => 0
  | .imm v => v.signExtend 64
  | .const v => v.setWidth 64

/-- Writes a value to a destination for one lane (R84). Writes of seq.flags are gathered over the lanes elsewhere. -/
def writeDst (w : Warp) (d : RDst) (l : Nat) (v : W64) : Warp :=
  match d with
  | .reg n => w.modLane l fun x => x.setReg n (lo32 v)
  | .pair n => w.modLane l fun x => (x.setReg n (lo32 v)).setReg (n + 1) (hi32 v)
  | .guard k => if k = 15 then w else w.setGuard k l (v != 0)
  | .flags => w
  | .operand u off => w.modUnit u fun p => p.setOperand off l v

end Sys2Proof.Machine
end

