-- ==== Sys2Proof/Machine/Ops.lean ====
section
/-! DEFINITION. Shared operations: filling results, trace records, performance events, taking a trap and returning
from one (spec/12_supervisor.md R431 to R451). -/

namespace Sys2Proof.Machine

/-! ## Trap codes (R431) -/

def codeIllegalBundle : BitVec 8 := 0x01
def codeIllegalPort : BitVec 8 := 0x02
def codeIllegalOp : BitVec 8 := 0x03
def codeMisaligned : BitVec 8 := 0x04
def codeNonuniform : BitVec 8 := 0x05
def codeReturnEmpty : BitVec 8 := 0x06
def codeReturnFull : BitVec 8 := 0x07
def codeSchedule : BitVec 8 := 0x08
def codeUser : BitVec 8 := 0x09
def codeTranslation : BitVec 8 := 0x10
def codeProtection : BitVec 8 := 0x11
def codePoison : BitVec 8 := 0x12
def codeTstoreRange : BitVec 8 := 0x13
def codeWatch : BitVec 8 := 0x18
def codeHeapFull : BitVec 8 := 0x19
def codeLongWait : BitVec 8 := 0x28
def codeDebugHalt : BitVec 8 := 0x30
def codeTimeout : BitVec 8 := 0x3F

/-- The reroutable codes in the order of R431's table: RUNGS holds two bits for each (spec/13_loader.md R480). -/
def reroutable : List (BitVec 8) :=
  [0x01, 0x02, 0x03, 0x04, 0x05, 0x06, 0x07, 0x08, 0x09, 0x10, 0x11, 0x12, 0x13, 0x18, 0x19, 0x20]

/-- Position of a code in a list, or the list's length. -/
def codeIndex (c : BitVec 8) : List (BitVec 8) → Nat
  | [] => 0
  | x :: r => if x = c then 0 else codeIndex c r + 1

/-- The entry rung of a code in a context: from RUNGS, or fixed (R431, R434). -/
def entryRung (s : State) (ctx : Nat) (code : BitVec 8) : Nat :=
  let k := codeIndex code reroutable
  if k < reroutable.length then bitsOf (s.cfgWord ctx 4) 63 32 / 2 ^ (2 * k) % 4 else 2

/-! ## Images and code addresses -/

/-- The image in slot `slot` of context `ctx` (spec/03_warp_sequencer.md R113). -/
def imageAt (s : State) (ctx slot : Nat) : Option Image :=
  match s.context? ctx with
  | none => none
  | some c =>
    match c.slots.getD slot none with
    | none => none
    | some h => s.ldr.images.find? h

/-- A code address as a PC holds it: bits [4:0] are zero (spec/01_engines_together.md R23). -/
def bundleAddr (a : W32) : W32 := a &&& 0xFFFFFFE0

/-- First address of the slot window of a code address (R113). -/
def slotBase (pc : W32) : W32 := pc &&& 0xF0000000

/-- `pc` moved by `k` bytes within its slot window. -/
def pcAdd (pc : W32) (k : Int) : W32 := slotBase pc ||| BitVec.ofNat 32 (wrapNat ((pc.toNat % 2 ^ 28 : Nat) + k) 28)

/-- The address of the next bundle. -/
def nextPc (pc : W32) : W32 := pcAdd pc 32

/-- TVEC0 or TVEC1 of the image in the slot of a code address, as a bundle address within a slot (R23, R432); 0 for none (DEDUCED,
notes/assumptions/82.md). -/
def tvec (s : State) (ctx : Nat) (pc : W32) (rung : Nat) : W32 :=
  match imageAt s ctx (pc.toNat / 2 ^ 28) with
  | some i => bundleAddr (if rung = 0 then i.tvec0 else i.tvec1) &&& 0x0FFFFFFF
  | none => 0

/-! ## Performance events and trace records -/

/-- Counts a performance event on core `c` (spec/12_supervisor.md R447). -/
def countEvent (s : State) (c ev : Nat) : State :=
  let k := s.core c
  let sel := (s.func k.func).evsel
  let hit := fun i => let e := sel.getD i 0; bitOf e 15 && bitsOf e 7 0 == ev && !(ev == 7 && k.func != 64)
  if (List.range 8).any hit then
    s.setCore c { k with pmcs := mapIdx (fun i (v : BitVec 48) => if hit i then v + 1 else v) k.pmcs }
  else s

/-- A trace record to write (R451, R452). -/
structure TraceReq where
  ctx : Nat
  type : Nat
  code : Nat
  team : Nat
  core : Nat
  quad : Nat
  slot : Nat
  value : W64
  pc : W32
  deriving DecidableEq, Repr

/-- What became of a trace record: no ring, dropped, or written. -/
inductive TraceOut where
  | off
  | dropped (i : Nat)
  | written (i : Nat)
  deriving DecidableEq, Repr

/-- The four words of a trace record (R452). -/
def traceWords (clk : Nat) (r : TraceReq) (i : Nat) : List W64 :=
  [BitVec.ofNat 64 (r.type * 2 ^ 56 + r.code * 2 ^ 48 + clk % 2 ^ 48),
   BitVec.ofNat 64 (r.team % 2 ^ 32 * 2 ^ 32 + r.core * 2 ^ 24 + r.quad * 2 ^ 22 + r.slot * 2 ^ 18),
   r.value,
   BitVec.ofNat 64 (r.pc.toNat * 2 ^ 32 + i % 2 ^ 32)]

/-- Is a page of a context covered by an invalidation that is under way? Its commands hold its range in `info` as
(context, first, length) (R453, spec/13_loader.md R471). -/
def invalPending (s : State) (ctx va : Nat) : Bool :=
  s.ldr.journal.vals.any fun c =>
    match c.state, c.info with
    | .running, [k, a, n] => k == ctx && decide (a ≤ va) && decide (va < a + n)
    | _, _ => false

/-- Writes a trace record for a context, if it has a ring (R451, R453). -/
def trace (s : State) (r : TraceReq) : TraceOut × State :=
  let w3 := s.cfgWord r.ctx 3
  let base := w3.toNat / 2 ^ 12 * 2 ^ 12
  match s.context? r.ctx with
  | none => (.off, s)
  | some c =>
    if base = 0 then (.off, s)
    else
      let i := c.trPos
      let a := base + 32 * (i % 2 ^ bitsOf w3 4 0)
      let s1 := s.modCtx r.ctx fun c => { c with trPos := c.trPos + 1 }
      match translate s r.ctx a true false, invalPending s r.ctx a with
      | .ok p, false =>
        let bytes := (traceWords s.clk r i).flatMap (wordBytes 8)
        (.written i, if p.tgt = 0 then writeEverywhere s1 none (atAddr p.pa bytes) else s1.modMem fun m => m.writeAt p.tgt p.dev (atAddr p.pa bytes))
      | _, _ => (.dropped i, s1.modCtx r.ctx fun c => { c with trDrops := c.trDrops + 1 })

/-! ## Taking a trap -/

/-- A trap to be taken: its code, class of R92, marked slots, lanes, the address of its bundle, whether it is taken
after the commit (USER), the tagged elements that the marked slots read, and the detail of each lane (R444). `from_` is
the least rung it may enter, `rungOut` the rung whose time passed. -/
structure TrapReq where
  code : BitVec 8
  cls : Nat
  faultMask : BitVec 6
  lanes : List Nat
  pc : W32
  post : Bool
  reads : List ElemRef
  detail : FMap W64
  from_ : Nat
  rungOut : Nat
  deriving DecidableEq, Repr

/-- A trap of a bundle, before its commit. -/
def TrapReq.pre (code : BitVec 8) (cls : Nat) (mask : BitVec 6) (lanes : List Nat) (pc : W32) : TrapReq :=
  { code := code, cls := cls, faultMask := mask, lanes := lanes, pc := pc, post := false, reads := [], detail := .empty,
    from_ := 0, rungOut := 0 }

/-- The units that a handler's bank holds: int0, int1, cmp0, mem0, seq, sup (R435). -/
def bankedUnits : List Nat := [0, 1, 5, 8, 16, 17]

/-- Does a poisoned element lie in a port of the bank? -/
def inBank (e : Nat × Nat) : Bool := (unitOf e.1).any bankedUnits.contains

/-- The rung that a trap enters: its entry rung, or above the rung of the handler that raises it; a rung with no handler
passes it on (R433). -/
def trapRung (s : State) (ctx : Nat) (x : Warp) (q : TrapReq) : Nat :=
  let e := if q.code = codeTimeout then q.from_ else Nat.max q.from_ (entryRung s ctx q.code)
  let e := match x.handlers with
    | h :: _ => Nat.max e (h.rung + 1)
    | [] => e
  let e := if e = 0 ∧ tvec s ctx q.pc 0 = 0 then 1 else e
  if e = 1 ∧ tvec s ctx q.pc 1 = 0 then 2 else e

/-- The record of a trap at a rung (R444). -/
def recordOf (clk rung : Nat) (q : TrapReq) : TrapRec :=
  { code := q.code, rung := rung, cls := q.cls, faultMask := q.faultMask, laneMask := maskOf q.lanes, clk := clk,
    detail := q.detail, timeoutRung := q.rungOut }

/-- The warp as it enters a handler at the warp or team rung (R435). -/
def enterHandler (clk rung : Nat) (vec : W32) (q : TrapReq) (x : Warp) : Warp :=
  let h : Handler :=
    { rung := rung, lanes := maskOf q.lanes, held := ~~~maskOf q.lanes,
      tpc := foldOver (fun (m : FMap W32) l => m.insert l (if q.post then (x.lane l).pc else q.pc)) .empty q.lanes,
      guards := x.guards, ports := x.ports.filter fun u _ => bankedUnits.contains u, poison := x.poison.filter inBank,
      trap := recordOf clk rung q, reads := q.reads, served := 0 }
  { x with
    lanes := mapIdx (fun l (y : Lane) => if q.lanes.contains l then { y with pc := slotBase q.pc ||| vec, age := 0 } else y)
      x.lanes
    guards := List.replicate 15 0
    ports := x.ports.filter fun u _ => !bankedUnits.contains u
    poison := x.poison.filter fun e => !inBank e
    handlers := h :: x.handlers
    entryTo := clk + 8
    backoff := 64 }

/-- The resident teams of the contexts that `p` picks, by core, as pre-emption requests (R439, R455). -/
def stopTurns (s : State) (p : Nat → Bool) (source : Nat) : List Turn :=
  let ts := s.teams.entries.filter fun e => p e.2.ctx && e.2.status == .resident
  let cores := (ts.map fun e => e.2.core).eraseDups
  cores.map fun c => .event .preemptionRequest (.teams c ((ts.filter fun e => e.2.core == c).map Prod.fst) source)

/-- The contexts that a trap at rung 2 (context), 3 (partition) or 4 (device) stops (R432, R439). -/
def trapScope (s : State) (ctx rung c : Nat) : Bool :=
  if rung = 2 then c == ctx else if rung = 3 then s.funcOf c == s.funcOf ctx else true

/-- Does a warp hold a permit (R438)? -/
def Warp.holdsPermit (x : Warp) : Bool := !x.handlers.isEmpty && !x.owesPermit

/-- A warp gives up the permit that it holds (R438). -/
def giveUpPermit (s : State) (w : WRef) : State :=
  match s.team? w.team, s.warp? w with
  | some t, some x =>
    if x.holdsPermit then
      (s.modCore t.core fun k => { k with permits := k.permits + 1 }).modWarp w fun x => { x with owesPermit := true }
    else s
  | _, _ => s

/-- A trap of a context waits at the context rung or above: its scope is stopped, its teams are saved, and system software is
told (R432, R437, R439). -/
def contextTrap (s : State) (w : WRef) (rung : Nat) (q : TrapReq) (values : List W64) : State :=
  match s.team? w.team with
  | none => s
  | some t =>
    let at_ := fun l => match s.warp? w with
      | some x => if q.post then (x.lane l).pc else q.pc
      | none => q.pc
    let tpc : FMap W32 := foldOver (fun (m : FMap W32) l => m.insert l (at_ l)) .empty q.lanes
    let ct : CtxTrap := { warp := w, trap := recordOf s.clk rung q, pc := tpc, reads := q.reads, values := values, since := some s.clk }
    let s1 := s.modLdr fun l =>
      { l with
        contexts := l.contexts.mapVals fun c x =>
          let x1 := if trapScope s t.ctx rung c then { x with stopped := true } else x
          if c = t.ctx then { x1 with traps := x1.traps ++ [ct] } else x1
        events := l.events ++ [(t.ctx, q.code.toNat, w.team)] }
    pushTurns s1 (stopTurns s (trapScope s t.ctx rung) 1)

/-- A trap climbs to the context rung or above, and its warp's permit is given up (R438, R439). -/
def climbOut (s : State) (w : WRef) (rung : Nat) (q : TrapReq) : State := contextTrap (giveUpPermit s w) w rung q []

/-- The trace record and the performance event of a delivered trap (R447, R451). -/
def noteTrap (s : State) (w : WRef) (q : TrapReq) : State :=
  match s.team? w.team, s.warp? w with
  | some t, some x =>
    let s1 := countEvent s t.core 0x0B
    (trace s1
      { ctx := t.ctx, type := 0x02, code := q.code.toNat, team := t.index, core := t.core, quad := x.quad, slot := x.slot,
        value := maskOf q.lanes, pc := q.pc }).2
  | _, _ => s

/-- Would a trap of this warp be delivered, or does it find no free permit (R438)? -/
def trapHasPermit (s : State) (w : WRef) (q : TrapReq) : Bool :=
  match s.team? w.team, s.warp? w with
  | some t, some x =>
    !(decide (trapRung s t.ctx x q ≤ 1) && x.handlers.isEmpty && (s.core t.core).permits == 0)
  | _, _ => true

/-- A delivery that finds no free permit: nothing is delivered and the warp backs off (R438). -/
def backOff (s : State) (w : WRef) : State :=
  s.modWarp w fun x =>
    let b := if x.backoff = 0 then 64 else x.backoff
    { x with backoffTo := s.clk + b, backoff := Nat.min 4096 (2 * b) }

/-- Takes a trap (R433, R435, R438, R439): at the warp or team rung the handler lanes go to the vector with a bank and
a record; at a higher rung the context's teams are saved and system software is told. -/
def takeTrap (s : State) (w : WRef) (q : TrapReq) : State :=
  match s.team? w.team, s.warp? w with
  | some t, some x =>
    let rung := trapRung s t.ctx x q
    if ¬ trapHasPermit s w q then backOff s w
    else
      let s1 := noteTrap s w q
      if rung ≤ 1 then
        let s2 := if x.handlers.isEmpty then s1.modCore t.core fun k => { k with permits := k.permits - 1 } else s1
        s2.modWarp w (enterHandler s.clk rung (tvec s t.ctx q.pc rung) q)
      else climbOut s1 w rung q
  | _, _ => s

/-! ## The return -/

/-- The address at which a handler lane goes on, by ACTION 0 RETRY, 1 SKIP, 2 REPLACE (R445). -/
def returnPc (action : Nat) (tpc : W32) : W32 := if action = 1 then nextPc tpc else tpc

/-- REPLACE: each tagged element of a result port that the marked slots read in a lane takes that lane's value, filled and untagged
(R445). -/
def replaceElems (reads : List ElemRef) (val : Nat → W64) (m : FMap UnitPorts) : FMap UnitPorts :=
  foldOver
    (fun (m : FMap UnitPorts) (r : ElemRef) =>
      m.modify r.unit fun p =>
        if 6 ≤ r.off ∨ (p.elem r.off r.lane).tag = 0 then p else p.setElem r.off r.lane (.value (val r.lane)))
    m reads

/-- The same for the elements of streams: the lane reads its value in their place. -/
def replaceStreams (reads : List ElemRef) (val : Nat → W64) (m : FMap Stream) : FMap Stream :=
  foldOver
    (fun (m : FMap Stream) (r : ElemRef) =>
      if r.off < 6 then m else m.modify (r.off - 6) fun st => { st with given := st.given.insert r.idx (val r.lane) })
    m reads

/-- The warp after its current handler's return: bank restored, lanes at their trap PCs by ACTION (R445). -/
def leaveHandler (action : Nat) (h : Handler) (rest : List Handler) (x : Warp) : Warp :=
  let val := fun l => x.port unitSup offB l
  let other := x.ports.filter fun u _ => !bankedUnits.contains u
  let merged : FMap UnitPorts := foldOver (fun (m : FMap UnitPorts) e => m.insert e.1 e.2) other h.ports.entries
  { x with
    lanes := mapIdx
      (fun l (y : Lane) =>
        if h.lanes.getLsbD l then { y with pc := returnPc action (h.tpc.getD l y.pc) } else y) x.lanes
    guards := h.guards
    ports := if action = 2 then replaceElems h.reads val merged else merged
    poison := h.poison ++ x.poison.filter fun e => !inBank e
    streams := if action = 2 then replaceStreams h.reads val x.streams else x.streams
    handlers := rest }

/-- Ends the handler of the current rung (R445): the permit is released unless a handler remains. -/
def returnTrap (s : State) (w : WRef) (action : Nat) : State :=
  match s.warp? w with
  | some x =>
    match x.handlers with
    | [] => s
    | h :: rest =>
      let s1 := if rest.isEmpty then giveUpPermit s w else s
      s1.modWarp w fun x =>
        let y := leaveHandler action h rest x
        if rest.isEmpty then { y with owesPermit := false } else y
  | none => s

/-! ## Filling results -/

/-- Fills .y and .y2 of a lane for trigger `id` of unit `u`. -/
def fillAt (s : State) (w : WRef) (u id l : Nat) (y y2 : Elem) : State := s.modWarp w fun x => x.fill u id l y y2

/-- Fills values. -/
def fillVal (s : State) (w : WRef) (u id l : Nat) (y y2 : W64) : State := fillAt s w u id l (.value y) (.value y2)

/-- Fills .y and .y2 with a pending-trap tag (R37, R45 `defer`). -/
def fillTag (s : State) (w : WRef) (u id l : Nat) (code : BitVec 8) : State :=
  fillAt s w u id l (.tagged code 0) (.tagged code 0)

/-- Sets the number of the most recent trigger of unit `u` in lane `l`, and clears the fill bits and tags
(R33, R35). -/
def Warp.trigger (w : Warp) (u id l : Nat) : Warp :=
  w.modUnit u fun p =>
    let clear := fun (e : Elem) => { e with filled := false, tag := 0 }
    { (p.setElem 4 l (clear (p.elem 4 l))).setElem 5 l (clear (p.elem 5 l)) with
      last := p.last.insert l id, must := p.must &&& ~~~BitVec.ofNat 64 (2 ^ l) }

/-! ## Operations in flight -/

/-- Operation `id` of a warp, if it is in flight. -/
def Warp.op? (w : Warp) (id : Nat) : Option Op := firstWhere (fun o => o.id == id) w.ops

/-- Changes operation `id`. -/
def Warp.modOp (w : Warp) (id : Nat) (f : Op → Op) : Warp :=
  { w with ops := w.ops.map fun o => if o.id = id then f o else o }

/-- The item of a lane. -/
def Op.item? (o : Op) (l : Nat) : Option Item := firstWhere (fun i => i.lane == l) o.items

/-- Changes the item of a lane. -/
def Op.modItem (o : Op) (l : Nat) (f : Item → Item) : Op :=
  { o with items := o.items.map fun i => if i.lane = l then f i else i }

/-- Takes a lane's item out of an operation. -/
def Op.dropItem (o : Op) (l : Nat) : Op := { o with items := o.items.filter fun i => i.lane != l }

/-- Takes operation `id` out. -/
def Warp.dropOp (w : Warp) (id : Nat) : Warp := { w with ops := w.ops.filter fun o => o.id != id }

/-- A new item of a lane, to be translated. -/
def Item.start (lane : Nat) (a b c : W64) (epoch : Nat) : Item :=
  { lane := lane, a := a, b := b, c := c, m := 0, stage := .walk, place := none, epoch := epoch, trip := 0, filled := false,
    extra := [], lost := false, spoiled := false }

end Sys2Proof.Machine
end

