-- ==== Sys2Proof/Machine/Issue.lean ====
section
/-! DEFINITION. How a bundle issues: lanes picked, checks in the classes of R92, holds, and the commit
(spec/01_engines_together.md R24 to R41, spec/02_bundles_and_ports.md R78, R89 to R103, spec/03_warp_sequencer.md R119,
R131, R134, R135). Every row that is a bundle acts through `issueMoves`. -/

namespace Sys2Proof.Machine

/-! ## Lanes -/

/-- The lanes that may run: live, not parked, and among the handler lanes of the current handler
(spec/01_engines_together.md R23, spec/12_supervisor.md R435). -/
def Warp.candidates (w : Warp) : List Nat :=
  laneNums.filter fun l =>
    (w.lane l).live && !(w.lane l).parked &&
    (match w.handlers with
     | h :: _ => h.lanes.getLsbD l
     | [] => true)

/-- pc_sel of R24 among candidate lanes: the oldest lane at age 256 or more, lowest pc on a tie; else the lowest pc. -/
def Warp.pickPc (w : Warp) (cand : List Nat) : W32 :=
  let old := cand.filter fun l => decide (256 ≤ (w.lane l).age)
  let top := maxOf (old.map fun l => (w.lane l).age)
  let pool := if old.isEmpty then cand else old.filter fun l => (w.lane l).age == top
  BitVec.ofNat 32 (minOf (pool.map fun l => (w.lane l).pc.toNat) 0)

/-- The choice of lanes of one half, or of a native warp. -/
def Warp.chooseFrom (w : Warp) (cand : List Nat) (half : Nat) : Choice :=
  let pc := w.pickPc cand
  { pc := pc, active := cand.filter fun l => (w.lane l).pc == pc, cand := cand, half := half }

/-- The choice of the next bundle of a warp, none when it is not ready (R24, R28). -/
def Warp.choose (w : Warp) : Option Choice :=
  let cand := w.candidates
  if cand.isEmpty then none
  else if ¬ w.w32 then some (w.chooseFrom cand 0)
  else
    let c0 := cand.filter fun l => decide (l < 32)
    let c1 := cand.filter fun l => decide (32 ≤ l)
    if c1.isEmpty then some (w.chooseFrom c0 0)
    else if c0.isEmpty then some (w.chooseFrom c1 1)
    else
      let a := w.chooseFrom c0 0
      let b := w.chooseFrom c1 1
      if a.pc = b.pc then some { pc := a.pc, active := a.active ++ b.active, cand := cand, half := 2 }
      else if w.lastHalf = 1 then some a
      else some b

/-- Do these lanes stand in the second part of the split bundle whose first part was chosen for clk `clk` (R103)? -/
def Warp.inSplit (w : Warp) (clk : Nat) (c : Choice) : Bool :=
  match w.split with
  | some p => p.1 == clk && p.2.pc == c.pc && c.active.all p.2.active.contains
  | none => false

/-- The choice of the next bundle in clk `clk`: in the second clk of a split bundle that of its first part, for the lanes of it that
still stand there (R103); else a fresh choice (R24) (DEDUCED, notes/assumptions/8.md). -/
def Warp.chooseAt (w : Warp) (clk : Nat) : Option Choice :=
  match w.split with
  | none => w.choose
  | some p =>
    let active := w.candidates.filter fun l => p.2.active.contains l && (w.lane l).pc == p.2.pc
    if p.1 ≠ clk ∨ active.isEmpty then w.choose
    else some { p.2 with active := active, cand := w.candidates.filter p.2.cand.contains }

/-- The ages after an issue (R24). An issue that served both halves leaves the half that issued last as it was (DEDUCED,
notes/assumptions/93.md). -/
def Warp.updateAges (w : Warp) (c : Choice) : Warp :=
  { w with
    lanes := mapIdx
      (fun l (x : Lane) =>
        if c.active.contains l then { x with age := 0 }
        else if c.cand.contains l then { x with age := Nat.min (x.age + 1) 511 }
        else x) w.lanes
    lastHalf := if c.half = 2 then w.lastHalf else c.half }

/-! ## Loops (spec/03_warp_sequencer.md R129 to R134) -/

/-- Changes the loop state of half `h`. -/
def Warp.modHalf (w : Warp) (h : Nat) (f : Half → Half) : Warp := { w with halves := modifyAt f h w.halves }

/-- Is lane `l` a member of level `k` of its half? -/
def Warp.member (w : Warp) (k l : Nat) : Bool :=
  match (w.half (w.halfOf l)).levels[k]? with
  | some x => x.members.getLsbD l
  | none => false

/-- Removes empty levels: a level whose member set is empty closes, and every deeper level with it (R132). -/
def closeLevels : List LoopLevel → List LoopLevel
  | [] => []
  | x :: r => if x.members = 0 then [] else x :: closeLevels r

/-- Lane `l` leaves level `k` and every deeper level of its half (R132). -/
def leaveLoops (l k : Nat) (ls : List LoopLevel) : List LoopLevel :=
  mapIdx (fun i (x : LoopLevel) => if k ≤ i then { x with members := x.members &&& ~~~BitVec.ofNat 64 (2 ^ l) } else x) ls

/-- Is lane `l` of a warp in loop-wait of level `k`? -/
def Warp.inLoopWait (w : Warp) (k l : Nat) : Bool := (w.lane l).wait == some (.loop k)

/-- `try_advance` of R131 at level `k` of half `h`. -/
def Warp.tryAdvance (w : Warp) (h k : Nat) : Warp :=
  match (w.half h).levels[k]? with
  | none => w
  | some lv =>
    let ms := lanesOf lv.members
    if ¬ ms.isEmpty ∧ ms.all (fun l => w.inLoopWait k l) then
      let w1 := w.modHalf h fun x =>
        { x with levels := modifyAt (fun y => { y with ix := y.ix + y.stride, trip := y.trip - 1 }) k x.levels }
      { w1 with
        lanes := mapIdx
          (fun l (x : Lane) => if ms.contains l then { x with wait := none, pc := lv.start } else x) w1.lanes }
    else w

/-- Lane `l` leaves level `k` and deeper ones; lanes left in loop-wait of a level that closes are released (R132,
R146). -/
def Warp.leaveLevel (w : Warp) (l k : Nat) : Warp :=
  let h := w.halfOf l
  let w1 := w.modHalf h fun x => { x with levels := closeLevels (leaveLoops l k x.levels) }
  w1.modLane l fun x => match x.wait with
    | some (.loop _) => { x with wait := none }
    | _ => x

/-- Completion of an iteration by lane `l` at level `k` (R131), without the advance; `n` bounds the coinciding ends. -/
def Warp.completeLane (n : Nat) (w : Warp) (l k : Nat) : Warp :=
  match n with
  | 0 => w
  | n + 1 =>
    let h := w.halfOf l
    match (w.half h).levels[k]? with
    | none => w
    | some lv =>
      if lv.trip = 1 then
        let outer := if k = 0 then none else (w.half h).levels[k - 1]?
        let w1 := (w.leaveLevel l k).modLane l fun x => { x with pc := lv.exit }
        match outer with
        | some o => if o.stop = lv.stop ∧ o.members.getLsbD l then Warp.completeLane n w1 l (k - 1) else w1
        | none => w1
      else w.modLane l fun x => { x with wait := some (.loop k) }

/-- `try_advance` on every level of a half, the deepest first. -/
def Warp.advanceAll (w : Warp) (h : Nat) : Warp :=
  foldOver (fun w k => w.tryAdvance h k) w [5, 4, 3, 2, 1, 0]

/-- Runs `try_advance` on both halves. -/
def Warp.advance (w : Warp) : Warp := (w.advanceAll 0).advanceAll 1

/-- The deepest level of lane `l`'s half of which it is a member and whose end bundle is `pc`, if any. -/
def Warp.endLevel (w : Warp) (l : Nat) (pc : W32) : Option Nat :=
  let lv := (w.half (w.halfOf l)).levels
  firstWhere (fun k => match lv[k]? with
    | some x => x.stop == pc && x.members.getLsbD l
    | none => false) [5, 4, 3, 2, 1, 0]

/-- Lane `l` steps out of the bundle at `pc` to the next bundle; out of an end bundle it completes an iteration, at once
or when the wait that parks it releases it (R89 step 5, R131). -/
def Warp.stepLane (w : Warp) (pc : W32) (l : Nat) : Warp :=
  if ¬ (w.lane l).live then w
  else
    let w1 := w.modLane l fun x => { x with pc := nextPc pc }
    match w.endLevel l pc with
    | none => w1
    | some k => if (w1.lane l).parked then w1.modLane l fun x => { x with owes := some k } else w1.completeLane 6 l k

/-- Steps lanes, then lets iterations advance. -/
def Warp.stepLanes (w : Warp) (pc : W32) (ls : List Nat) : Warp :=
  (foldOver (fun w l => w.stepLane pc l) w ls).advance

/-- Releases lane `l` from its wait; an iteration that it owes is completed now (R131). -/
def Warp.release (w : Warp) (l : Nat) : Warp :=
  let owed := (w.lane l).owes
  let w1 := w.modLane l fun x => { x with wait := none, owes := none }
  match owed with
  | some k => (w1.completeLane 6 l k).advance
  | none => w1

/-- Does IM select the current iteration of a level (R134)? -/
def imSelects (im : Nat) (lv : LoopLevel) : Bool :=
  if im = 0 then true
  else if im = 1 then lv.trip == lv.trip0
  else if im = 2 then lv.trip == 1
  else decide (1 < lv.trip.toNat)

/-! ## Moves and operations -/

/-- What an operation is given when it starts: the warp, the trigger's number, its lanes, the active lanes for which
the bundle is performed, its address, and the warp as it stood before the bundle (NFRs, R144). -/
structure Begin where
  w : WRef
  id : Nat
  lanes : List Nat
  active : List Nat
  pc : W32
  pre : Warp

/-- An opcode of a unit: where it stands, what its trigger counts as reading (offsets of its own unit's result ports for
a lane, R202, R333, R385), its checks at start (class 7 or 8, trap code, failing lanes; on the warp after the bundle's
writes and as it was before), whether it accepts work now (R38), the lanes whose PC it sets (R119), and its effect. -/
structure OpSpec where
  unit : Nat
  opc : Nat
  reads : Warp → Nat → List Nat
  check : State → Team → Warp → Warp → List Nat → W32 → Option (Nat × BitVec 8 × List Nat)
  accept : State → Team → Warp → List Nat → Bool
  setsPc : Warp → List Nat → List Nat → List Nat
  start : State → Begin → State

/-- The destination of a move. -/
inductive Dest where
  | plain (d : RDst)
  | trig (o : OpSpec)

/-- A move with its codes resolved, or the class (3 or 4) and code with which its slot fails (R92). -/
structure RMove where
  slot : Nat
  g : Nat
  ng : Bool
  res : Except (Nat × BitVec 8) (RSrc × Dest)

/-- What else a bundle holds: switch marker, delay count, loop level, issue mode, configuration word. -/
structure Header where
  sw : Bool
  d : Nat
  lv : Nat
  im : Nat
  cfg : Option (Nat × Nat × BitVec 32)
  deriving DecidableEq, Repr

/-- The header of a bundle that holds nothing but one move. -/
def Header.plain : Header := { sw := false, d := 0, lv := 0, im := 0, cfg := none }

/-- Does lane `l` perform a move (R90)? -/
def performs (x : Warp) (m : RMove) (l : Nat) : Bool := if m.g = 15 then !m.ng else x.guard m.g l != m.ng

/-- The lanes of `ls` that perform a move. -/
def performers (x : Warp) (m : RMove) (ls : List Nat) : List Nat := ls.filter (performs x m)

/-! ## Checks -/

/-- The trap of failing slots: lowest slot's code, the slots and lanes that fail with it (R92). Each failure is a slot,
its code and its lanes. -/
def slotTrap (cls : Nat) (pc : W32) (fails : List (Nat × BitVec 8 × List Nat)) : Option TrapReq :=
  match fails with
  | [] => none
  | f :: r =>
    let low := foldOver (fun (a : Nat × BitVec 8 × List Nat) b => if b.1 < a.1 then b else a) f r
    let same := fails.filter fun x => x.2.1 == low.2.1
    let ls := same.flatMap fun x => x.2.2
    some (TrapReq.pre low.2.1 cls (slotMask (same.map fun x => x.1)) (laneNums.filter fun l => ls.contains l) pc)

/-- Classes 3 and 4 (R92): every active lane is named. -/
def codeTrap (h : Header) (t : Team) (s : State) (ms : List RMove) (c : Choice) : Option TrapReq :=
  let fails := fun (k : Nat) => ms.filterMap fun m => match m.res with
    | .error e => if e.1 = k then some (m.slot, e.2, c.active) else none
    | .ok _ => none
  let cfgBad := match h.cfg with
    | some _ => if populated s t unitMx then [] else [(5, codeIllegalPort, c.active)]
    | none => []
  match slotTrap 3 c.pc (fails 3 ++ cfgBad) with
  | some q => some q
  | none => slotTrap 4 c.pc (fails 4)

/-- Class 5: IM names a level that is not active in the half of some active lane (R92, R153); the lanes of that half are named (DEDUCED,
notes/assumptions/93.md). -/
def imTrap (h : Header) (x : Warp) (c : Choice) : Option TrapReq :=
  if h.im = 0 then none
  else
    let bad := c.active.filter fun l => ((x.half (x.halfOf l)).levels[h.lv]?).isNone
    if bad.isEmpty then none else some (TrapReq.pre codeIllegalBundle 5 0 bad c.pc)

/-- The active lanes for which the bundle is performed (R93, R153). -/
def performed (h : Header) (x : Warp) (c : Choice) : List Nat :=
  if h.im = 0 then c.active
  else c.active.filter fun l => match (x.half (x.halfOf l)).levels[h.lv]? with
    | some lv => imSelects h.im lv
    | none => false

/-- Is the operation of a fixed-latency kind (R95)? -/
def fixedLatency (u opc : Nat) : Bool :=
  u == 0 || u == 1 || u == unitCmp || u == unitCvt || u == 3 || u == 4 || (u == unitMul && decide (opc ≤ 8))

/-- Is a result port of a lane fixed-latency: its most recent trigger is such an operation (R95)? -/
def Warp.fixedNow (x : Warp) (u l : Nat) : Bool :=
  match (x.unit u).last.find? l with
  | none => false
  | some id => x.fills.any fun f => f.id == id && fixedLatency f.unit f.opc

/-- The result elements that a move reads in lane `l`: its source, and what a trigger counts as reading. -/
def readsOf (x : Warp) (m : RMove) (l : Nat) : List ElemRef :=
  match m.res with
  | .error _ => []
  | .ok (src, d) =>
    (match src with
     | .result u off => [{ unit := u, off := off, lane := l, idx := 0 }]
     | _ => []) ++
    (match d with
     | .trig o => (o.reads x l).map fun off => { unit := o.unit, off := off, lane := l, idx := 0 }
     | .plain _ => [])

/-- Does a stream read of lane `l` wait: its element's row has not passed the arbiter (spec/06_copy_engine.md R247)? A
row at or beyond a failed one does not wait: it is tagged (DEDUCED, notes/assumptions/84.md). -/
def streamWaits (x : Warp) (k l : Nat) : Bool :=
  match x.streams.find? k with
  | none => false
  | some st =>
    let e := streamIndex st l
    decide (e < st.count) && !st.given.has e && decide (st.written ≤ e / 64) &&
    (match st.failed with
     | some f => decide (e / 64 < f.1)
     | none => true)

/-- The tag of a stream element that lane `l` would read, 0 for none. -/
def streamTag (x : Warp) (k l : Nat) : BitVec 8 :=
  match x.streams.find? k with
  | none => 0
  | some st =>
    match st.failed with
    | some f => if streamIndex st l < st.count ∧ f.1 ≤ streamIndex st l / 64 ∧ ¬ st.given.has (streamIndex st l) then f.2 else 0
    | none => 0

/-- The element of a stream port that lane `l` would read, as an element that may bear a tag. -/
def streamRef (x : Warp) (k l : Nat) : ElemRef :=
  { unit := unitCp, off := 6 + k, lane := l, idx := match x.streams.find? k with
      | some st => streamIndex st l
      | none => 0 }

/-- The tag of an element, 0 for none. -/
def Warp.tagOf (x : Warp) (e : ElemRef) : BitVec 8 :=
  if 6 ≤ e.off then streamTag x (e.off - 6) e.lane else (x.elem e.unit e.off e.lane).tag

/-- The elements whose tags a move of lane `l` traps on: its source, and what a memory trigger counts as reading; the
own element of a `tell` or `tq` trigger is only waited for (spec/05_memory_ports.md R202, spec/09_tell_unit.md R333,
spec/10_team_scheduler.md R385). -/
def tagReads (x : Warp) (m : RMove) (l : Nat) : List ElemRef :=
  match m.res with
  | .error _ => []
  | .ok (src, d) =>
    (match src with
     | .stream k => [streamRef x k l]
     | _ => []) ++
    (match d with
     | .trig o => if o.unit = 8 ∨ o.unit = 9 then readsOf x m l else readsOf x { m with res := .ok (src, .plain (.guard 15)) } l
     | .plain _ => readsOf x m l)

/-- How a read of lane `l` stands: it must be waited for, it is a fixed-latency read found unfilled, it is tagged. -/
inductive ReadState where
  | fine
  | waits
  | late
  | tagged (code : BitVec 8)
  deriving DecidableEq, Repr

/-- The port codes of registers and ports that a source reads, for poison (spec/05_memory_ports.md R223). -/
def srcCodes : RSrc → List Nat
  | .reg n => [n]
  | .pair n => [n, n + 1]
  | .operand u off => [portCode u off]
  | .result u off => [portCode u off]
  | _ => []

/-- The place that a move writes. -/
def destOf : Dest → RDst
  | .plain d => d
  | .trig o => .operand o.unit (landing o.unit o.opc)

/-- The port codes that a destination writes, for poison. -/
def dstCodes : RDst → List Nat
  | .reg n => [n]
  | .pair n => [n, n + 1]
  | .operand u off => [portCode u off]
  | _ => []

/-- Does a move of the bundle write an element, so that an operation of the bundle reads what it wrote (R33)? -/
def RMove.writes (x : Warp) (l code : Nat) (m : RMove) : Bool :=
  performs x m l && match m.res with
    | .ok (_, d) => (dstCodes (destOf d)).contains code
    | .error _ => false

/-- The codes of the registers and ports that a move of lane `l` reads: its source, what a memory trigger counts as reading, and the
operand and mode ports that a triggered operation reads and no move of the bundle writes (R33; spec/05_memory_ports.md R223). -/
def readCodes (x : Warp) (ms : List RMove) (m : RMove) (l : Nat) : List Nat :=
  match m.res with
  | .error _ => []
  | .ok (src, d) =>
    srcCodes src ++ ((tagReads x m l).map fun e => portCode e.unit e.off) ++
      match d with
      | .trig o => ([offA, offB, offC, offM].map (portCode o.unit)).filter fun code => !ms.any (RMove.writes x l code)
      | .plain _ => []

/-- Does a move of lane `l` read a poisoned element? -/
def readsPoison (x : Warp) (ms : List RMove) (m : RMove) (l : Nat) : Bool :=
  !x.poison.isEmpty && (readCodes x ms m l).any fun c => x.poison.contains (c, l)

/-- How the reads of a move stand in lane `l`. `checked` is false for the unchecked fixed-latency reads of scheduled
mode (R97 to R99), `ms` are the moves of the bundle. A slot that reads an unfilled and a tagged element in one lane is late there
(DEDUCED, notes/assumptions/93.md). -/
def readState (x : Warp) (checked : Bool) (ms : List RMove) (m : RMove) (l : Nat) : ReadState :=
  match m.res with
  | .error _ => .fine
  | .ok (src, _) =>
    let es := readsOf x m l
    let unfilled := es.filter fun e => !(x.elem e.unit e.off l).filled
    let st := match src with
      | .stream k => streamWaits x k l
      | _ => false
    if st || unfilled.any (fun e => checked || !x.fixedNow e.unit l) then .waits
    else if ¬ unfilled.isEmpty then .late
    else
      match ((tagReads x m l).map x.tagOf).filter (· != 0) with
      | t :: _ => .tagged t
      | [] => if readsPoison x ms m l then .tagged codePoison else .fine

/-- Class 6 failures: tagged reads, and with SCHK = 1 unfilled fixed-latency reads. A slot's code is that of its lowest
failing lane (R92). -/
def readFails (x : Warp) (checked : Bool) (ls : List Nat) (ms : List RMove) (m : RMove) : Option (Nat × BitVec 8 × List Nat) :=
  let bad := (performers x m ls).filterMap fun l => match readState x checked ms m l with
    | .tagged c => some (l, c)
    | .late => if x.schk then some (l, codeSchedule) else none
    | _ => none
  match bad with
  | [] => none
  | b :: _ => some (m.slot, b.2, (bad.filter fun y => y.2 == b.2).map Prod.fst)

/-- The detail item of a lane for a trap of class 6: the exception set for FP, else the tag's code (R444). -/
def tagDetail (x : Warp) (code : BitVec 8) (es : List ElemRef) : W64 :=
  match es.filter fun e => x.tagOf e == code with
  | [] => 0
  | e :: _ => if code = codeFp then (x.elem e.unit offY2 e.lane).val else code.setWidth 64

/-- Completes a class 6 trap with the tagged elements that its marked slots read and the lanes' details (R444, R445). -/
def withReads (x : Warp) (ms : List RMove) (q : TrapReq) : TrapReq :=
  let marked := ms.filter fun m => q.faultMask.getLsbD m.slot
  let es := marked.flatMap fun m => (performers x m q.lanes).flatMap fun l => (tagReads x m l).filter fun e => x.tagOf e != 0
  { q with
    reads := if es.any fun e => x.tagOf e == q.code then es else [],
    detail := if q.code = codeSchedule then .empty
      else foldOver (fun (d : FMap W64) l => d.insert l (tagDetail x q.code (es.filter fun e => e.lane == l))) .empty
        q.lanes }

/-! ## Writes -/

/-- The values of a move in the lanes that perform it. -/
def moveValues (s : State) (t : Team) (wn : Nat) (x : Warp) (active : W64) (pc : W32) (ls : List Nat) (m : RMove) :
    List (Nat × W64) :=
  match m.res with
  | .error _ => []
  | .ok (src, _) => (performers x m ls).map fun l => (l, readSrc s t wn x active pc src l)

/-- Writes one move (R84, R87): every performing lane, and for seq.flags the highest one (R81). A written element is no
longer poisoned (DEDUCED, notes/assumptions/39.md). -/
def writeMove (clk : Nat) (d : RDst) (vs : List (Nat × W64)) (w : Warp) : Warp :=
  let w1 := foldOver (fun w (v : Nat × W64) => writeDst w d v.1 v.2) w vs
  let w2 := if w1.poison.isEmpty then w1
    else { w1 with poison := w1.poison.filter fun p => !((dstCodes d).contains p.1 && vs.any fun v => v.1 == p.2) }
  match d with
  | .flags =>
    match vs.getLast? with
    | some v => w2.writeFlags clk v.2
    | none => w2
  | _ => w2

/-- Every write of a bundle, in slot order (R89 step 2, R91). -/
def writeAll (s : State) (t : Team) (wn : Nat) (x : Warp) (active : W64) (pc : W32) (ls : List Nat) (ms : List RMove) :
    Warp :=
  foldOver
    (fun w m => match m.res with
      | .error _ => w
      | .ok (_, d) => writeMove s.clk (destOf d) (moveValues s t wn x active pc ls m) w)
    x ms

/-- The triggers of a bundle with the lanes that perform them: slot, operation, lanes. -/
def triggersOf (x : Warp) (ls : List Nat) (ms : List RMove) : List (Nat × OpSpec × List Nat) :=
  ms.filterMap fun m => match m.res with
    | .ok (_, .trig o) => some (m.slot, o, performers x m ls)
    | _ => none

/-- Class 7 and class 8 failures at the start of the operations, on the warp after the writes. -/
def startFails (s : State) (t : Team) (x wr : Warp) (pc : W32) (cls : Nat) (ts : List (Nat × OpSpec × List Nat)) :
    List (Nat × BitVec 8 × List Nat) :=
  ts.filterMap fun y =>
    if y.2.2.isEmpty then none
    else match y.2.1.check s t wr x y.2.2 pc with
      | some f => if f.1 = cls then some (y.1, f.2) else none
      | none => none

/-! ## The plan of an issue -/

/-- What an issue of a bundle comes to in this clk. -/
inductive Plan where
  /-- A trap is taken: nothing commits. -/
  | trap (q : TrapReq)
  /-- The shadow scoreboard replays it (R99, SCHK = 0). -/
  | replay
  /-- It is held (R36, R38). -/
  | hold
  /-- It is skipped for every lane (R93). -/
  | skip
  /-- It commits for these lanes. -/
  | commit (ls : List Nat)

/-- Does a trigger want room in the store queue: a store or an atomic (spec/05_memory_ports.md R204)? -/
def wantsRoom (y : Nat × OpSpec × List Nat) : Bool :=
  isMem y.2.1.unit && !y.2.2.isEmpty && (isStore y.2.1.opc || isAtomic y.2.1.opc)

/-- Does a trigger put an entry into the store queue: a store of which some lane goes to global memory (R206)? -/
def joinsQueue (wr : Warp) (y : Nat × OpSpec × List Nat) : Bool :=
  wantsRoom y && isStore y.2.1.opc && y.2.2.any fun l => !isTs y.2.1.opc (wr.port y.2.1.unit offM l)

/-- Has the store queue room for the triggers of both memory units: mem1 comes after mem0 (R204)? -/
def storesFit (x wr : Warp) (ts : List (Nat × OpSpec × List Nat)) : Bool :=
  let first := ts.filter fun y => y.2.1.unit == 8 && joinsQueue wr y
  let second := ts.filter fun y => y.2.1.unit == 9 && wantsRoom y
  first.isEmpty || second.isEmpty || decide (x.sq.length + 1 < 32)

/-- The plan of a bundle (R36, R38, R92, R93, R97 to R99). A replayed bundle waits for its fixed-latency reads too (R99). A wait for a
read goes before the traps of classes 6 to 8, and these before a unit that cannot accept (DEDUCED, notes/assumptions/93.md). -/
def planMoves (s : State) (t : Team) (wn : Nat) (x : Warp) (c : Choice) (h : Header) (ms : List RMove) : Plan :=
  match codeTrap h t s ms c with
  | some q => .trap q
  | none =>
    match imTrap h x c with
    | some q => .trap q
    | none =>
      let ls := performed h x c
      if ls.isEmpty then .skip
      else
        let checked := !x.sched || x.replayPc == some c.pc
        if ms.any fun m => (performers x m ls).any fun l => readState x checked ms m l == .waits then .hold
        else
          let late := ms.any fun m => (performers x m ls).any fun l => readState x checked ms m l == .late
          let fails := ms.filterMap fun m => readFails x checked ls ms m
          match slotTrap 6 c.pc fails with
          | some q => .trap (withReads x ms q)
          | none =>
            if late then .replay
            else
              let wr := writeAll s t wn x (maskOf c.active) c.pc ls ms
              let ts := triggersOf x ls ms
              match slotTrap 7 c.pc (startFails s t x wr c.pc 7 ts) with
              | some q => .trap q
              | none =>
                match slotTrap 8 c.pc (startFails s t x wr c.pc 8 ts) with
                | some q => .trap q
                | none =>
                  if (ts.all fun y => y.2.2.isEmpty || y.2.1.accept s t x y.2.2) && storesFit x wr ts then .commit ls else .hold

/-! ## The commit -/

/-- The scale-table entries that a configuration word writes (R78): set × 16 + entry. -/
def cfgWrites (cfg : Nat × Nat × BitVec 32) : List (Nat × BitVec 8) :=
  [0, 1, 2, 3].map fun i => (cfg.1 * 16 + 4 * cfg.2.1 + i, (cfg.2.2 >>> (8 * i)).setWidth 8)

/-- Writes scale-table entries in clk `clk`, keeping the table as it stood before that clk (R78). -/
def Team.writeScale (t : Team) (clk : Nat) (l : List (Nat × BitVec 8)) : Team :=
  { t with
    scalePrev := if t.scaleClk = clk then t.scalePrev else t.scale
    scaleClk := clk
    scale := foldOver (fun (m : FMap (BitVec 8)) e => m.setD e.1 0 e.2) t.scale l }

/-- Entry `i` of scale set `set` as triggers of clk `clk` see it (R78). -/
def Team.scaleAt (t : Team) (clk set i : Nat) : BitVec 8 :=
  (if t.scaleClk = clk then t.scalePrev else t.scale).getD (set * 16 + i) 0

/-- Advances the read counts of the streams that lanes read (R85). -/
def advanceStreams (x : Warp) (ls : List Nat) (ms : List RMove) (w : Warp) : Warp :=
  let reads := ms.flatMap fun m => match m.res with
    | .ok (.stream k, _) => (performers x m ls).map fun l => (k, l)
    | _ => []
  foldOver
    (fun (w : Warp) (kl : Nat × Nat) =>
      { w with
        streams := w.streams.modify kl.1 fun st =>
          if streamIndex st kl.2 < st.count then { st with reads := st.reads.insert kl.2 (st.reads.getD kl.2 0 + 1) } else st })
    w reads.eraseDups

/-- One more in a 32-bit saturating counter (R135). -/
def satInc (v : W32) : W32 := if v = 0xFFFFFFFF then v else v + 1

/-- Counts a committed bundle in the slot-fill counters of half `h` (R135): every open level whose body holds it. -/
def countSlots (pc : W32) (h : Nat) (insts : List Nat) (x : Warp) (w : Warp) : Warp :=
  let lv := (x.half h).levels
  let keys := (List.range lv.length).flatMap fun k => match lv[k]? with
    | some y =>
      if y.start.toNat ≤ pc.toNat ∧ pc.toNat ≤ y.stop.toNat then
        (List.range 18).map fun i => (k * 18 + i) * 2 + (if insts.contains i then 0 else 1)
      else []
    | none => []
  if keys.isEmpty then w
  else w.modHalf h fun y =>
    { y with counters := foldOver (fun (m : FMap W32) k => m.modifyD k 0 satInc) y.counters keys }

/-- The unfilled result elements of a warp, by unit and lane, of live lanes (R100). -/
def Warp.unfilled (w : Warp) : List (Nat × Nat) :=
  w.ports.entries.flatMap fun e =>
    (e.2.y.entries.filter fun y => !y.2.filled && (w.lane y.1).live).map fun y => (e.1, y.1)

/-- Is the issue that a warp makes next a trap of seq.trap, taken after its commit (R145)? Its lanes and codes. -/
def userTrap (wr : Warp) (ts : List (Nat × OpSpec × List Nat)) (pc : W32) : Option TrapReq :=
  match firstWhere (fun (y : Nat × OpSpec × List Nat) => y.2.1.unit == unitSeq && y.2.1.opc == 13) ts with
  | none => none
  | some y =>
    if y.2.2.isEmpty then none
    else
      some
        { code := codeUser, cls := 0, faultMask := slotMask [y.1], lanes := y.2.2, pc := pc, post := true, reads := [],
          detail := foldOver
            (fun (d : FMap W64) l => d.insert l (BitVec.ofNat 64 (bitsOf (wr.port unitSeq offA l) 15 0))) .empty y.2.2,
          from_ := 0, rungOut := 0 }

/-- Starts the operations of a bundle: those of mem0, then mem1, then the rest by slot (R33, R48, R89 step 3). `seq.loop` acts on the lanes that do not perform
it too (spec/03_warp_sequencer.md R130) (DEDUCED, notes/assumptions/44.md). -/
def startAll (s : State) (w : WRef) (pre : Warp) (ls : List Nat) (pc : W32) (ts : List (Nat × OpSpec × List Nat)) : State :=
  let order := (ts.filter fun y => y.2.1.unit == 8) ++ (ts.filter fun y => y.2.1.unit == 9) ++
    ts.filter fun y => y.2.1.unit != 8 && y.2.1.unit != 9
  foldOver
    (fun s (y : Nat × OpSpec × List Nat) =>
      if y.2.2.isEmpty && !(y.2.1.unit == unitSeq && y.2.1.opc == 5) then s
      else
        let (id, s1) := takeId s
        let s2 := s1.modWarp w fun x => foldOver (fun x l => x.trigger y.2.1.unit id l) x y.2.2
        y.2.1.start s2 { w := w, id := id, lanes := y.2.2, active := ls, pc := pc, pre := pre })
    s order

/-- A performed issue of the warp: ages, its own and its team's counts and holds (R24, R27, R93, R96, R100, R148, R150). -/
def afterIssue (s : State) (w : WRef) (c : Choice) (commits : Bool) : State :=
  let s1 := s.modTeam w.team fun t =>
    if commits then
      { t with
        lastIssue := s.clk, lastCommit := s.clk, barWait := 0,
        warps := t.warps.map fun x => { x with boost := false } }
    else { t with lastIssue := s.clk }
  s1.modWarp w fun x =>
    { x.updateAges c with
      readyWait := if commits then 0 else x.readyWait, replayPc := if x.replayPc = some c.pc then none else x.replayPc,
      split := none, marker := [],
      delayTo := Nat.max x.delayTo (s.clk + 1),
      committed := if commits then x.committed + 1 else x.committed }

/-- The commit of a bundle for the lanes `ls` of its active lanes (R78, R89, R100, R119). -/
def commitMoves (s : State) (w : WRef) (t : Team) (x : Warp) (c : Choice) (h : Header) (ms : List RMove)
    (ls : List Nat) : State :=
  let ts := triggersOf x ls ms
  let wr := writeAll s t w.warp x (maskOf c.active) c.pc ls ms
  let user := userTrap wr ts c.pc
  let halves := if x.w32 then [0, 1].filter fun k => ls.any fun l => x.halfOf l == k else [0]
  let counted := foldOver
    (fun w k => countSlots c.pc k
      (ts.filterMap fun y => if y.2.2.any fun l => x.halfOf l == k then some y.2.1.unit else none) x w)
    (advanceStreams x ls ms wr) halves
  let s1 := s.setWarp w counted
  let s2 := startAll s1 w x ls c.pc ts
  let s3 := match h.cfg with
    | some g => s2.modTeam w.team fun t => t.writeScale s.clk (cfgWrites g)
    | none => s2
  let set := ts.flatMap fun y => y.2.1.setsPc wr y.2.2 ls
  let s4 := s3.modWarp w fun y => y.stepLanes c.pc (c.active.filter fun l => !set.contains l)
  let s5 := afterIssue s4 w c true
  let s6 := s5.modWarp w fun y =>
    { y with
      delayTo := if y.sched then s.clk + 1 + h.d else s.clk + 1,
      marker := if h.sw then y.unfilled else [] }
  let s7 := countEvent s6 t.core 0x01
  match user with
  | some q => takeTrap s7 w q
  | none => s7

/-- The skip of a bundle: its active lanes step on (R93). -/
def skipMoves (s : State) (w : WRef) (c : Choice) : State :=
  afterIssue (s.modWarp w fun y => y.stepLanes c.pc c.active) w c false

/-- Do two logical units that the bundle triggers share one physical unit of the quad (R102, R103)? (DEDUCED, notes/assumptions/8.md). -/
def needsSplit (s : State) (t : Team) (x : Warp) (ls : List Nat) (ms : List RMove) : Bool :=
  let us := (triggersOf x ls ms).filterMap fun y => if y.2.2.isEmpty then none else some y.2.1.unit
  let bits := ((firstWhere (fun (e : Nat × Nat) => e.1 == 4 * t.core + x.quad) s.ldr.grade.pairs).map Prod.snd).getD 0
  let both := fun a b => us.contains a && us.contains b
  (bits % 2 == 1 && both 0 1) || (bits / 2 % 2 == 1 && both 3 4) || (bits / 4 % 2 == 1 && both 8 9)

/-- Does a user trap of this bundle find no permit (R438: the bundle does not commit)? -/
def userHeld (s : State) (w : WRef) (t : Team) (x : Warp) (c : Choice) (ms : List RMove) (ls : List Nat) : Bool :=
  let ts := triggersOf x ls ms
  match userTrap (writeAll s t w.warp x (maskOf c.active) c.pc ls ms) ts c.pc with
  | some q => !trapHasPermit s w q
  | none => false

/-- A warp's bundle issues (R89): it traps, is replayed, held, skipped, begins the first part of a split, or commits. -/
def issueMoves (s : State) (h : Header) (ms : State → Team → Warp → List RMove) : State :=
  match s.issuing with
  | none => s
  | some w =>
    match s.team? w.team, s.warp? w with
    | some t, some x =>
      match x.chooseAt s.clk with
      | none => s
      | some c =>
        let mv := ms s t x
        match planMoves s t w.warp x c h mv with
        | .trap q => takeTrap s w q
        | .replay => s.modWarp w fun y => { y with replayTo := s.clk + 3, replayPc := some c.pc }
        | .hold => s
        | .skip => skipMoves s w c
        | .commit ls =>
          if userHeld s w t x c mv ls then backOff s w
          else if needsSplit s t x ls mv && !x.inSplit s.clk c then
            (s.modWarp w fun y => { y with split := some (s.clk + 1, c) }).modQuad t.core x.quad fun q =>
              { q with busy := s.clk + 1 }
          else commitMoves s w t x c h mv ls
    | _, _ => s

/-- The plan that an issue of the current warp would come to, for the quad's choice. -/
def planIssue (s : State) (w : WRef) (h : Header) (ms : State → Team → Warp → List RMove) : Plan :=
  match s.team? w.team, s.warp? w with
  | some t, some x =>
    match x.chooseAt s.clk with
    | none => .hold
    | some c => planMoves s t w.warp x c h (ms s t x)
  | _, _ => .hold

/-! ## One move alone -/

/-- The source of a lone trigger resolved for its warp. -/
def loneSource (s : State) (t : Team) (x : Warp) : Src → Option RSrc
  | .port c => resolveSrc s t x.budget c.toNat
  | .imm v => some (.imm v)
  | .const v => some (.const v)

/-- A lone move to a destination; class 3 where its source, or the destination's unit, is not there for the warp. -/
def loneMove (d : Dest) (t : Trig) (s : State) (tm : Team) (x : Warp) : List RMove :=
  let there := match d with
    | .trig o => populated s tm o.unit
    | .plain _ => true
  [{ slot := 0, g := t.g.toNat, ng := t.ng,
     res := match loneSource s tm x t.src, there with
       | some r, true => .ok (r, d)
       | _, _ => .error (3, codeIllegalPort) }]

/-- A trigger of an opcode, alone in its bundle, is issued for the current warp. -/
def issueOne (o : OpSpec) (t : Trig) (s : State) : Host.Outcome State Fault Refusal :=
  .next (issueMoves s Header.plain (loneMove (.trig o) t))

end Sys2Proof.Machine
end

