-- ==== Sys2Proof/Machine/LaneUnit.lean ====
section
/-! DEFINITION. What the lane function units share: the check of their mode port, starting a result that fills after
its latency, and the fill itself (spec/04_lane_units.md R157 to R165, R194). -/

namespace Sys2Proof.Machine

/-- The lanes of `ls` whose value `p` rejects, as a failed check of a class with a code. -/
def failLanes (cls : Nat) (code : BitVec 8) (ls : List Nat) (bad : Nat → Bool) : Option (Nat × BitVec 8 × List Nat) :=
  let f := ls.filter bad
  if f.isEmpty then none else some (cls, code, f)

/-- The lanes of `ls` in the half of lane `l`: all of them in a native warp (spec/03_warp_sequencer.md R154). -/
def Warp.sameHalf (x : Warp) (ls : List Nat) (l : Nat) : List Nat := ls.filter fun m => x.halfOf m == x.halfOf l

/-- The first of two checks that fails. -/
def orElse (a b : Option (Nat × BitVec 8 × List Nat)) : Option (Nat × BitVec 8 × List Nat) :=
  match a with
  | some x => some x
  | none => b

/-- A mode port of which every bit is reserved (R158): class 7. -/
def modeZero (u : Nat) (wr : Warp) (ls : List Nat) : Option (Nat × BitVec 8 × List Nat) :=
  failLanes 7 codeIllegalOp ls fun l => wr.port u offM l != 0

/-- The quad of a warp. -/
def State.quadOf (s : State) (w : WRef) : Quad :=
  match s.team? w.team, s.warp? w with
  | some t, some x => (s.core t.core).quad x.quad
  | _, _ => Quad.start

/-- Starts a result that fills `lat` clk after the commit. -/
def startFill (u opc lat : Nat) (res : State → Warp → Begin → List LaneRes) (s : State) (b : Begin) : State :=
  s.modWarp b.w fun x =>
    { x with fills := x.fills ++ [{ id := b.id, unit := u, opc := opc, due := s.clk + lat, res := res s x b }] }

/-- The result of one lane from its operands. -/
def laneRes (x : Warp) (u : Nat) (f : W64 → W64 → W64 → W64 × W64) (l : Nat) : LaneRes :=
  let r := f (x.port u offA l) (x.port u offB l) (x.port u offC l)
  { lane := l, y := r.1, y2 := r.2, exc := 0, trap := false }

/-- A floating-point result of one lane: .y2 holds its exceptions (R159) (DEDUCED, notes/assumptions/26.md). -/
def floatRes (x : Warp) (u : Nat) (f : FEnv → W64 → W64 → W64 → FRes) (pre : Warp) (l : Nat) : LaneRes :=
  let nfr := (pre.lane l).nfr
  let r := f (envOf nfr) (x.port u offA l) (x.port u offB l) (x.port u offC l)
  { lane := l, y := BitVec.ofNat 64 r.bits, y2 := r.exc.setWidth 64, exc := r.exc, trap := meetsEnables nfr r.exc }

/-- Nothing is waited for. -/
def acceptAll (_ : State) (_ : Team) (_ : Warp) (_ : List Nat) : Bool := true

/-- No lane's PC is set. -/
def setsNone (_ : Warp) (_ _ : List Nat) : List Nat := []

/-- No result port counts as read. -/
def readsNone (_ : Warp) (_ : Nat) : List Nat := []

/-- An operation of int0, int1, cmp0 or cvt0: always accepted, of latency `lat`. -/
def laneOp (u opc lat : Nat) (res : State → Warp → Begin → List LaneRes) : OpSpec :=
  { unit := u, opc := opc, reads := readsNone, check := fun _ _ wr _ ls _ => modeZero u wr ls, accept := acceptAll,
    setsPc := setsNone, start := startFill u opc lat res }

/-- The fills of a warp that are due in clk `clk`. -/
def Warp.dueFills (x : Warp) (clk : Nat) : List Fill := x.fills.filter fun f => decide (f.due ≤ clk)

/-- One lane of a fill: .y, or an FP tag, and .y2 (R159, R164). The exceptions are raised whether or not the lane's
ports still take the result (R35, R165). -/
def fillLane (clk : Nat) (f : Fill) (x : Warp) (r : LaneRes) : Warp :=
  (x.fill f.unit f.id r.lane (resultElem r) (.value r.y2)).raise clk r.exc

/-- A fill of a warp takes place. -/
def doFill (clk : Nat) (f : Fill) (x : Warp) : Warp :=
  foldOver (fillLane clk f) { x with fills := x.fills.filter fun g => g.id != f.id } f.res

/-- Does a fill stand in the replay buffer: of fixed latency, in a warp frozen by a save or a halt before it is due (R194)? -/
def replayed (t : Team) (x : Warp) (f : Fill) : Bool :=
  fixedLatency f.unit f.opc && ((t.status != .resident && decide (t.savedAt ≤ f.due)) || x.halted.any fun e => decide (e ≤ f.due))

/-- The fill that a subject names, if it is due. -/
def dueFill (s : State) : Option (WRef × Fill) :=
  match s.subject with
  | .op w id _ =>
    match s.team? w.team, s.warp? w with
    | some t, some x =>
      (firstWhere (fun f => f.id == id && decide (f.due ≤ s.clk) && !replayed t x f) x.fills).map fun f => (w, f)
    | _, _ => none
  | _ => none

/-- A due fill of a unit kind takes place, where the subject names one (R165, R170, R177). -/
def fillEvent (p : Fill → Bool) (s : State) : Host.Outcome State Fault Refusal :=
  match dueFill s with
  | some (w, f) => .next (if p f then s.modWarp w (doFill s.clk f) else s)
  | none => .next s

/-- LANE_RESULT_FILL (R165): a fixed-latency result. -/
def execLaneResultFill (s : State) : Host.Outcome State Fault Refusal := fillEvent (fun f => fixedLatency f.unit f.opc) s

/-- DIVISION_COMPLETE (R170). -/
def execDivisionComplete (s : State) : Host.Outcome State Fault Refusal :=
  fillEvent (fun f => f.unit == unitMul && decide (9 ≤ f.opc)) s

/-- SFN_COMPLETE (R177). -/
def execSfnComplete (s : State) : Host.Outcome State Fault Refusal := fillEvent (fun f => f.unit == unitSfn) s

end Sys2Proof.Machine
end

