-- ==== Sys2Proof/Machine/CmpUnit.lean ====
section
/-! DEFINITION. cmp0 (spec/04_lane_units.md R174 to R176). -/

namespace Sys2Proof.Machine

/-- An operation of cmp0 whose condition raises nothing: latency 1 (R174). -/
def cmpOp (opc : Nat) (p : W64 → W64 → Bool) : OpSpec :=
  laneOp unitCmp opc 1 fun _ x b => b.lanes.map (laneRes x unitCmp fun a b _ => (if p a b then 1 else 0, 0))

/-- A floating-point condition, false for NaNs; `any` where every NaN raises invalid, `onNan` its value for NaNs
(R174). Operands are flushed as the format is. -/
def floatCond (f : Fmt) (any onNan : Bool) (p : Fmt → Nat → Nat → Bool) (v : FEnv) (a b : W64) : FRes :=
  let x := flushBits f (v.fz f) a.toNat
  let y := flushBits f (v.fz f) b.toNat
  let vs := [unpack f false x, unpack f false y]
  let nan := vs.any FVal.isNan
  { bits := if (if nan then onNan else p f x y) then 1 else 0,
    exc := if any && nan then excInvalid else snanExc vs }

/-- A floating-point compare of cmp0. -/
def fcmpOp (opc : Nat) (onNan : Bool) (f : Fmt) (any : Bool) (p : Fmt → Nat → Nat → Bool) : OpSpec :=
  laneOp unitCmp opc 1 fun _ x b =>
    b.lanes.map (floatRes x unitCmp (fun v a b _ => floatCond f any onNan p v a b) b.pre)

/-- The class bit of raw binary32 bits (R175). -/
def classOf (x : Nat) : Nat :=
  let neg := x / 2 ^ 31 % 2 == 1
  match unpack f32 false x with
  | .nan _ _ s => if s then 0 else 1
  | .inf _ => if neg then 2 else 9
  | .fin _ m _ =>
    if m = 0 then (if neg then 5 else 6)
    else if x / 2 ^ 23 % 256 = 0 then (if neg then 4 else 7)
    else if neg then 3 else 8

/-- A warp-wide operation of cmp0 over the performing lanes and their test of .a (R176). -/
def voteOp (opc : Nat) (f : Warp → List Nat → (Nat → Bool) → W64) : OpSpec :=
  laneOp unitCmp opc 1 fun _ x b => b.lanes.map fun l =>
    { lane := l, y := f x (x.sameHalf b.lanes l) (fun m => x.port unitCmp offA m != 0), y2 := 0, exc := 0,
      trap := false }

/-- cmp0.eq (R174). -/
def opCmpEq : OpSpec := cmpOp 0 fun a b => lo32 a == lo32 b

/-- eq is issued. -/
def execCmpEq (t : Trig) (s : State) : Host.Outcome State Fault Refusal := issueOne opCmpEq t s

/-- cmp0.ne (R174). -/
def opCmpNe : OpSpec := cmpOp 1 fun a b => lo32 a != lo32 b

/-- ne is issued. -/
def execCmpNe (t : Trig) (s : State) : Host.Outcome State Fault Refusal := issueOne opCmpNe t s

/-- cmp0.lt.s32 (R174). -/
def opCmpLtS32 : OpSpec := cmpOp 2 fun a b => decide (s32 a < s32 b)

/-- lt.s32 is issued. -/
def execCmpLtS32 (t : Trig) (s : State) : Host.Outcome State Fault Refusal := issueOne opCmpLtS32 t s

/-- cmp0.le.s32 (R174). -/
def opCmpLeS32 : OpSpec := cmpOp 3 fun a b => decide (s32 a ≤ s32 b)

/-- le.s32 is issued. -/
def execCmpLeS32 (t : Trig) (s : State) : Host.Outcome State Fault Refusal := issueOne opCmpLeS32 t s

/-- cmp0.lt.u32 (R174). -/
def opCmpLtU32 : OpSpec := cmpOp 4 fun a b => decide (u32 a < u32 b)

/-- lt.u32 is issued. -/
def execCmpLtU32 (t : Trig) (s : State) : Host.Outcome State Fault Refusal := issueOne opCmpLtU32 t s

/-- cmp0.le.u32 (R174). -/
def opCmpLeU32 : OpSpec := cmpOp 5 fun a b => decide (u32 a ≤ u32 b)

/-- le.u32 is issued. -/
def execCmpLeU32 (t : Trig) (s : State) : Host.Outcome State Fault Refusal := issueOne opCmpLeU32 t s

/-- cmp0.eq64 (R174). -/
def opCmpEq64 : OpSpec := cmpOp 6 fun a b => a == b

/-- eq64 is issued. -/
def execCmpEq64 (t : Trig) (s : State) : Host.Outcome State Fault Refusal := issueOne opCmpEq64 t s

/-- cmp0.lt.s64 (R174). -/
def opCmpLtS64 : OpSpec := cmpOp 7 fun a b => decide (a.toInt < b.toInt)

/-- lt.s64 is issued. -/
def execCmpLtS64 (t : Trig) (s : State) : Host.Outcome State Fault Refusal := issueOne opCmpLtS64 t s

/-- cmp0.lt.u64 (R174). -/
def opCmpLtU64 : OpSpec := cmpOp 8 fun a b => decide (a.toNat < b.toNat)

/-- lt.u64 is issued. -/
def execCmpLtU64 (t : Trig) (s : State) : Host.Outcome State Fault Refusal := issueOne opCmpLtU64 t s

/-- cmp0.feq.f32 (R174). -/
def opCmpFeqF32 : OpSpec := fcmpOp 9 false f32 false eqBits

/-- feq.f32 is issued. -/
def execCmpFeqF32 (t : Trig) (s : State) : Host.Outcome State Fault Refusal := issueOne opCmpFeqF32 t s

/-- cmp0.flt.f32 (R174). -/
def opCmpFltF32 : OpSpec := fcmpOp 10 false f32 true ltBits

/-- flt.f32 is issued. -/
def execCmpFltF32 (t : Trig) (s : State) : Host.Outcome State Fault Refusal := issueOne opCmpFltF32 t s

/-- cmp0.fle.f32 (R174). -/
def opCmpFleF32 : OpSpec := fcmpOp 11 false f32 true (fun f a b => ltBits f a b || eqBits f a b)

/-- fle.f32 is issued. -/
def execCmpFleF32 (t : Trig) (s : State) : Host.Outcome State Fault Refusal := issueOne opCmpFleF32 t s

/-- cmp0.fun.f32 (R174). -/
def opCmpFunF32 : OpSpec := fcmpOp 12 true f32 false (fun _ _ _ => false)

/-- fun.f32 is issued. -/
def execCmpFunF32 (t : Trig) (s : State) : Host.Outcome State Fault Refusal := issueOne opCmpFunF32 t s

/-- cmp0.flt.f64 (R174). -/
def opCmpFltF64 : OpSpec := fcmpOp 13 false f64 true ltBits

/-- flt.f64 is issued. -/
def execCmpFltF64 (t : Trig) (s : State) : Host.Outcome State Fault Refusal := issueOne opCmpFltF64 t s

/-- cmp0.feq.f64 (R174). -/
def opCmpFeqF64 : OpSpec := fcmpOp 14 false f64 false eqBits

/-- feq.f64 is issued. -/
def execCmpFeqF64 (t : Trig) (s : State) : Host.Outcome State Fault Refusal := issueOne opCmpFeqF64 t s

/-- cmp0.class.f32 (R174). -/
def opCmpClassF32 : OpSpec := cmpOp 15 fun a b => b.getLsbD (classOf (u32 a))

/-- class.f32 is issued. -/
def execCmpClassF32 (t : Trig) (s : State) : Host.Outcome State Fault Refusal := issueOne opCmpClassF32 t s

/-- cmp0.tstz (R174). -/
def opCmpTstz : OpSpec := cmpOp 16 fun a b => a &&& b == 0

/-- tstz is issued. -/
def execCmpTstz (t : Trig) (s : State) : Host.Outcome State Fault Refusal := issueOne opCmpTstz t s

/-- cmp0.any (R176). -/
def opCmpAny : OpSpec := voteOp 17 fun _ ls set => if ls.any set then 1 else 0

/-- any is issued. -/
def execCmpAny (t : Trig) (s : State) : Host.Outcome State Fault Refusal := issueOne opCmpAny t s

/-- cmp0.all (R176). -/
def opCmpAll : OpSpec := voteOp 18 fun _ ls set => if ls.all set then 1 else 0

/-- all is issued. -/
def execCmpAll (t : Trig) (s : State) : Host.Outcome State Fault Refusal := issueOne opCmpAll t s

/-- cmp0.ballot (R176). -/
def opCmpBallot : OpSpec := voteOp 19 fun x ls set => maskOf ((ls.filter set).map x.laneNo)

/-- ballot is issued. -/
def execCmpBallot (t : Trig) (s : State) : Host.Outcome State Fault Refusal := issueOne opCmpBallot t s

/-- The operations of cmp0, by opcode. -/
def cmpOps : List OpSpec :=
  [opCmpEq, opCmpNe, opCmpLtS32, opCmpLeS32, opCmpLtU32, opCmpLeU32,
    opCmpEq64, opCmpLtS64, opCmpLtU64, opCmpFeqF32, opCmpFltF32, opCmpFleF32,
    opCmpFunF32, opCmpFltF64, opCmpFeqF64, opCmpClassF32, opCmpTstz, opCmpAny,
    opCmpAll, opCmpBallot]

end Sys2Proof.Machine
end

