-- ==== Sys2Proof/Machine/IntUnit.lean ====
section
/-! DEFINITION. int0 and int1 (spec/04_lane_units.md R166 to R168). -/

namespace Sys2Proof.Machine

/-- 32-bit shift left by a 64-bit count (R166). -/
def shl32 (a : W32) (k : W64) : W32 := if 32 ≤ k.toNat then 0 else a <<< k.toNat

/-- 32-bit logical shift right by a 64-bit count (R166). -/
def shr32 (a : W32) (k : W64) : W32 := if 32 ≤ k.toNat then 0 else a >>> k.toNat

/-- 32-bit arithmetic shift right by a 64-bit count (R166). -/
def sar32 (a : W32) (k : W64) : W32 :=
  if 32 ≤ k.toNat then (if a.getLsbD 31 then 0xFFFFFFFF else 0) else a.sshiftRight k.toNat

/-- The absolute value, with status 0x04 for the most negative number (R166). -/
def absRes (a : W64) : W64 × W64 :=
  (zext32 (BitVec.ofInt 32 (s32 a).natAbs), if lo32 a = 0x80000000 then 4 else 0)

/-- A sum clamped to signed 32 bits, with status 0x04 where it was clamped (R166). -/
def clampS32 (x : Int) : W64 × W64 :=
  let y := satInt x (-(2 ^ 31)) (2 ^ 31 - 1)
  (zext32 (BitVec.ofInt 32 y), if y = x then 0 else 4)

/-- Effective length of a field control word (R167). -/
def fieldLen (k : W32) : Nat := Nat.min (k.toNat / 256 % 64) (32 - k.toNat % 32)

/-- Field extract (R167). -/
def bfx (a k : W32) : W32 :=
  let n := fieldLen k
  let f := (a.toNat / 2 ^ (k.toNat % 32)) % 2 ^ n
  if k.getLsbD 16 && n != 0 then BitVec.ofInt 32 (sextNat f n) else BitVec.ofNat 32 f

/-- Field insert (R167). -/
def bfi (a b k : W32) : W32 :=
  let mask : W32 := BitVec.ofNat 32 (2 ^ fieldLen k - 1)
  let pos := k.toNat % 32
  (a &&& ~~~(mask <<< pos)) ||| ((b &&& mask) <<< pos)

/-- An operation of int0 or int1, of latency 1 (R166). -/
def intOp (u : Fin 2) (opc : Nat) (f : W64 → W64 → W64 → W64 × W64) : OpSpec :=
  laneOp (unitInt u) opc 1 fun _ x b => b.lanes.map (laneRes x (unitInt u) f)

/-- int.add (R166). -/
def opIntAdd (u : Fin 2) : OpSpec := intOp u 0 fun a b _ => (zext32 (lo32 a + lo32 b), 0)

/-- add is issued. -/
def execIntAdd (u : Fin 2) (t : Trig) (s : State) : Host.Outcome State Fault Refusal := issueOne (opIntAdd u) t s

/-- int.sub (R166). -/
def opIntSub (u : Fin 2) : OpSpec := intOp u 1 fun a b _ => (zext32 (lo32 a - lo32 b), 0)

/-- sub is issued. -/
def execIntSub (u : Fin 2) (t : Trig) (s : State) : Host.Outcome State Fault Refusal := issueOne (opIntSub u) t s

/-- int.add64 (R166). -/
def opIntAdd64 (u : Fin 2) : OpSpec := intOp u 2 fun a b _ => (a + b, 0)

/-- add64 is issued. -/
def execIntAdd64 (u : Fin 2) (t : Trig) (s : State) : Host.Outcome State Fault Refusal := issueOne (opIntAdd64 u) t s

/-- int.sub64 (R166). -/
def opIntSub64 (u : Fin 2) : OpSpec := intOp u 3 fun a b _ => (a - b, 0)

/-- sub64 is issued. -/
def execIntSub64 (u : Fin 2) (t : Trig) (s : State) : Host.Outcome State Fault Refusal := issueOne (opIntSub64 u) t s

/-- int.and (R166). -/
def opIntAnd (u : Fin 2) : OpSpec := intOp u 4 fun a b _ => (a &&& b, 0)

/-- and is issued. -/
def execIntAnd (u : Fin 2) (t : Trig) (s : State) : Host.Outcome State Fault Refusal := issueOne (opIntAnd u) t s

/-- int.or (R166). -/
def opIntOr (u : Fin 2) : OpSpec := intOp u 5 fun a b _ => (a ||| b, 0)

/-- or is issued. -/
def execIntOr (u : Fin 2) (t : Trig) (s : State) : Host.Outcome State Fault Refusal := issueOne (opIntOr u) t s

/-- int.xor (R166). -/
def opIntXor (u : Fin 2) : OpSpec := intOp u 6 fun a b _ => (a ^^^ b, 0)

/-- xor is issued. -/
def execIntXor (u : Fin 2) (t : Trig) (s : State) : Host.Outcome State Fault Refusal := issueOne (opIntXor u) t s

/-- int.andn (R166). -/
def opIntAndn (u : Fin 2) : OpSpec := intOp u 7 fun a b _ => (a &&& ~~~b, 0)

/-- andn is issued. -/
def execIntAndn (u : Fin 2) (t : Trig) (s : State) : Host.Outcome State Fault Refusal := issueOne (opIntAndn u) t s

/-- int.shl (R166). -/
def opIntShl (u : Fin 2) : OpSpec := intOp u 8 fun a b _ => (zext32 (shl32 (lo32 a) b), 0)

/-- shl is issued. -/
def execIntShl (u : Fin 2) (t : Trig) (s : State) : Host.Outcome State Fault Refusal := issueOne (opIntShl u) t s

/-- int.shr (R166). -/
def opIntShr (u : Fin 2) : OpSpec := intOp u 9 fun a b _ => (zext32 (shr32 (lo32 a) b), 0)

/-- shr is issued. -/
def execIntShr (u : Fin 2) (t : Trig) (s : State) : Host.Outcome State Fault Refusal := issueOne (opIntShr u) t s

/-- int.sar (R166). -/
def opIntSar (u : Fin 2) : OpSpec := intOp u 10 fun a b _ => (zext32 (sar32 (lo32 a) b), 0)

/-- sar is issued. -/
def execIntSar (u : Fin 2) (t : Trig) (s : State) : Host.Outcome State Fault Refusal := issueOne (opIntSar u) t s

/-- int.shl64 (R166). -/
def opIntShl64 (u : Fin 2) : OpSpec := intOp u 11 fun a b _ => (if 64 ≤ b.toNat then 0 else a <<< b.toNat, 0)

/-- shl64 is issued. -/
def execIntShl64 (u : Fin 2) (t : Trig) (s : State) : Host.Outcome State Fault Refusal := issueOne (opIntShl64 u) t s

/-- int.shr64 (R166). -/
def opIntShr64 (u : Fin 2) : OpSpec := intOp u 12 fun a b _ => (if 64 ≤ b.toNat then 0 else a >>> b.toNat, 0)

/-- shr64 is issued. -/
def execIntShr64 (u : Fin 2) (t : Trig) (s : State) : Host.Outcome State Fault Refusal := issueOne (opIntShr64 u) t s

/-- int.sar64 (R166). -/
def opIntSar64 (u : Fin 2) : OpSpec := intOp u 13 fun a b _ => (a.sshiftRight (Nat.min b.toNat 63), 0)

/-- sar64 is issued. -/
def execIntSar64 (u : Fin 2) (t : Trig) (s : State) : Host.Outcome State Fault Refusal := issueOne (opIntSar64 u) t s

/-- int.min.s32 (R166). -/
def opIntMinS32 (u : Fin 2) : OpSpec := intOp u 14 fun a b _ => (zext32 (if s32 a ≤ s32 b then lo32 a else lo32 b), 0)

/-- min.s32 is issued. -/
def execIntMinS32 (u : Fin 2) (t : Trig) (s : State) : Host.Outcome State Fault Refusal :=
  issueOne (opIntMinS32 u) t s

/-- int.max.s32 (R166). -/
def opIntMaxS32 (u : Fin 2) : OpSpec := intOp u 15 fun a b _ => (zext32 (if s32 a ≤ s32 b then lo32 b else lo32 a), 0)

/-- max.s32 is issued. -/
def execIntMaxS32 (u : Fin 2) (t : Trig) (s : State) : Host.Outcome State Fault Refusal :=
  issueOne (opIntMaxS32 u) t s

/-- int.min.u32 (R166). -/
def opIntMinU32 (u : Fin 2) : OpSpec := intOp u 16 fun a b _ => (zext32 (if u32 a ≤ u32 b then lo32 a else lo32 b), 0)

/-- min.u32 is issued. -/
def execIntMinU32 (u : Fin 2) (t : Trig) (s : State) : Host.Outcome State Fault Refusal :=
  issueOne (opIntMinU32 u) t s

/-- int.max.u32 (R166). -/
def opIntMaxU32 (u : Fin 2) : OpSpec := intOp u 17 fun a b _ => (zext32 (if u32 a ≤ u32 b then lo32 b else lo32 a), 0)

/-- max.u32 is issued. -/
def execIntMaxU32 (u : Fin 2) (t : Trig) (s : State) : Host.Outcome State Fault Refusal :=
  issueOne (opIntMaxU32 u) t s

/-- int.min.s64 (R166). -/
def opIntMinS64 (u : Fin 2) : OpSpec := intOp u 18 fun a b _ => (if a.toInt ≤ b.toInt then a else b, 0)

/-- min.s64 is issued. -/
def execIntMinS64 (u : Fin 2) (t : Trig) (s : State) : Host.Outcome State Fault Refusal :=
  issueOne (opIntMinS64 u) t s

/-- int.max.s64 (R166). -/
def opIntMaxS64 (u : Fin 2) : OpSpec := intOp u 19 fun a b _ => (if a.toInt ≤ b.toInt then b else a, 0)

/-- max.s64 is issued. -/
def execIntMaxS64 (u : Fin 2) (t : Trig) (s : State) : Host.Outcome State Fault Refusal :=
  issueOne (opIntMaxS64 u) t s

/-- int.sel (R166). -/
def opIntSel (u : Fin 2) : OpSpec := intOp u 20 fun a b c => (if c = 0 then b else a, 0)

/-- sel is issued. -/
def execIntSel (u : Fin 2) (t : Trig) (s : State) : Host.Outcome State Fault Refusal := issueOne (opIntSel u) t s

/-- int.abs (R166). -/
def opIntAbs (u : Fin 2) : OpSpec := intOp u 21 fun a _ _ => absRes a

/-- abs is issued. -/
def execIntAbs (u : Fin 2) (t : Trig) (s : State) : Host.Outcome State Fault Refusal := issueOne (opIntAbs u) t s

/-- int.clz (R166). -/
def opIntClz (u : Fin 2) : OpSpec := intOp u 22 fun a _ _ => (BitVec.ofNat 64 (32 - sigBits (u32 a)), 0)

/-- clz is issued. -/
def execIntClz (u : Fin 2) (t : Trig) (s : State) : Host.Outcome State Fault Refusal := issueOne (opIntClz u) t s

/-- int.popc (R166). -/
def opIntPopc (u : Fin 2) : OpSpec := intOp u 23 fun a _ _ => (BitVec.ofNat 64 (lanesOf a).length, 0)

/-- popc is issued. -/
def execIntPopc (u : Fin 2) (t : Trig) (s : State) : Host.Outcome State Fault Refusal := issueOne (opIntPopc u) t s

/-- int.brev (R166). -/
def opIntBrev (u : Fin 2) : OpSpec := intOp u 24 fun a _ _ => (zext32 (lo32 a).reverse, 0)

/-- brev is issued. -/
def execIntBrev (u : Fin 2) (t : Trig) (s : State) : Host.Outcome State Fault Refusal := issueOne (opIntBrev u) t s

/-- int.bfx (R166). -/
def opIntBfx (u : Fin 2) : OpSpec := intOp u 25 fun a b _ => (zext32 (bfx (lo32 a) (lo32 b)), 0)

/-- bfx is issued. -/
def execIntBfx (u : Fin 2) (t : Trig) (s : State) : Host.Outcome State Fault Refusal := issueOne (opIntBfx u) t s

/-- int.bfi (R166). -/
def opIntBfi (u : Fin 2) : OpSpec := intOp u 26 fun a b c => (zext32 (bfi (lo32 a) (lo32 b) (lo32 c)), 0)

/-- bfi is issued. -/
def execIntBfi (u : Fin 2) (t : Trig) (s : State) : Host.Outcome State Fault Refusal := issueOne (opIntBfi u) t s

/-- int.addsat.s32 (R166). -/
def opIntAddsatS32 (u : Fin 2) : OpSpec := intOp u 27 fun a b _ => clampS32 (s32 a + s32 b)

/-- addsat.s32 is issued. -/
def execIntAddsatS32 (u : Fin 2) (t : Trig) (s : State) : Host.Outcome State Fault Refusal :=
  issueOne (opIntAddsatS32 u) t s

/-- int.subsat.s32 (R166). -/
def opIntSubsatS32 (u : Fin 2) : OpSpec := intOp u 28 fun a b _ => clampS32 (s32 a - s32 b)

/-- subsat.s32 is issued. -/
def execIntSubsatS32 (u : Fin 2) (t : Trig) (s : State) : Host.Outcome State Fault Refusal :=
  issueOne (opIntSubsatS32 u) t s

/-- int.lea (R166), which fails with ILLEGAL-OP where .c exceeds 3 (R168). -/
def opIntLea (u : Fin 2) : OpSpec :=
  let o := intOp u 29 fun a b c => (a + ((lo32 b).signExtend 64 <<< c.toNat), 0)
  { o with
    check := fun s t wr x ls pc => orElse (o.check s t wr x ls pc)
      (failLanes 8 codeIllegalOp ls fun l => decide (3 < (wr.port (unitInt u) offC l).toNat)) }

/-- lea is issued. -/
def execIntLea (u : Fin 2) (t : Trig) (s : State) : Host.Outcome State Fault Refusal := issueOne (opIntLea u) t s

/-- int.pass (R166). -/
def opIntPass (u : Fin 2) : OpSpec := intOp u 30 fun a _ _ => (a, 0)

/-- pass is issued. -/
def execIntPass (u : Fin 2) (t : Trig) (s : State) : Host.Outcome State Fault Refusal := issueOne (opIntPass u) t s

/-- The operations of int0 and int1, by opcode. -/
def intOps (u : Fin 2) : List OpSpec :=
  [opIntAdd u, opIntSub u, opIntAdd64 u, opIntSub64 u, opIntAnd u, opIntOr u,
    opIntXor u, opIntAndn u, opIntShl u, opIntShr u, opIntSar u, opIntShl64 u,
    opIntShr64 u, opIntSar64 u, opIntMinS32 u, opIntMaxS32 u, opIntMinU32 u, opIntMaxU32 u,
    opIntMinS64 u, opIntMaxS64 u, opIntSel u, opIntAbs u, opIntClz u, opIntPopc u,
    opIntBrev u, opIntBfx u, opIntBfi u, opIntAddsatS32 u, opIntSubsatS32 u, opIntLea u,
    opIntPass u]

end Sys2Proof.Machine
end

