-- ==== Sys2Proof/Machine/MulUnit.lean ====
section
/-! DEFINITION. mul0: multiplication and division (spec/04_lane_units.md R169, R170). -/

namespace Sys2Proof.Machine

/-- The sum of the products of `n` signed parts of `w` bits. -/
def dotParts (w : Nat) : Nat → W64 → W64 → Int
  | 0, _, _ => 0
  | n + 1, a, b => sextNat (a.toNat / 2 ^ (w * n)) w * sextNat (b.toNat / 2 ^ (w * n)) w + dotParts w n a b

/-- Unsigned division: quotient and status (R169). -/
def divU (a b : W64) : W64 × W64 :=
  if u32 b = 0 then (0xFFFFFFFF, 8) else (BitVec.ofNat 64 (u32 a / u32 b), 0)

/-- Signed truncating division (R169). -/
def divS (a b : W64) : W64 × W64 :=
  if u32 b = 0 then (if 0 ≤ s32 a then 0x7FFFFFFF else 0x80000000, 8)
  else if s32 a = -(2 ^ 31) ∧ s32 b = -1 then (0x80000000, 4)
  else (zext32 (BitVec.ofInt 32 (Int.tdiv (s32 a) (s32 b))), 0)

/-- Unsigned remainder (R169). -/
def remU (a b : W64) : W64 × W64 :=
  if u32 b = 0 then (zext32 (lo32 a), 8) else (BitVec.ofNat 64 (u32 a % u32 b), 0)

/-- Signed remainder, with the sign of the dividend (R169). -/
def remS (a b : W64) : W64 × W64 :=
  if u32 b = 0 then (zext32 (lo32 a), 8) else (zext32 (BitVec.ofInt 32 (Int.tmod (s32 a) (s32 b))), 0)

/-- Does the warp's own division still run? A trigger of mul0 waits for it (R170). -/
def ownDivision (x : Warp) : Bool := x.fills.any fun f => f.unit == unitMul && decide (9 ≤ f.opc)

/-- A multiplication: latency 3 (R169). -/
def mulOp (opc : Nat) (f : W64 → W64 → W64 → W64) : OpSpec :=
  { laneOp unitMul opc 3 fun _ x b => b.lanes.map (laneRes x unitMul fun a b c => (f a b c, 0)) with
    accept := fun _ _ x _ => !ownDivision x }

/-- The significant bits of the truncated quotient of a lane, 0 for a zero divisor (R170). -/
def quotientBits (signed : Bool) (a b : W64) : Nat :=
  if u32 b = 0 then 0
  else if signed then sigBits ((s32 a).natAbs / (s32 b).natAbs)
  else sigBits (u32 a / u32 b)

/-- The latency of a division (R170). -/
def divLatency (signed : Bool) (x : Warp) (ls : List Nat) : Nat :=
  20 + (maxOf (ls.map fun l => quotientBits signed (x.port unitMul offA l) (x.port unitMul offB l)) + 1) / 2

/-- Starts a division: the quad's divider is taken until it fills. -/
def startDivision (opc : Nat) (signed : Bool) (f : W64 → W64 → W64 × W64) (s : State) (b : Begin) : State :=
  match s.warp? b.w with
  | none => s
  | some x =>
    let lat := divLatency signed x b.lanes
    let s1 := startFill unitMul opc lat (fun _ x b => b.lanes.map (laneRes x unitMul fun a b _ => f a b)) s b
    s1.modQuad (s.coreOf b.w.team) x.quad fun q => { q with divFree := s.clk + lat }

/-- A division: one in flight per quad (R170). -/
def divOp (opc : Nat) (signed : Bool) (f : W64 → W64 → W64 × W64) : OpSpec :=
  { laneOp unitMul opc 0 (fun _ _ _ => []) with
    accept := fun s t x _ => !ownDivision x && decide (((s.core t.core).quad x.quad).divFree ≤ s.clk)
    start := startDivision opc signed f }

/-- mul0.mul.lo (R169). -/
def opMulLo : OpSpec := mulOp 0 fun a b _ => zext32 (lo32 a * lo32 b)

/-- mul.lo is issued. -/
def execMulLo (t : Trig) (s : State) : Host.Outcome State Fault Refusal := issueOne opMulLo t s

/-- mul0.mulhi.s32 (R169). -/
def opMulhiS32 : OpSpec := mulOp 1 fun a b _ => zext32 (BitVec.ofInt 32 (s32 a * s32 b / 2 ^ 32))

/-- mulhi.s32 is issued. -/
def execMulhiS32 (t : Trig) (s : State) : Host.Outcome State Fault Refusal := issueOne opMulhiS32 t s

/-- mul0.mulhi.u32 (R169). -/
def opMulhiU32 : OpSpec := mulOp 2 fun a b _ => BitVec.ofNat 64 (u32 a * u32 b / 2 ^ 32)

/-- mulhi.u32 is issued. -/
def execMulhiU32 (t : Trig) (s : State) : Host.Outcome State Fault Refusal := issueOne opMulhiU32 t s

/-- mul0.mad.lo (R169). -/
def opMadLo : OpSpec := mulOp 3 fun a b c => zext32 (lo32 a * lo32 b + lo32 c)

/-- mad.lo is issued. -/
def execMadLo (t : Trig) (s : State) : Host.Outcome State Fault Refusal := issueOne opMadLo t s

/-- mul0.mulw.s32 (R169). -/
def opMulwS32 : OpSpec := mulOp 4 fun a b _ => BitVec.ofInt 64 (s32 a * s32 b)

/-- mulw.s32 is issued. -/
def execMulwS32 (t : Trig) (s : State) : Host.Outcome State Fault Refusal := issueOne opMulwS32 t s

/-- mul0.mulw.u32 (R169). -/
def opMulwU32 : OpSpec := mulOp 5 fun a b _ => BitVec.ofNat 64 (u32 a * u32 b)

/-- mulw.u32 is issued. -/
def execMulwU32 (t : Trig) (s : State) : Host.Outcome State Fault Refusal := issueOne opMulwU32 t s

/-- mul0.mul64.lo (R169). -/
def opMul64Lo : OpSpec := mulOp 6 fun a b _ => a * b

/-- mul64.lo is issued. -/
def execMul64Lo (t : Trig) (s : State) : Host.Outcome State Fault Refusal := issueOne opMul64Lo t s

/-- mul0.dot4.s8 (R169). -/
def opDot4S8 : OpSpec := mulOp 7 fun a b c => zext32 (BitVec.ofInt 32 (s32 c + dotParts 8 4 a b))

/-- dot4.s8 is issued. -/
def execDot4S8 (t : Trig) (s : State) : Host.Outcome State Fault Refusal := issueOne opDot4S8 t s

/-- mul0.dot2.s16 (R169). -/
def opDot2S16 : OpSpec := mulOp 8 fun a b c => zext32 (BitVec.ofInt 32 (s32 c + dotParts 16 2 a b))

/-- dot2.s16 is issued. -/
def execDot2S16 (t : Trig) (s : State) : Host.Outcome State Fault Refusal := issueOne opDot2S16 t s

/-- mul0.div.u32 (R169, R170). -/
def opDivU32 : OpSpec := divOp 9 false divU

/-- div.u32 is issued. -/
def execDivU32 (t : Trig) (s : State) : Host.Outcome State Fault Refusal := issueOne opDivU32 t s

/-- mul0.div.s32 (R169, R170). -/
def opDivS32 : OpSpec := divOp 10 true divS

/-- div.s32 is issued. -/
def execDivS32 (t : Trig) (s : State) : Host.Outcome State Fault Refusal := issueOne opDivS32 t s

/-- mul0.rem.u32 (R169, R170). -/
def opRemU32 : OpSpec := divOp 11 false remU

/-- rem.u32 is issued. -/
def execRemU32 (t : Trig) (s : State) : Host.Outcome State Fault Refusal := issueOne opRemU32 t s

/-- mul0.rem.s32 (R169, R170). -/
def opRemS32 : OpSpec := divOp 12 true remS

/-- rem.s32 is issued. -/
def execRemS32 (t : Trig) (s : State) : Host.Outcome State Fault Refusal := issueOne opRemS32 t s

/-- The operations of mul0, by opcode. -/
def mulOps : List OpSpec :=
  [opMulLo, opMulhiS32, opMulhiU32, opMadLo, opMulwS32, opMulwU32,
    opMul64Lo, opDot4S8, opDot2S16, opDivU32, opDivS32, opRemU32,
    opRemS32]

end Sys2Proof.Machine
end

