-- ==== Sys2Proof/Machine/Approx.lean ====
section
/-! DEFINITION. The real values that sfn0 approximates, in fixed point, and the bounds of spec/04_lane_units.md R177.
A result is any value within the bound; which one is a free value of the device (notes/assumptions/14.md). -/

namespace Sys2Proof.Machine

/-- Fraction bits of the fixed-point values here. -/
def fixBits : Nat := 320

/-- 1 in fixed point. -/
def fixOne : Int := 2 ^ fixBits

/-- Product in fixed point. -/
def fixMul (a b : Int) : Int := a * b / fixOne

/-- ln 2 in fixed point. -/
def fixLn2 : Int :=
  0xb17217f7d1cf79abc9e3b39803f2f6af40f343267298b62d8a0d175b8baafa2be7b876206debac98

/-- 2π × 2^512. -/
def twoPi512 : Int :=
  0x6487ed5110b4611a62633145c06e0e68948127044533e63a0105df531d89cd9128a5043cc71a026ef7ca8cd9e69d218d98158536f92f8a1ba7f09ab6b6a8e122f

/-- m × 2^e in fixed point, cut toward −∞. -/
def toFix (neg : Bool) (m : Nat) (e : Int) : Int :=
  let k := e + fixBits
  let x : Int := if 0 ≤ k then (m : Int) * 2 ^ k.toNat else (m : Int) / 2 ^ (-k).toNat
  if neg then -x else x

/-- The terms x^k / k! from `k` on, `n` of them, stepping by one, summed. -/
def expTail (x : Int) : Nat → Nat → Int → Int
  | 0, _, _ => 0
  | n + 1, k, t => t + expTail x n (k + 1) (fixMul t x / (k + 1 : Nat))

/-- e^x for |x| ≤ 1. -/
def fixExp (x : Int) : Int := expTail x 80 0 fixOne

/-- 2^f for 0 ≤ f < 1. -/
def fixExp2 (f : Int) : Int := fixExp (fixMul f fixLn2)

/-- The terms z^(2k+1) / (2k+1), `n` of them, summed. -/
def atanhTail (z2 : Int) : Nat → Nat → Int → Int
  | 0, _, _ => 0
  | n + 1, k, p => p / (2 * k + 1 : Nat) + atanhTail z2 n (k + 1) (fixMul p z2)

/-- log₂ y for 1 ≤ y < 2. -/
def fixLog2 (y : Int) : Int :=
  let z := (y - fixOne) * fixOne / (y + fixOne)
  2 * atanhTail (fixMul z z) 120 0 z * fixOne / fixLn2

/-- The terms ±x^k / k! with step two from `k`, summed. -/
def trigTail (x2 : Int) : Nat → Nat → Int → Int
  | 0, _, _ => 0
  | n + 1, k, t => t + trigTail x2 n (k + 2) (-(fixMul t x2) / ((k + 1) * (k + 2) : Nat))

/-- ±m × 2^e modulo 2π, for e ≥ −512, in fixed point. -/
def fixReduce (neg : Bool) (m : Nat) (e : Int) : Int :=
  let x : Int := (m : Int) * 2 ^ (e + 512).toNat
  (if neg then -x else x) % twoPi512 / 2 ^ (512 - fixBits)

/-- sin r. -/
def fixSin (r : Int) : Int := trigTail (fixMul r r) 90 1 r

/-- cos r. -/
def fixCos (r : Int) : Int := trigTail (fixMul r r) 90 0 fixOne

/-- `k` squarings. -/
def fixSquare : Nat → Int → Int
  | 0, x => x
  | k + 1, x => fixSquare k (fixMul x x)

/-- tanh x for x ≥ 0. -/
def fixTanh (x : Int) : Int :=
  if 64 * fixOne ≤ x then fixOne
  else
    let e := fixSquare 8 (fixExp (2 * x / 256))
    (e - fixOne) * fixOne / (e + fixOne)

/-- A real value ±t × 2^(n − 320), known to about 300 bits. -/
structure Real320 where
  neg : Bool
  t : Nat
  n : Int
  deriving DecidableEq, Repr

/-- A fixed-point value as a real value. -/
def ofFix (x : Int) (n : Int) : Real320 := { neg := decide (x < 0), t := x.natAbs, n := n }

/-- The real value that an opcode of sfn0 approximates at ±m × 2^e, m not 0 but for exp2 and cos: 0 rcp, 1 rsqrt, 3 exp2, 4 log2, 5 sin,
6 cos, 7 tanh. The exponent of exp2 is cut at −200, below every result. -/
def realOf (opc : Nat) (neg : Bool) (m : Nat) (e : Int) : Real320 :=
  let norm : Int := sigBits m - 1
  if opc = 0 then { neg := neg, t := 2 ^ (fixBits + 32) / m, n := -e - 32 }
  else if opc = 1 then
    let m1 := if e % 2 = 0 then m else 2 * m
    { neg := false, t := isqrt (2 ^ (2 * fixBits + 64) / m1), n := -(e / 2) - 32 }
  else if opc = 3 then
    let x := if 8 < norm + e then (if neg then -200 * fixOne else 200 * fixOne) else toFix neg m e
    let x := max x (-200 * fixOne)
    ofFix (fixExp2 (x % fixOne)) (x / fixOne)
  else if opc = 4 then ofFix (fixLog2 (toFix false m (-norm)) + (e + norm) * fixOne) 0
  else if opc = 5 then ofFix (fixSin (fixReduce neg m e)) 0
  else if opc = 6 then ofFix (fixCos (fixReduce neg m e)) 0
  else
    let x := if 7 < norm + e then 64 * fixOne else toFix false m e
    { neg := neg, t := (fixTanh x).natAbs, n := 0 }

/-- The distance allowed, in units of 2^(n − 320): `k` ulp of the real value's binade, and 2^−22 where that is larger
and `absol` (R177). -/
def allowed (k : Nat) (absol : Bool) (r : Real320) : Nat :=
  let top : Int := sigBits r.t - 1 + r.n - fixBits
  let ulp : Int := max (top - 23) (-149)
  let units := fun (q : Int) => 2 ^ (q - r.n + fixBits).toNat
  let a := k * units ulp
  if absol then Nat.max a (units (-22)) else a

/-- Is the binary32 value `c` within the bound of an opcode around the real value? rcp stays strictly below its bound. -/
def withinBound (opc : Nat) (r : Real320) (c : FVal) : Bool :=
  match c with
  | .fin neg m e =>
    let u : Int := (m : Int) * 2 ^ (e - r.n + fixBits).toNat
    let x : Int := if neg then -u else u
    let y : Int := if r.neg then -(r.t : Int) else r.t
    if opc = 0 then decide ((x - y).natAbs + 2 ≤ allowed 1 false r)
    else decide ((x - y).natAbs ≤ allowed 2 (opc == 4 || opc == 5 || opc == 6) r)
  | _ => false

/-- The result of an approximate opcode at ±m × 2^e, m not 0 but for exp2 and cos, whose operand bits are `a`: the device's value where it is
within the bound, else the nearest value; an overflow of the nearest value gives an infinity (R177, R178). -/
def approxBits (opc : Nat) (a : Nat) (neg : Bool) (m : Nat) (e : Int) : FRes :=
  let r := realOf opc neg m e
  let near := roundFin f32 envNear r.neg r.t (r.n - fixBits)
  if near.exc &&& excOverflow ≠ 0 then { bits := near.bits, exc := excOverflow }
  else
    let raw := (Config.sfnApprox opc (BitVec.ofNat 32 a)).toNat
    { bits := if withinBound opc r (unpack f32 false raw) then raw else near.bits, exc := 0 }

/-- An approximate operation of sfn0 with its special values (R177, R178) (DESIGN CHOICE, notes/assumptions/14.md). -/
def approxOp (opc : Nat) (v : FEnv) (a : Nat) : FRes :=
  let bits := flushBits f32 v.fz32 a
  let x := unpack f32 false bits
  let none := fun (b : Nat) => ({ bits := b, exc := 0 } : FRes)
  let bad : FRes := { bits := canonNan f32, exc := excInvalid }
  let r : FRes := match x with
    | .nan _ _ _ => { bits := nanBits f32 v [x], exc := snanExc [x] }
    | .inf n =>
      if opc = 0 then none (zeroBits f32 n)
      else if opc = 1 then (if n then bad else none (zeroBits f32 false))
      else if opc = 3 then none (if n then zeroBits f32 false else infBits f32 false)
      else if opc = 4 then (if n then bad else none (infBits f32 false))
      else if opc = 7 then none (packBits f32 n 127 0)
      else bad
    | .fin n m e =>
      if m = 0 then
        if opc = 0 then { bits := infBits f32 n, exc := excDivZero }
        else if opc = 1 then { bits := infBits f32 n, exc := excDivZero }
        else if opc = 4 then { bits := infBits f32 true, exc := excDivZero }
        else if opc = 3 || opc = 6 then approxBits opc bits n m e
        else none (zeroBits f32 n)
      else if (opc = 1 || opc = 4) && n then bad
      else if opc = 4 && bits == 0x3F800000 then none (zeroBits f32 false)
      else if opc = 3 && !n && decide (128 ≤ (roundTo .rtz n m e 0).1) then { bits := infBits f32 false, exc := excOverflow }
      else approxBits opc bits n m e
  if v.fz32 && r.bits / 2 ^ 23 % 256 == 0 && r.bits % 2 ^ 23 != 0 then
    { bits := zeroBits f32 (r.bits / 2 ^ 31 % 2 == 1), exc := r.exc ||| excUnderflow ||| excInexact }
  else r

end Sys2Proof.Machine
end

