-- ==== Sys2Proof/Machine/SfnUnit.lean ====
section
/-! DEFINITION. sfn0 (spec/04_lane_units.md R160, R177 to R179). -/

namespace Sys2Proof.Machine

/-- Starts an operation of sfn0: it fills after its latency, and no earlier than the warp's previous one (R179). -/
def startSfn (opc lat : Nat) (f : FEnv → W64 → W64 → FRes) (s : State) (b : Begin) : State :=
  let prev := match s.warp? b.w with
    | some x => maxOf ((x.fills.filter fun f => f.unit == unitSfn).map fun f => f.due)
    | none => 0
  let s1 := startFill unitSfn opc (Nat.max lat (prev - s.clk))
    (fun _ x b => b.lanes.map (floatRes x unitSfn (fun v a c _ => f v a c) b.pre)) s b
  s1.modQuad (s.coreOf b.w.team) b.pre.quad fun q => { q with sfnFree := s.clk + 4 }

/-- An operation of sfn0: one trigger every 4 clk per quad (R160). -/
def sfnOp (opc lat : Nat) (f : FEnv → W64 → W64 → FRes) : OpSpec :=
  { laneOp unitSfn opc 0 (fun _ _ _ => []) with
    accept := fun s t x _ => decide (((s.core t.core).quad x.quad).sfnFree ≤ s.clk), start := startSfn opc lat f }

/-- 1 / a in binary64, correctly rounded; a NaN is the operand's (R163, R177). -/
def rcp64Bits (v : FEnv) (a : FVal) : FRes := divBits f64 v (.fin false 1 0) a

/-- sfn0.rcp (R177). -/
def opSfnRcp : OpSpec := sfnOp 0 8 fun v a _ => approxOp 0 v (u32 a)

/-- rcp is issued. -/
def execSfnRcp (t : Trig) (s : State) : Host.Outcome State Fault Refusal := issueOne opSfnRcp t s

/-- sfn0.rsqrt (R177). -/
def opSfnRsqrt : OpSpec := sfnOp 1 8 fun v a _ => approxOp 1 v (u32 a)

/-- rsqrt is issued. -/
def execSfnRsqrt (t : Trig) (s : State) : Host.Outcome State Fault Refusal := issueOne opSfnRsqrt t s

/-- sfn0.sqrt (R177). -/
def opSfnSqrt : OpSpec := sfnOp 2 10 fun v a _ => sqrtBits f32 v (unpack f32 v.fz32 (u32 a))

/-- sqrt is issued. -/
def execSfnSqrt (t : Trig) (s : State) : Host.Outcome State Fault Refusal := issueOne opSfnSqrt t s

/-- sfn0.exp2 (R177). -/
def opSfnExp2 : OpSpec := sfnOp 3 8 fun v a _ => approxOp 3 v (u32 a)

/-- exp2 is issued. -/
def execSfnExp2 (t : Trig) (s : State) : Host.Outcome State Fault Refusal := issueOne opSfnExp2 t s

/-- sfn0.log2 (R177). -/
def opSfnLog2 : OpSpec := sfnOp 4 8 fun v a _ => approxOp 4 v (u32 a)

/-- log2 is issued. -/
def execSfnLog2 (t : Trig) (s : State) : Host.Outcome State Fault Refusal := issueOne opSfnLog2 t s

/-- sfn0.sin (R177). -/
def opSfnSin : OpSpec := sfnOp 5 12 fun v a _ => approxOp 5 v (u32 a)

/-- sin is issued. -/
def execSfnSin (t : Trig) (s : State) : Host.Outcome State Fault Refusal := issueOne opSfnSin t s

/-- sfn0.cos (R177). -/
def opSfnCos : OpSpec := sfnOp 6 12 fun v a _ => approxOp 6 v (u32 a)

/-- cos is issued. -/
def execSfnCos (t : Trig) (s : State) : Host.Outcome State Fault Refusal := issueOne opSfnCos t s

/-- sfn0.tanh (R177). -/
def opSfnTanh : OpSpec := sfnOp 7 12 fun v a _ => approxOp 7 v (u32 a)

/-- tanh is issued. -/
def execSfnTanh (t : Trig) (s : State) : Host.Outcome State Fault Refusal := issueOne opSfnTanh t s

/-- sfn0.div.f32 (R177). -/
def opSfnDivF32 : OpSpec :=
  sfnOp 8 16 fun v a b => divBits f32 v (unpack f32 v.fz32 (u32 a)) (unpack f32 v.fz32 (u32 b))

/-- div.f32 is issued. -/
def execSfnDivF32 (t : Trig) (s : State) : Host.Outcome State Fault Refusal := issueOne opSfnDivF32 t s

/-- sfn0.rcp.f64 (R177). -/
def opSfnRcpF64 : OpSpec := sfnOp 9 20 fun v a _ => rcp64Bits v (unpack f64 false a.toNat)

/-- rcp.f64 is issued. -/
def execSfnRcpF64 (t : Trig) (s : State) : Host.Outcome State Fault Refusal := issueOne opSfnRcpF64 t s

/-- sfn0.sqrt.f64 (R177). -/
def opSfnSqrtF64 : OpSpec := sfnOp 10 20 fun v a _ => sqrtBits f64 v (unpack f64 false a.toNat)

/-- sqrt.f64 is issued. -/
def execSfnSqrtF64 (t : Trig) (s : State) : Host.Outcome State Fault Refusal := issueOne opSfnSqrtF64 t s

/-- The operations of sfn0, by opcode. -/
def sfnOps : List OpSpec :=
  [opSfnRcp, opSfnRsqrt, opSfnSqrt, opSfnExp2, opSfnLog2, opSfnSin,
    opSfnCos, opSfnTanh, opSfnDivF32, opSfnRcpF64, opSfnSqrtF64]

end Sys2Proof.Machine
end

