-- ==== Sys2Proof/Machine/Send.lean ====
section
/-! DEFINITION. Messages are put to the fabric (spec/11_fabric.md R398 to R404, R502), and the routers and endpoints
of cores, home slices and link endpoints. -/

namespace Sys2Proof.Machine

/-- The home slice of an address of local memory: 64 × die + slice (spec/05_memory_ports.md R220). -/
def homeSlice (pa : Nat) : Nat := Config.homeHash (pa / 512) % 256

/-- The router of local cluster `j` of die `d` (R399). -/
def clusterRouter (d j : Nat) : Nat := 4 * (d % 2) + j % 4 + 8 * (4 * (d / 2) + j / 4)

/-- Router and endpoint of a home slice (R399). -/
def homeEndpoint (h : Nat) : Nat × Nat := (clusterRouter (h / 64) (h % 64 / 4), 4 + h % 4)

/-- Router and endpoint of a core (R399). -/
def coreEndpoint (c : Nat) : Nat × Nat := (routerOfCore c, c % 4)

/-- The router of row 8 at which a link flit's message is split or reassembled: EP 7 of the one that another device's id picks (R502). -/
def linkHome (dev : Nat) : Nat := 64 + dev % 8

/-- The endpoints of the host interface, the loader's command front end, and the homes of the device's Ace registers and held snapshots (R399;
which of routers 66 to 71 is which home the spec leaves open: DESIGN CHOICE, notes/assumptions/18.md). -/
def hostEndpoint : Nat × Nat := (64, 0)
def loaderEndpoint : Nat × Nat := (65, 0)
def aceHome : Nat × Nat := (66, 0)
def heldHome : Nat × Nat := (67, 0)

/-- Router and endpoint that an access of a target goes to: a home slice, the host interface, or the link endpoint of
the peer (R399, R502). -/
def targetEndpoint (tgt dev pa : Nat) : Nat × Nat :=
  if tgt = 0 then homeEndpoint (homeSlice pa) else if tgt = 1 then hostEndpoint else (linkHome dev, 7)

/-- A message as it waits at its source endpoint (R401, R404). Its id is drawn when its first flit is injected (1,024 stands for none
yet). -/
def Message.fresh (src dst : Nat × Nat) (cls ctx nflit : Nat) (purpose : Purpose) (core : Option Nat) : Message :=
  { src := src.1, srcEp := src.2, dst := dst.1, dstEp := dst.2, cls := cls, ctx := ctx, msgid := 1024, nflit := nflit,
    purpose := purpose, xd := false, sdev := 0, ddev := 0, toSend := List.range nflit, arrived := [], overflow := [],
    inbound := false, core := core, firstAt := none, lost := false, bad := [], outAt := 0 }

/-- A message that travels between this device `own` and `dev`: out of this device, or in from outside since clk `clk` (R403, R502). -/
def Message.link (inward : Bool) (own dev clk cls ctx nflit : Nat) (purpose : Purpose) : Message :=
  { Message.fresh (linkHome dev, 7) (linkHome dev, 7) cls ctx nflit purpose none with
    xd := true, sdev := if inward then dev else own, ddev := if inward then own else dev, inbound := inward, outAt := clk }

/-- Puts a message to the fabric. -/
def State.post (s : State) (m : Message) : State :=
  let (id, s1) := takeId s
  s1.modEng fun e => { e with fab := { e.fab with messages := e.fab.messages.insert id m } }

/-- Sends a message over the mesh. -/
def send (s : State) (src dst : Nat × Nat) (cls ctx nflit : Nat) (purpose : Purpose) (core : Option Nat) : State :=
  s.post (.fresh src dst cls ctx nflit purpose core)

/-- Sends a message to or from another device. -/
def sendLink (s : State) (inward : Bool) (dev cls ctx nflit : Nat) (purpose : Purpose) : State :=
  s.post (.link inward s.deviceId dev s.clk cls ctx nflit purpose)

/-- The flits of a message that carries `n` bytes (R401). -/
def flitsFor (n : Nat) : Nat := 1 + (n + 63) / 64

/-- Sends the request of one lane of an operation to its home, with `n` bytes of operands (R402: class 0, 4 for objects). -/
def sendRequest (s : State) (w : WRef) (op lane : Nat) (dst : Nat × Nat) (cls n : Nat) : State :=
  let s1 := send s (coreEndpoint (s.coreOf w.team)) dst cls (s.ctxOf w.team) (flitsFor n) (.request w op lane) none
  s1.modWarp w fun x => x.modOp op fun o => o.modItem lane fun i => { i with trip := 1 }

end Sys2Proof.Machine
end

