-- ==== Sys2Proof/Machine/Home.lean ====
section
/-! DEFINITION. Memory at its home slices: writes performed in coherence order, updates to sharers, L1 copies, poison,
monitors (spec/05_memory_ports.md R206, R215, R218 to R223). -/

namespace Sys2Proof.Machine

/-! ## Writes at the home (R221) -/

/-- The cores that share some of the written sectors of local memory, with the bytes they hold copies of. -/
def sharersOf (s : State) (l : List (Nat × Byte)) : List (Nat × List (Nat × Byte)) :=
  s.cores.entries.filterMap fun e =>
    let bs := l.filter fun x => match e.2.l1.find? (x.1 / 32) with
      | some sec => !sec.nc && !sec.remote
      | none => false
    if bs.isEmpty then none else some (e.1, bs)

/-- Adds an update for a sharer, and its message (R221). -/
def addUpdate (s : State) (home : Nat × Nat) (seqno write : Nat) (sh : Nat × List (Nat × Byte)) : State :=
  match sh.2 with
  | [] => s
  | b :: _ =>
    let (id, s1) := takeId s
    let u : Update :=
      { core := sh.1, line := b.1 / 512, seqno := seqno, bytes := sh.2, write := write, arrived := false }
    send (s1.modMem fun m => { m with updates := m.updates.insert id u }) home (coreEndpoint sh.1) 2 0
      (flitsFor sh.2.length) (.update id) (some sh.1)

/-- Sectors, by their numbers over all targets, that come poisoned (R222; spec/11_fabric.md R405). -/
def poisonSectors (secs : List Nat) (s : State) : State := s.modMem fun m => foldOver Mem.poisonSector m secs

/-- Performs bytes of one line at their home for a core, as write `id`: the line's next number, an update to each other
sharer, monitors tested again (R212, R221). Answers the line's number too. -/
def performBytes (s : State) (writer id tgt dev : Nat) (job : Option Nat) (l : List (Nat × Byte)) : Nat × State :=
  match l with
  | [] => (0, s)
  | b :: _ =>
    if tgt = 0 then
      let line := b.1 / 512
      let n := s.mem.seqs.getD line 0 + 1
      let s1 := (keepOldCode s 0 0 l).modMem fun m =>
        { clearPoison (m.writeList l) job l with seqs := m.seqs.insert line n }
      let shs := (sharersOf s l).filter fun x => x.1 != s.array writer line
      let s2 := foldOver (fun s sh => addUpdate s (homeEndpoint (homeSlice b.1)) n id sh) s1 shs
      (n, pushTurns (spoilDeques s2 l) (monitorTurns s 0 0 l))
    else
      (0, pushTurns ((keepOldCode s tgt dev l).modMem fun m => clearPoison (m.writeAt tgt dev l) job (globalBytes tgt dev l))
        (monitorTurns s tgt dev l))

/-- Does a core see a write that is still tabled: its own, one of its fused cluster's, or one that a team brought along
(R50, R206, R219)? -/
def MemWrite.seenAt (m : MemWrite) (s : State) (core : Nat) : Bool := (m.core :: m.also).any fun k => s.joined k core

/-- The cores whose arrays keep the bytes of a tabled write as their own (R206). -/
def MemWrite.keepers (m : MemWrite) (s : State) : List Nat := (m.core :: m.also).map fun k => s.array k m.line

/-- Do two writes go to one line? -/
def MemWrite.sameLine (a b : MemWrite) : Bool := a.tgt == b.tgt && a.dev == b.dev && a.line == b.line

/-- Does an earlier write to the same line, which the writing core saw, still have to be performed: a write to local memory that the core
sees, to remote memory any of the device, since all its warps read them back (R50, R51; spec/11_fabric.md R425)? -/
def writeBlocked (s : State) (id : Nat) (m : MemWrite) : Bool :=
  s.mem.writes.entries.any fun e =>
    decide (e.1 < id) && !e.2.performed && !e.2.lost && e.2.sameLine m && (m.tgt != 0 || e.2.seenAt s m.core)

/-- The engine job that a write belongs to, if it is one's. -/
def MemWrite.job? (m : MemWrite) : Option Nat := if m.warp.isNone && decide (m.core < Config.cores) then some m.op else none

/-- Performs write `id`, if it has reached its home and nothing earlier stands in its way. -/
def performWrite (s : State) (id : Nat) : State :=
  match s.mem.writes.find? id with
  | none => s
  | some m =>
    if m.arrived ∧ ¬ m.performed ∧ ¬ writeBlocked s id m then
      let r := performBytes s m.core id m.tgt m.dev m.job? m.bytes
      (poisonSectors m.bad r.2).modMem fun x => { x with writes := x.writes.insert id { m with performed := true, seqno := r.1 } }
    else s

/-- Performs every write that can be performed, in order. -/
def performReady (s : State) : State := foldOver performWrite s s.mem.writes.keys

/-- A write that has reached its home (DEDUCED, notes/assumptions/11.md). -/
def writeArrives (s : State) (id : Nat) : State :=
  performReady (s.modMem fun m => { m with writes := m.writes.modify id fun x => { x with arrived := true } })

/-- Is an own write of a core later in coherence order than an update, so that the update leaves its byte (R206)? -/
def ownLater (s : State) (u : Update) (a : Nat) : Bool :=
  s.mem.writes.vals.any fun m =>
    m.tgt == 0 && (m.keepers s).contains u.core && (!m.performed || decide (u.seqno < m.seqno)) && m.bytes.any fun b => b.1 == a

/-- UPDATE_APPLY (R221): the subject's update is applied, once it has arrived and the line's earlier ones are applied, and the sharer
acknowledges it to the home. -/
def execUpdateApply (s : State) : Host.Outcome State Fault Refusal :=
  match s.subject with
  | .num id =>
    match s.mem.updates.find? id with
    | some u =>
      let first := s.mem.updates.vals.all fun v => v.core != u.core || v.line != u.line || decide (u.seqno ≤ v.seqno)
      if u.arrived ∧ first then
        let s1 := s.patchArray u.core (u.bytes.filter fun b => !ownLater s u b.1)
        .next (send (s1.modMem fun m => { m with updates := m.updates.erase id }) (coreEndpoint u.core)
          (homeEndpoint (homeSlice (512 * u.line))) 3 0 1 (.updateAck u.write) none)
      else .next s
    | none => .next s
  | _ => .next s

/-- Is an acknowledgement of an update of a write still on its way to the home? -/
def updateAckOpen (s : State) (id : Nat) : Bool := s.eng.fab.messages.vals.any fun k => k.purpose == .updateAck id

/-- May the home acknowledge a write: performed, applied and acknowledged at every sharer, and the line's earlier updates applied where
it is kept as an own write (R206, R221)? -/
def canAck (s : State) (id : Nat) (m : MemWrite) : Bool :=
  m.performed && !m.lost && !updateAckOpen s id &&
    s.mem.updates.vals.all fun u =>
      u.write != id && !(m.tgt == 0 && m.line == u.line && (m.keepers s).contains u.core && decide (u.seqno < m.seqno))

/-- The endpoint by which an access from outside enters and leaves the mesh (R399; spec/11_fabric.md R426, R502). -/
def OutAccess.entry (a : OutAccess) : Nat × Nat :=
  match a.dev with
  | none => hostEndpoint
  | some d => (linkHome d, 7)

/-- The bytes of an answer. -/
def Answer.bytes : Answer → List Byte
  | .data l => l
  | _ => []

/-- The home slice answers an access from outside that it has performed, or that fails (spec/11_fabric.md R423, R426). -/
def answerAccess (id : Nat) (ans : Answer) (s : State) : State :=
  match s.ldr.outs.find? id with
  | none => s
  | some a =>
    send (s.modLdr fun d => { d with outs := d.outs.insert id { a with performed := true, answer := ans } })
      (homeEndpoint (homeSlice a.pa)) a.entry (if a.kind = .write then 3 else 1) 0 (flitsFor ans.bytes.length) (.answer id) none

/-- The home of a write acknowledges it: to its core over the mesh, from a peer over the links first; the write of the host or of a peer
to them. -/
def acknowledge (s : State) (id : Nat) (m : MemWrite) : State :=
  if m.core = 256 then
    let s1 := s.modMem fun x => { x with writes := x.writes.erase id }
    if (s.ldr.outs.find? m.op).any fun a => a.kind == .write then answerAccess m.op .done s1 else s1
  else
    let s1 := s.modMem fun x => { x with writes := x.writes.insert id { m with ack := 1 } }
    if m.tgt = 2 then sendLink s1 true m.dev 3 0 1 (.ack id)
    else send s1 (targetEndpoint m.tgt m.dev (512 * m.line)) (coreEndpoint m.core) 3 0 1 (.ack id) none

/-- WRITE_ACKNOWLEDGE (R206, R221): the home acknowledges the write, or its acknowledgement has come and it leaves the
outstanding-write table. -/
def execWriteAcknowledge (s : State) : Host.Outcome State Fault Refusal :=
  match s.subject with
  | .num id =>
    match s.mem.writes.find? id with
    | some m =>
      if m.ack = 2 then .next (s.modMem fun x => { x with writes := x.writes.erase id })
      else .next (if m.ack = 0 ∧ canAck s id m then acknowledge s id m else s)
    | none => .next s
  | _ => .next s

/-- A write of one line leaves for its home: it enters the core's outstanding-write table and is applied at once to the
core's copies, or to the device's copies of a remote line (R206, R425). -/
def launchWrite (s : State) (warp : Option WRef) (core ctx op tgt dev epoch : Nat) (l : List (Nat × Byte)) : State :=
  match l with
  | [] => s
  | b :: _ =>
    let (id, s1) := takeId s
    let m : MemWrite :=
      { core := core, warp := warp, op := op, bytes := l, tgt := tgt, dev := dev, arrived := false, performed := false,
        seqno := 0, epoch := epoch, line := b.1 / 512, lost := false, ack := 0, bad := [], also := [] }
    let s2 := s1.modMem fun x => { x with writes := x.writes.insert id m }
    let s3 := if tgt = 0 then s2.patchCore core l else patchRemote s2 (globalBytes tgt dev l)
    send s3 (coreEndpoint core) (targetEndpoint tgt dev b.1) 0 ctx (flitsFor l.length) (.write id) none

/-- A write performed at its home without a way to it: by an engine, the host or a peer. It stands in the table until its
sharers have applied it. -/
def writeAtHome (s : State) (warp : Option WRef) (core op tgt dev epoch : Nat) (l : List (Nat × Byte)) : State :=
  match l with
  | [] => s
  | b :: _ =>
    let (id, s1) := takeId s
    let job := if warp.isNone && decide (core < Config.cores) then some op else none
    let r := performBytes s1 core id tgt dev job l
    let m : MemWrite :=
      { core := core, warp := warp, op := op, bytes := l, tgt := tgt, dev := dev, arrived := true, performed := true,
        seqno := r.1, epoch := epoch, line := b.1 / 512, lost := false, ack := 0, bad := [], also := [] }
    let s2 := r.2.modMem fun x => { x with writes := x.writes.insert id m }
    if tgt = 0 then s2.patchCore core l else patchRemote s2 (globalBytes tgt dev l)

/-- The lines of listed bytes, each with its bytes, by rising line. -/
def byLine (l : List (Nat × Byte)) : List (List (Nat × Byte)) :=
  let m : FMap (List (Nat × Byte)) := foldOver (fun m x => m.modifyD (x.1 / 512) [] fun b => b ++ [x]) .empty l
  m.vals

/-! ## Reads of the home and of copies -/

/-- The youngest outstanding write that a core sees, or for remote memory of the device, to a byte (R206, R425). -/
def tabledByte (s : State) (core tgt dev pa : Nat) : Option Byte :=
  foldOver
    (fun (r : Option Byte) (m : MemWrite) =>
      if m.tgt = tgt ∧ m.dev = dev ∧ (tgt ≠ 0 ∨ m.seenAt s core) then
        match firstWhere (fun (b : Nat × Byte) => b.1 == pa) m.bytes with
        | some b => some b.2
        | none => r
      else r)
    none s.mem.writes.vals

/-- A byte as a miss of a core returns it: from the table, its die's copy of a remote line, or its home (R206, R220, R424). -/
def missByte (s : State) (core tgt dev pa : Nat) : Byte :=
  match tabledByte s core tgt dev pa with
  | some b => b
  | none =>
    if tgt = 0 then s.mem.byte pa
    else match s.remoteLine core (gaddr tgt dev pa / 512) with
      | some r => r.bytes.getD (pa % 512) 0
      | none => s.mem.byteAt tgt dev pa

/-- Does a core hold copies of all of a range, in sectors that a read of this kind may use: a non-coherent copy serves
`ld.nc` alone (R215)? -/
def l1Hit (s : State) (core g n : Nat) (nc : Bool) : Bool :=
  (sectorsOf g n).all fun sec => match s.l1Sector core sec with
    | some x => nc || !x.nc
    | none => false

/-- The bytes of a range from a core's copies. -/
def l1Bytes (s : State) (core g n : Nat) : List Byte :=
  (List.range n).map fun i => match s.l1Sector core ((g + i) / 32) with
    | some x => x.bytes.getD ((g + i) % 32) 0
    | none => 0

/-- Updates on their way to an array that a fill of a sector already holds: their bytes there are dropped. -/
def dropUpdates (m : Mem) (core : Nat) (secs : List Nat) : Mem :=
  { m with
    updates := m.updates.mapVals fun _ u =>
      if u.core = core then { u with bytes := u.bytes.filter fun b => !secs.contains (b.1 / 32) } else u }

/-- Puts the line of a remote place into the L2 of a core's die, if it is not there (R220). -/
def installRemote (s : State) (core : Nat) (p : Place) : State :=
  if p.tgt = 0 ∨ (s.remoteLine core p.line).isSome then s
  else
    let bytes := (List.range 512).map fun i => missByte s core p.tgt p.dev (p.pa / 512 * 512 + i)
    let poison := (List.range 16).filter fun k => s.mem.poison.contains (16 * p.line + k)
    s.modMem fun m => { m with remote := m.remote.insert (remoteKey (dieOf core) p.line) { bytes := bytes, poison := poison } }

/-- Installs the grain of a place in the L1 of a core, under its outstanding writes (R206, R218). -/
def installGrain (s : State) (core : Nat) (p : Place) (nc : Bool) : State :=
  let g0 := p.gaddr / p.grain * p.grain
  let pa0 := p.pa / p.grain * p.grain
  let secs := sectorsOf g0 p.grain
  let put := fun (m : FMap L1Sector) sec =>
    m.insert sec
      { bytes := (List.range 32).map fun i => missByte s core p.tgt p.dev (pa0 + (sec * 32 + i - g0)),
        grain := p.grain, nc := nc, remote := p.tgt != 0 }
  let array := s.array core p.line
  let s1 := s.modCore array fun k => { k with l1 := foldOver put k.l1 secs }
  if p.tgt = 0 then s1.modMem fun m => dropUpdates m array secs else installRemote s1 core p

/-- A core has read bytes of a place at their home: its copies, its table and the updates on their way to it give nothing older any
more (R50, R424). -/
def catchUp (s : State) (core : Nat) (p : Place) (n : Nat) : State :=
  let l := atAddr p.pa (s.mem.readAt p.tgt p.dev p.pa n)
  let g := globalBytes p.tgt p.dev l
  let older := fun (m : MemWrite) => m.performed && m.tgt == p.tgt && m.dev == p.dev && m.seenAt s core
  let left := fun (bs : List (Nat × Byte)) => bs.filter fun b => !l.any fun x => x.1 == b.1
  let array := s.array core p.line
  let s1 := (s.patchCore core g).modMem fun m => { m with writes := m.writes.mapVals fun _ w => if older w then { w with bytes := left w.bytes } else w }
  if p.tgt = 0 then s1.modMem fun m =>
    { m with updates := m.updates.mapVals fun _ u => if u.core = array then { u with bytes := left u.bytes } else u }
  else s1.patchRemoteL2 (fun die => die == dieOf core) g

/-- Discards a core's non-coherent copies (R215). -/
def discardNc (s : State) (core : Nat) : State := s.dropCopies core fun _ x => x.nc

/-- Discards the remote copies that a core could read: those of its L1 and of its die's L2 (R67, R211, R424). -/
def discardRemote (s : State) (core : Nat) : State :=
  (s.dropCopies core fun _ x => x.remote).modMem fun m => { m with remote := m.remote.filter fun key _ => key % 4 != dieOf core }

/-- What an acquire or fence at a scope discards (R211). -/
def acquireDiscards (s : State) (core scope : Nat) : State :=
  let s1 := discardNc s core
  if scope = 4 then discardRemote s1 core else s1

/-- A team that has seen memory from core `old` goes on at core `core`: the writes that it could see there count as tabled here too,
and of the copies here only those stay that are as their homes hold them, with no update on its way (R50, R215). `wide` says that its cluster was fused
(DEDUCED, notes/assumptions/57.md). -/
def bringViews (s : State) (old core : Nat) (wide : Bool) : State :=
  let saw := fun (m : MemWrite) => m.seenAt s old || (wide && (m.core :: m.also).any fun k => clusterOf k == clusterOf old)
  let s1 := s.modMem fun m =>
    { m with writes := m.writes.mapVals fun _ w => if saw w && !w.seenAt s core then { w with also := w.also ++ [core] } else w }
  let coming := fun (sec : Nat) => s1.mem.updates.vals.any fun u => u.core == s1.array core (sec / 16) && u.line == sec / 16
  let s2 := s1.dropCopies core fun sec x => x.nc || x.bytes != s1.mem.homeBytes (32 * sec) 32 || (!x.remote && coming sec)
  s2.modMem fun m => { m with remote := m.remote.filter fun key r => key % 4 != dieOf core || r.bytes == m.homeBytes (key / 4 * 512) 512 }

/-- L1_EVICTION (R218): a line of a core leaves its L1; the pair is core and 512-byte line. -/
def execL1Eviction (s : State) : Host.Outcome State Fault Refusal :=
  match s.subject with
  | .pair c line =>
    match s.cores.find? c with
    | some k => .next (s.setCore c { k with l1 := k.l1.filter fun sec _ => sec / 16 != line })
    | none => .next s
  | _ => .next s

/-- L2_EVICTION (R221, R424): a line leaves L2: of local memory, every sharer's copy of it goes first; of remote memory (die, line), the
copy of the die is dropped. -/
def execL2Eviction (s : State) : Host.Outcome State Fault Refusal :=
  match s.subject with
  | .num line => .next { s with cores := s.cores.mapVals fun _ k => { k with l1 := k.l1.filter fun sec _ => sec / 16 != line } }
  | .pair die line => .next (s.modMem fun m => { m with remote := m.remote.erase (remoteKey die line) })
  | _ => .next s

end Sys2Proof.Machine
end

