-- ==== Sys2Proof/Machine/Order.lean ====
section
/-! DEFINITION. Kinds of memory operations, and what an operation waits for: program order, fences, acquires and
releases (spec/01_engines_together.md R48 to R56, spec/05_memory_ports.md R196 to R211). -/

namespace Sys2Proof.Machine

/-! ## Reads and events -/

/-- Is a lane of an operation a read of global memory: a load or an atomic? -/
def Op.globalRead (o : Op) (i : Item) : Bool := isMem o.unit && (isLoad o.opc || isAtomic o.opc) && !isTs o.opc i.m

/-- `snap.ld.at`, a plain read event (spec/08_snapshot_engine.md R311). -/
def Op.isLdAt (o : Op) : Bool := o.unit == unitSnap && o.opc == 8

/-- Is a lane of an operation an ordered read of another engine that is not made yet: `snap.ld.at`, or the descriptor read
of `tell.arm` (spec/09_tell_unit.md R336)? -/
def Op.otherRead (o : Op) (i : Item) : Bool := o.isLdAt || (o.unit == unitTell && o.opc == 3 && i.extra.isEmpty)

/-- Does the element of a lane wait on a fault: the events that follow pass it by (R229, R232)? -/
def Item.faulted (i : Item) : Bool :=
  match i.stage with
  | .paged _ => true
  | .retry _ => true
  | .failed _ _ _ _ => true
  | _ => false

/-- The operations of a warp that precede number `id`. -/
def Warp.earlier (x : Warp) (id : Nat) : List Op := x.ops.filter fun o => decide (o.id < id)

/-- Have the reads of global memory that precede `id` performed? A lane that waits on a fault holds later reads back only
where `all` says so, as the store queue does (R51, R206). -/
def Warp.readsDone (x : Warp) (id : Nat) (all : Bool) : Bool :=
  (x.earlier id).all fun o => o.items.all fun i => !(o.globalRead i || o.otherRead i) || (!all && i.faulted && !isAtomic o.opc)

/-- An operation after which later memory triggers hold until it is done: a fence, an acquire, a `waitcmp` that fences
before it arms (R208, R210, R212). -/
def Op.holdsLater (o : Op) : Bool :=
  isMem o.unit &&
    (o.opc == 25 || isAcqLoad o.opc ||
      (isAtomic o.opc && o.items.any fun i => modeOrd i.m == 1 || modeOrd i.m == 3) ||
      (o.opc == 26 && o.items.any fun i => decide (2 ≤ modeOrd i.m) && i.trip == 0 && i.stage != .armed))

/-- A begin or commit in flight holds mem0, mem1 and snap (spec/08_snapshot_engine.md R300, R304); so does an abort until
it is made (notes/assumptions/29.md). -/
def Op.snapHolds (o : Op) : Bool := o.unit == unitSnap && decide (o.opc ≤ 3)

/-- A commit in flight holds cp, mx, tell and tq as well (R304). -/
def Op.commitHolds (o : Op) : Bool := o.unit == unitSnap && o.opc == 2

/-- A `sup.sync` in flight holds the later memory and engine triggers of its warp (spec/12_supervisor.md R450). -/
def Op.isSync (o : Op) : Bool := o.unit == unitSup && o.opc == 8

/-- Does an engine but memory and snap accept a trigger of the warp: no `sup.sync` and no `snap.commit` in flight
(R304; spec/12_supervisor.md R450)? -/
def Warp.engineFree (x : Warp) : Bool := x.ops.all fun o => !o.isSync && !o.commitHolds

/-- A `pop`, `steal` or `steal.any`: an acquire where it returns an item, so that no later event of the warp is performed before
it fills (spec/10_team_scheduler.md R387; notes/assumptions/89.md). -/
def Op.takesItem (o : Op) : Bool := o.unit == unitTq && decide (1 ≤ o.opc) && decide (o.opc ≤ 3)

/-- No fence or acquire that precedes `id` is incomplete (R210). -/
def Warp.unfenced (x : Warp) (id : Nat) : Bool := (x.earlier id).all fun o => !o.holdsLater && !o.takesItem

/-- Is the operation an event that a fence waits for (R48, R55 item 1)? A monitored read is one too: it has performed once its
condition has been found true (R201, R212; notes/assumptions/28.md). -/
def Op.isEvent (o : Op) : Bool :=
  (isMem o.unit && (isLoad o.opc || isStore o.opc || isAtomic o.opc || o.opc == 26)) || o.items.any fun i => o.otherRead i

/-- Is write `id` of core `core` performed for every observer within scope `sc` (R55 items 1 and 2)? -/
def writeWithin (s : State) (core sc id : Nat) (m : MemWrite) : Bool :=
  sc == 0 || m.lost || (m.performed && s.mem.updates.vals.all fun u => u.write != id || !within sc u.core core)

/-- Items 1 to 3 of R55 at scope `sc` for every event of a warp that precedes number `id`. -/
def fenceReady (s : State) (w : WRef) (id sc : Nat) : Bool :=
  match s.warp? w with
  | none => true
  | some x =>
    let core := s.coreOf w.team
    ((x.earlier id).all fun o => !o.isEvent) &&
    (x.sq.all fun q => decide (id ≤ q)) &&
    (s.mem.writes.entries.all fun e =>
      !(e.2.warp == some w && decide (e.2.op < id)) || writeWithin s core sc e.1 e.2) &&
    (s.mem.writes.entries.all fun e =>
      !((e.2.tgt != 0 || e.2.seenAt s core) && decide (e.1 < x.lastRead)) || writeWithin s core sc e.1 e.2) &&
    (s.mem.updates.entries.all fun e => !decide (e.1 < x.lastRead) || !within sc e.2.core core)

/-- Notes that a warp has read: what the read returned is older than every later number (R55 item 3). -/
def Warp.noteRead (x : Warp) (next : Nat) : Warp := { x with lastRead := next }

/-- Is an earlier write of the warp to a line of memory unacknowledged (R208)? -/
def lineUnacked (s : State) (w : WRef) (id line : Nat) : Bool :=
  s.mem.writes.vals.any fun m =>
    !m.lost && m.warp == some w && decide (m.op < id) && gaddr m.tgt m.dev (m.line * 512) / 512 == line

/-- Was an earlier write of the warp lost, so that what waits for it fills a POISON tag (spec/11_fabric.md R417)? -/
def lostBefore (s : State) (w : WRef) (id : Nat) : Bool :=
  s.mem.writes.vals.any fun m => m.lost && m.warp == some w && decide (m.op < id)

/-- The lost writes of a warp are reported. -/
def dropLost (s : State) (w : WRef) (id : Nat) : State :=
  s.modMem fun m =>
    { m with writes := m.writes.filter fun _ x => !(x.lost && x.warp == some w && decide (x.op < id)) }

/-- A doomed transaction, with its first cause; its write set is discarded (spec/08_snapshot_engine.md R306). -/
def Txn.dooms (t : Txn) (cause : Nat) : Txn :=
  match t.doom with
  | some _ => t
  | none => { t with doom := some cause, lines := .empty }

/-- Dooms the transaction of a warp, if it has one. -/
def Warp.doomTxn (x : Warp) (cause : Nat) : Warp := { x with txn := x.txn.map fun t => t.dooms cause }

/-- Causes and status codes of snap.y2 (R308). -/
def snapConflict : Nat := 1
def snapCapacity : Nat := 2
def snapPreempted : Nat := 3
def snapHeapFull : Nat := 4
def snapFaulted : Nat := 5
def snapInvalidated : Nat := 6
def snapNoTxn : Nat := 7
def snapNotHeld : Nat := 8
def snapSlotBusy : Nat := 9
def snapTooOld : Nat := 10
def snapFuture : Nat := 11
def snapNotVersioned : Nat := 12

/-- The launch that a team belongs to. -/
def State.launchOf (s : State) (team : Nat) : Option Launch :=
  match s.team? team with
  | some t => s.ldr.launches.find? t.launch
  | none => none

/-- Does an operation belong to a transaction? -/
def Op.inTxn (o : Op) : Bool := o.mode != 0

/-- The transaction that an operation belongs to, while it is open or doomed. -/
def Warp.txnOf (x : Warp) (o : Op) : Option Txn := x.txn.filter fun t => BitVec.ofNat 64 t.id == o.mode

/-- The launch snapshot time that a warp runs under, if any (R314). -/
def State.launchTime (s : State) (team : Nat) : Option Nat :=
  match s.launchOf team with
  | some l => l.snapTime
  | none => none

/-- Are writes of an operation to versioned pages forbidden: a read-only transaction, or a launch snapshot outside any
(R300, R314)? -/
def versionedForbidden (s : State) (w : WRef) (x : Warp) (o : Op) : Bool :=
  if o.inTxn then
    match x.txnOf o with
    | some t => t.ro && t.doom.isNone
    | none => false
  else (s.launchTime w.team).isSome

/-- Are writes of an operation to versioned pages discarded: its transaction is doomed, or was aborted (R305, R306)? -/
def Warp.discards (x : Warp) (o : Op) : Bool :=
  o.inTxn && match x.txnOf o with
    | some t => t.doom.isSome
    | none => true

/-! ## The end of a lane's access -/

/-- Drops the operations that hold no lane any more, and the store-queue entries without a lane to global memory. -/
def Warp.tidy (x : Warp) : Warp :=
  let ops := x.ops.filter fun o => !o.items.isEmpty
  { x with
    ops := ops
    sq := x.sq.filter fun q => ops.any fun o => o.id == q && o.items.any fun i => !isTs o.opc i.m }

/-- Ends one lane of an operation. -/
def Warp.endItem (x : Warp) (id l : Nat) : Warp := (x.modOp id fun o => o.dropItem l).tidy

end Sys2Proof.Machine
end

