-- ==== Sys2Proof/Machine/Versions.lean ====
section
/-! DEFINITION. Version chains, snapshot reads and commits (spec/08_snapshot_engine.md R289 to R295, R311 to R319). -/

namespace Sys2Proof.Machine

/-- Changes the snapshot engine. -/
def State.modSnap (s : State) (f : SnapState → SnapState) : State := s.modEng fun e => { e with snap := f e.snap }

/-- The chain of a line; a line with no entry holds one version of time 0 (R293). -/
def State.chain (s : State) (line : Nat) : Chain := s.eng.snap.chains.getD line { time := 0, older := [] }

/-- The newest version among older ones at or before a time. -/
def olderAt (t : Nat) : List Version → Option Version
  | [] => none
  | v :: r => if v.time ≤ t then some v else olderAt t r

/-- A byte of a versioned line as of a time (R292). -/
def snapByte (s : State) (t pa : Nat) : Byte :=
  let c := s.chain (pa / 512)
  if c.time ≤ t then s.mem.byte pa
  else match olderAt t c.older with
    | some v => v.bytes.getD (pa % 512) 0
    | none => s.mem.byte pa

/-- Does a byte of a versioned line as of a time lie in a poisoned sector of that version (R322; spec/05_memory_ports.md R223)? -/
def snapPoisoned (s : State) (t pa : Nat) : Bool :=
  let c := s.chain (pa / 512)
  if c.time ≤ t then s.mem.poison.contains (pa / 32)
  else match olderAt t c.older with
    | some v => v.poison.contains (pa % 512 / 32)
    | none => s.mem.poison.contains (pa / 32)

/-- A byte of a transaction's view: its write set over its snapshot (R301). -/
def txnByte (s : State) (t : Txn) (pa : Nat) : Byte :=
  match t.lines.find? (pa / 512) with
  | some l => match l.bytes.find? (pa % 512) with
    | some b => b
    | none => snapByte s t.time pa
  | none => snapByte s t.time pa

/-- Is a byte of a transaction's view poisoned: not one that it has written (R301, R322) (DEDUCED, notes/assumptions/94.md)? -/
def txnPoisoned (s : State) (t : Txn) (pa : Nat) : Bool :=
  !((t.lines.find? (pa / 512)).any fun l => l.bytes.has (pa % 512)) && snapPoisoned s t.time pa

/-- A byte of the newest version in the commit order: taken commits over the installed one (R294). -/
def newestByte (s : State) (pa : Nat) : Byte :=
  foldOver
    (fun (b : Byte) (k : Taken) => match k.commit.lines.find? (pa / 512) with
      | some l => l.getD (pa % 512) b
      | none => b)
    (s.mem.byte pa) s.eng.snap.taken

/-- The time of the newest version in the commit order. -/
def newestTime (s : State) (line : Nat) : Nat :=
  foldOver (fun (t : Nat) (k : Taken) => if k.commit.lines.has line then k.time else t) (s.chain line).time
    s.eng.snap.taken

/-! ## Room (R318, R319) -/

/-- Lines that the version heap holds (spec/13_loader.md R473). -/
def heapLines (s : State) : Nat := bitsOf (s.ldr.device.getD 2 0) 31 0 * 2 ^ 12

/-- The heap wait limit in clk (spec/13_loader.md R473). -/
def heapLimit (s : State) : Nat := 2 ^ bitsOf (s.ldr.device.getD 2 0) 36 32

/-- Older versions that exist. -/
def olderCount (s : State) : Nat := foldOver (fun n (c : Chain) => n + c.older.length) 0 s.eng.snap.chains.vals

/-- Lines beside the newest versions that L2 or the heap must hold: older versions, those that commits with a time will displace, and
the lines of write sets (R290, R302, R318). -/
def heapUsed (s : State) : Nat :=
  olderCount s + sumOf (s.eng.snap.taken.map fun k => k.commit.lines.entries.length) +
    sumOf (s.teams.vals.flatMap fun t => t.warps.filterMap fun x => x.txn.map fun k => k.lines.entries.length)

/-- Versions of a line, taken ones included. -/
def versionCount (s : State) (line : Nat) : Nat :=
  1 + (s.chain line).older.length + (s.eng.snap.taken.filter fun k => k.commit.lines.has line).length

/-- Does the heap surely have room for `n` more lines? Beyond that, L2 may keep them or not: a free choice. -/
def heapRoom (s : State) (n : Nat) : Bool × State :=
  if heapUsed s + n ≤ heapLines s then (true, s) else freeBool s

/-- Has every line of a commit a version slot, is the clock short of its end, and does no other commit take its time in
this clk (R294, R295, R318)? -/
def commitRoom (s : State) (c : Commit) : Bool × State :=
  if s.eng.snap.clock + 1 < 2 ^ 56 ∧ c.lines.keys.all (fun l => decide (versionCount s l < 8)) then
    heapRoom s c.lines.entries.length
  else (false, s)

/-- May a commit take its time in this clk: at most one does (R294)? -/
def clkFree (s : State) : Bool := decide (s.eng.snap.tookAt ≤ s.clk)

/-- A commit takes the next time (R294): it leaves the waiting ones (DEDUCED, notes/assumptions/20.md). -/
def takeTime (s : State) (id : Nat) (c : Commit) : State :=
  s.modSnap fun k =>
    { k with clock := k.clock + 1, tookAt := s.clk + 1, waiting := k.waiting.erase id,
             taken := k.taken ++ [{ time := k.clock + 1, commit := c }] }

/-! ## Publication (R295) -/

/-- The bytes of a line as a full copy. -/
def lineCopy (m : Mem) (line : Nat) : FMap Byte :=
  ⟨(List.range 512).filterMap fun i => let b := m.byte (line * 512 + i); if b = 0 then none else some (i, b)⟩

/-- The newest version of a line, as it becomes an older one (R290, R322). -/
def displaced (s : State) (line : Nat) : Version :=
  { time := (s.chain line).time, bytes := lineCopy s.mem line,
    poison := (List.range 16).filter fun k => s.mem.poison.contains (16 * line + k) }

/-- Installs one line of a commit: the newest version becomes an older one, and the new bytes go to the home and to every copy, so that
who sees one line of the commit sees them all (R54, R290, R304, R322) (DEDUCED, notes/assumptions/95.md). -/
def installLine (c : Commit) (time : Nat) (s : State) (e : Nat × FMap Byte) : State :=
  let s1 := s.modSnap fun k =>
    { k with chains := k.chains.insert e.1 { time := time, older := displaced s e.1 :: (s.chain e.1).older } }
  writeEverywhere s1 (c.job.map Prod.snd) (e.2.entries.map fun b => (e.1 * 512 + b.1, b.2))

/-- The lanes of an operation that a published commit completes, with old value and status for an atomic. -/
def publishedItems (c : Commit) (o : Op) : List Item :=
  o.items.filter fun i =>
    if isAtomic o.opc then i.lane == c.lane
    else match i.place with
      | some p => p.ver && c.lines.has (p.pa / 512)
      | none => false

/-- Fills what a published commit completes in a warp: a transaction's commit, a store's lanes, an atomic's lane
(R304, R312). -/
def fillPublished (c : Commit) (time : Nat) (x : Warp) : Warp :=
  match x.op? c.op with
  | none => x
  | some o =>
    if o.unit = unitSnap then
      let x1 := foldOver (fun x (i : Item) => x.fill unitSnap o.id i.lane (.value (BitVec.ofNat 64 time)) (.value 0)) x
        o.items
      { x1.dropOp o.id with txn := none }
    else
      foldOver
        (fun x (i : Item) =>
          let y := if isAtomic o.opc then BitVec.ofNat 64 (i.extra.getD 0 0) else 0
          let y2 := if isAtomic o.opc then BitVec.ofNat 64 (i.extra.getD 1 0) else 0
          (x.fill o.unit o.id i.lane (if i.lost then .tagged codePoison 0 else .value y) (.value y2)).endItem o.id i.lane)
        x (publishedItems c o)

/-- Puts a commit among the waiting ones. -/
def addCommit (s : State) (c : Commit) : State :=
  let (id, s1) := takeId s
  s1.modSnap fun k => { k with waiting := k.waiting.insert id c }

/-- A commit of bytes of one line that no transaction made (R312, R313). -/
def autoCommit (s : State) (warp : Option WRef) (op lane : Nat) (job : Option (Nat × Nat)) (epoch : Nat)
    (l : List (Nat × Byte)) : State :=
  let lines : FMap (FMap Byte) :=
    foldOver (fun m x => m.modifyD (x.1 / 512) .empty fun f => f.insert (x.1 % 512) x.2) .empty l
  addCommit s { warp := warp, op := op, lane := lane, job := job, lines := lines, since := none, epoch := epoch }

end Sys2Proof.Machine
end

