-- ==== Sys2Proof/Machine/MemUnit.lean ====
section
/-! DEFINITION. mem0 and mem1: the checks of a memory trigger, what it waits for, and its start
(spec/05_memory_ports.md R196 to R208). What an access then does is in Loads and Stores. -/

namespace Sys2Proof.Machine

/-- Is the access width of an opcode checked for alignment: does it have an address (R199)? -/
def hasWidth (n : Nat) : Bool := isLoad n || isStore n || isAtomic n || n == 26

/-- The opcodes for which SPACE = 0b01 is forbidden (R197). -/
def noTeamSpace (n : Nat) : Bool := decide (26 ≤ n) && decide (n ≤ 29) || n == 34

/-- Is a memory mode reserved or forbidden for an opcode (R197)? -/
def memModeBad (n : Nat) (m : W64) : Bool :=
  bitsOf m 63 9 != 0 || decide (2 ≤ modeSpace m) || decide (5 ≤ modeScope m) || (modeSpace m == 1 && noTeamSpace n)

/-- The checks of a memory trigger, in the order of R199 after class 7. -/
def memCheck (u n : Nat) (_ : State) (t : Team) (wr _ : Warp) (ls : List Nat) (_ : W32) :
    Option (Nat × BitVec 8 × List Nat) :=
  let a := fun l => (wr.port u offA l).toNat
  let wd := fun l => memWidth n (wr.port u offC l)
  orElse (failLanes 7 codeIllegalOp ls fun l => memModeBad n (wr.port u offM l))
    (orElse (failLanes 8 codeIllegalOp ls fun l => n == 26 && bitsOf (wr.port u offC l) 63 3 != 0)
      (orElse (failLanes 8 codeMisaligned ls fun l => hasWidth n && a l % wd l != 0)
        (failLanes 8 codeTstoreRange ls fun l =>
          isTs n (wr.port u offM l) && (decide (2 ^ 19 ≤ a l) || decide (t.tsSize < a l + wd l)))))

/-- Does a memory unit accept a trigger now (R204; spec/08_snapshot_engine.md R300, R304)? (DESIGN CHOICE, notes/assumptions/86.md). -/
def memAccept (n : Nat) (_ : State) (_ : Team) (x : Warp) (_ : List Nat) : Bool :=
  (!(isStore n || isAtomic n) || decide (x.sq.length < 32)) &&
    x.ops.all fun o => !o.holdsLater && !o.snapHolds && !o.isSync

/-- A trigger counts as a read of .y2 in the lanes whose last operation was a store, atomic, release store or `waitcmp`
(R202). -/
def memReads (u : Nat) (x : Warp) (l : Nat) : List Nat := if (x.unit u).must.getLsbD l then [offY2] else []

/-- Cancels the loads of a unit that lanes have not performed (R202). -/
def cancelLoads (u : Nat) (ls : List Nat) (x : Warp) : Warp :=
  { x with
    ops := (x.ops.map fun o =>
        if o.unit = u ∧ isLoad o.opc then { o with items := o.items.filter fun i => !ls.contains i.lane } else o).filter
      fun o => !o.items.isEmpty }

/-- The bytes that a store's lane writes: address and byte. -/
def storeBytes (n : Nat) (i : Item) : List (Nat × Byte) := atAddr i.a.toNat (wordBytes (memWidth n i.c) i.b)

/-- The operation that a memory trigger starts: one item for each performing lane. -/
def memOpOf (u n : Nat) (s : State) (x : Warp) (b : Begin) : Op :=
  let stage := fun l => if n == 25 || isTs n (x.port u offM l) then Stage.go else Stage.walk
  { id := b.id, unit := u, opc := n, pc := b.pc, clk := s.clk,
    mode := match x.txn with
      | some t => BitVec.ofNat 64 t.id
      | none => 0
    items := b.lanes.map fun l =>
      { Item.start l (x.port u offA l) (x.port u offB l) (x.port u offC l) s.mem.epoch with
        m := x.port u offM l, stage := stage l }
    info := [] }

/-- Sets the lanes of a store, atomic or `waitcmp`, whose next trigger counts as a read of .y2 (R202). -/
def mustRead (u n : Nat) (ls : List Nat) (x : Warp) : Warp :=
  if isStore n || isAtomic n || n == 26 then x.modUnit u fun p => { p with must := p.must ||| maskOf ls } else x

/-- Parks the lanes of a `waitcmp` (R212). -/
def parkMonitor (n id : Nat) (ls : List Nat) (x : Warp) : Warp :=
  if n = 26 then foldOver (fun x l => x.modLane l fun y => { y with wait := some (.monitor id) }) x ls else x

/-- Puts the lanes of a store that go to global memory among the store-queue entries. -/
def enqueue (o : Op) (x : Warp) : Warp :=
  if isStore o.opc && o.items.any (fun i => !isTs o.opc i.m) then { x with sq := x.sq ++ [o.id] } else x

/-- Puts the lanes of a store that go to team store before the arbiter (spec/01_engines_together.md R61). -/
def toArbiter (o : Op) (warp : Nat) (t : Team) : Team :=
  let ts := o.items.filter fun i => isTs o.opc i.m
  if isStore o.opc && !ts.isEmpty then
    { t with arb := t.arb ++ [{ op := o.id, warp := warp, writes := ts.flatMap (storeBytes o.opc) }] }
  else t

/-- Starts a memory operation (R202, R205, R212): a store enters the store queue, or for team store goes to the
arbiter; a `waitcmp` parks its lanes (DEDUCED, notes/assumptions/43.md). -/
def startMem (u n : Nat) (s : State) (b : Begin) : State :=
  match s.warp? b.w with
  | none => s
  | some x =>
    let o := memOpOf u n s x b
    let x1 := mustRead u n b.lanes (cancelLoads u b.lanes x)
    let x2 := enqueue o (parkMonitor n b.id b.lanes { x1 with ops := x1.ops ++ [o] })
    (s.setWarp b.w x2).modTeam b.w.team (toArbiter o b.w.warp)

/-- An operation of a memory unit. -/
def memOp (u : Fin 2) (n : Nat) : OpSpec :=
  { unit := unitMem u, opc := n, reads := memReads (unitMem u), check := memCheck (unitMem u) n, accept := memAccept n,
    setsPc := setsNone, start := startMem (unitMem u) n }

/-- mem.ld.u8 (R198, R205). -/
def opMemLdU8 (u : Fin 2) : OpSpec := memOp u 0

/-- ld.u8 is issued. -/
def execMemLdU8 (u : Fin 2) (t : Trig) (s : State) : Host.Outcome State Fault Refusal := issueOne (opMemLdU8 u) t s

/-- mem.ld.s8 (R198, R205). -/
def opMemLdS8 (u : Fin 2) : OpSpec := memOp u 1

/-- ld.s8 is issued. -/
def execMemLdS8 (u : Fin 2) (t : Trig) (s : State) : Host.Outcome State Fault Refusal := issueOne (opMemLdS8 u) t s

/-- mem.ld.u16 (R198, R205). -/
def opMemLdU16 (u : Fin 2) : OpSpec := memOp u 2

/-- ld.u16 is issued. -/
def execMemLdU16 (u : Fin 2) (t : Trig) (s : State) : Host.Outcome State Fault Refusal := issueOne (opMemLdU16 u) t s

/-- mem.ld.s16 (R198, R205). -/
def opMemLdS16 (u : Fin 2) : OpSpec := memOp u 3

/-- ld.s16 is issued. -/
def execMemLdS16 (u : Fin 2) (t : Trig) (s : State) : Host.Outcome State Fault Refusal := issueOne (opMemLdS16 u) t s

/-- mem.ld.32 (R198, R205). -/
def opMemLd32 (u : Fin 2) : OpSpec := memOp u 4

/-- ld.32 is issued. -/
def execMemLd32 (u : Fin 2) (t : Trig) (s : State) : Host.Outcome State Fault Refusal := issueOne (opMemLd32 u) t s

/-- mem.ld.64 (R198, R205). -/
def opMemLd64 (u : Fin 2) : OpSpec := memOp u 5

/-- ld.64 is issued. -/
def execMemLd64 (u : Fin 2) (t : Trig) (s : State) : Host.Outcome State Fault Refusal := issueOne (opMemLd64 u) t s

/-- mem.st.8 (R198, R205). -/
def opMemSt8 (u : Fin 2) : OpSpec := memOp u 6

/-- st.8 is issued. -/
def execMemSt8 (u : Fin 2) (t : Trig) (s : State) : Host.Outcome State Fault Refusal := issueOne (opMemSt8 u) t s

/-- mem.st.16 (R198, R205). -/
def opMemSt16 (u : Fin 2) : OpSpec := memOp u 7

/-- st.16 is issued. -/
def execMemSt16 (u : Fin 2) (t : Trig) (s : State) : Host.Outcome State Fault Refusal := issueOne (opMemSt16 u) t s

/-- mem.st.32 (R198, R205). -/
def opMemSt32 (u : Fin 2) : OpSpec := memOp u 8

/-- st.32 is issued. -/
def execMemSt32 (u : Fin 2) (t : Trig) (s : State) : Host.Outcome State Fault Refusal := issueOne (opMemSt32 u) t s

/-- mem.st.64 (R198, R205). -/
def opMemSt64 (u : Fin 2) : OpSpec := memOp u 9

/-- st.64 is issued. -/
def execMemSt64 (u : Fin 2) (t : Trig) (s : State) : Host.Outcome State Fault Refusal := issueOne (opMemSt64 u) t s

/-- mem.ld.ts (R198, R205). -/
def opMemLdTs (u : Fin 2) : OpSpec := memOp u 10

/-- ld.ts is issued. -/
def execMemLdTs (u : Fin 2) (t : Trig) (s : State) : Host.Outcome State Fault Refusal := issueOne (opMemLdTs u) t s

/-- mem.st.ts (R198, R205). -/
def opMemStTs (u : Fin 2) : OpSpec := memOp u 11

/-- st.ts is issued. -/
def execMemStTs (u : Fin 2) (t : Trig) (s : State) : Host.Outcome State Fault Refusal := issueOne (opMemStTs u) t s

/-- mem.atom.add (R207). -/
def opMemAtomAdd (u : Fin 2) : OpSpec := memOp u 12

/-- atom.add is issued. -/
def execMemAtomAdd (u : Fin 2) (t : Trig) (s : State) : Host.Outcome State Fault Refusal := issueOne (opMemAtomAdd u) t s

/-- mem.atom.add64 (R207). -/
def opMemAtomAdd64 (u : Fin 2) : OpSpec := memOp u 13

/-- atom.add64 is issued. -/
def execMemAtomAdd64 (u : Fin 2) (t : Trig) (s : State) : Host.Outcome State Fault Refusal := issueOne (opMemAtomAdd64 u) t s

/-- mem.atom.min.s32 (R207). -/
def opMemAtomMinS32 (u : Fin 2) : OpSpec := memOp u 14

/-- atom.min.s32 is issued. -/
def execMemAtomMinS32 (u : Fin 2) (t : Trig) (s : State) : Host.Outcome State Fault Refusal := issueOne (opMemAtomMinS32 u) t s

/-- mem.atom.max.s32 (R207). -/
def opMemAtomMaxS32 (u : Fin 2) : OpSpec := memOp u 15

/-- atom.max.s32 is issued. -/
def execMemAtomMaxS32 (u : Fin 2) (t : Trig) (s : State) : Host.Outcome State Fault Refusal := issueOne (opMemAtomMaxS32 u) t s

/-- mem.atom.min.u64 (R207). -/
def opMemAtomMinU64 (u : Fin 2) : OpSpec := memOp u 16

/-- atom.min.u64 is issued. -/
def execMemAtomMinU64 (u : Fin 2) (t : Trig) (s : State) : Host.Outcome State Fault Refusal := issueOne (opMemAtomMinU64 u) t s

/-- mem.atom.and (R207). -/
def opMemAtomAnd (u : Fin 2) : OpSpec := memOp u 17

/-- atom.and is issued. -/
def execMemAtomAnd (u : Fin 2) (t : Trig) (s : State) : Host.Outcome State Fault Refusal := issueOne (opMemAtomAnd u) t s

/-- mem.atom.or (R207). -/
def opMemAtomOr (u : Fin 2) : OpSpec := memOp u 18

/-- atom.or is issued. -/
def execMemAtomOr (u : Fin 2) (t : Trig) (s : State) : Host.Outcome State Fault Refusal := issueOne (opMemAtomOr u) t s

/-- mem.atom.xor (R207). -/
def opMemAtomXor (u : Fin 2) : OpSpec := memOp u 19

/-- atom.xor is issued. -/
def execMemAtomXor (u : Fin 2) (t : Trig) (s : State) : Host.Outcome State Fault Refusal := issueOne (opMemAtomXor u) t s

/-- mem.atom.exch (R207). -/
def opMemAtomExch (u : Fin 2) : OpSpec := memOp u 20

/-- atom.exch is issued. -/
def execMemAtomExch (u : Fin 2) (t : Trig) (s : State) : Host.Outcome State Fault Refusal := issueOne (opMemAtomExch u) t s

/-- mem.atom.exch64 (R207). -/
def opMemAtomExch64 (u : Fin 2) : OpSpec := memOp u 21

/-- atom.exch64 is issued. -/
def execMemAtomExch64 (u : Fin 2) (t : Trig) (s : State) : Host.Outcome State Fault Refusal := issueOne (opMemAtomExch64 u) t s

/-- mem.atom.cas (R207). -/
def opMemAtomCas (u : Fin 2) : OpSpec := memOp u 22

/-- atom.cas is issued. -/
def execMemAtomCas (u : Fin 2) (t : Trig) (s : State) : Host.Outcome State Fault Refusal := issueOne (opMemAtomCas u) t s

/-- mem.atom.cas64 (R207). -/
def opMemAtomCas64 (u : Fin 2) : OpSpec := memOp u 23

/-- atom.cas64 is issued. -/
def execMemAtomCas64 (u : Fin 2) (t : Trig) (s : State) : Host.Outcome State Fault Refusal := issueOne (opMemAtomCas64 u) t s

/-- mem.atom.add.f32 (R207). -/
def opMemAtomAddF32 (u : Fin 2) : OpSpec := memOp u 24

/-- atom.add.f32 is issued. -/
def execMemAtomAddF32 (u : Fin 2) (t : Trig) (s : State) : Host.Outcome State Fault Refusal := issueOne (opMemAtomAddF32 u) t s

/-- mem.fence (R210). -/
def opMemFence (u : Fin 2) : OpSpec := memOp u 25

/-- fence is issued. -/
def execMemFence (u : Fin 2) (t : Trig) (s : State) : Host.Outcome State Fault Refusal := issueOne (opMemFence u) t s

/-- mem.waitcmp (R212). -/
def opMemWaitcmp (u : Fin 2) : OpSpec := memOp u 26

/-- waitcmp is issued. -/
def execMemWaitcmp (u : Fin 2) (t : Trig) (s : State) : Host.Outcome State Fault Refusal := issueOne (opMemWaitcmp u) t s

/-- mem.prefetch (R217). -/
def opMemPrefetch (u : Fin 2) : OpSpec := memOp u 27

/-- prefetch is issued. -/
def execMemPrefetch (u : Fin 2) (t : Trig) (s : State) : Host.Outcome State Fault Refusal := issueOne (opMemPrefetch u) t s

/-- mem.pin (R216). -/
def opMemPin (u : Fin 2) : OpSpec := memOp u 28

/-- pin is issued. -/
def execMemPin (u : Fin 2) (t : Trig) (s : State) : Host.Outcome State Fault Refusal := issueOne (opMemPin u) t s

/-- mem.unpin (R216). -/
def opMemUnpin (u : Fin 2) : OpSpec := memOp u 29

/-- unpin is issued. -/
def execMemUnpin (u : Fin 2) (t : Trig) (s : State) : Host.Outcome State Fault Refusal := issueOne (opMemUnpin u) t s

/-- mem.ld.acq (R210). -/
def opMemLdAcq (u : Fin 2) : OpSpec := memOp u 30

/-- ld.acq is issued. -/
def execMemLdAcq (u : Fin 2) (t : Trig) (s : State) : Host.Outcome State Fault Refusal := issueOne (opMemLdAcq u) t s

/-- mem.st.rel (R210). -/
def opMemStRel (u : Fin 2) : OpSpec := memOp u 31

/-- st.rel is issued. -/
def execMemStRel (u : Fin 2) (t : Trig) (s : State) : Host.Outcome State Fault Refusal := issueOne (opMemStRel u) t s

/-- mem.ld.acq64 (R210). -/
def opMemLdAcq64 (u : Fin 2) : OpSpec := memOp u 32

/-- ld.acq64 is issued. -/
def execMemLdAcq64 (u : Fin 2) (t : Trig) (s : State) : Host.Outcome State Fault Refusal := issueOne (opMemLdAcq64 u) t s

/-- mem.st.rel64 (R210). -/
def opMemStRel64 (u : Fin 2) : OpSpec := memOp u 33

/-- st.rel64 is issued. -/
def execMemStRel64 (u : Fin 2) (t : Trig) (s : State) : Host.Outcome State Fault Refusal := issueOne (opMemStRel64 u) t s

/-- mem.flush (R217). -/
def opMemFlush (u : Fin 2) : OpSpec := memOp u 34

/-- flush is issued. -/
def execMemFlush (u : Fin 2) (t : Trig) (s : State) : Host.Outcome State Fault Refusal := issueOne (opMemFlush u) t s

/-- mem.ld.nc (R215). -/
def opMemLdNc (u : Fin 2) : OpSpec := memOp u 35

/-- ld.nc is issued. -/
def execMemLdNc (u : Fin 2) (t : Trig) (s : State) : Host.Outcome State Fault Refusal := issueOne (opMemLdNc u) t s

/-- The operations of a memory unit, by opcode. -/
def memOps (u : Fin 2) : List OpSpec :=
  [opMemLdU8 u, opMemLdS8 u, opMemLdU16 u, opMemLdS16 u, opMemLd32 u, opMemLd64 u, opMemSt8 u,
    opMemSt16 u, opMemSt32 u, opMemSt64 u, opMemLdTs u, opMemStTs u, opMemAtomAdd u, opMemAtomAdd64 u,
    opMemAtomMinS32 u, opMemAtomMaxS32 u, opMemAtomMinU64 u, opMemAtomAnd u, opMemAtomOr u,
    opMemAtomXor u, opMemAtomExch u, opMemAtomExch64 u, opMemAtomCas u, opMemAtomCas64 u,
    opMemAtomAddF32 u, opMemFence u, opMemWaitcmp u, opMemPrefetch u, opMemPin u, opMemUnpin u,
    opMemLdAcq u, opMemStRel u, opMemLdAcq64 u, opMemStRel64 u, opMemFlush u, opMemLdNc u]

end Sys2Proof.Machine
end

