-- ==== Sys2Proof/Machine/Walk.lean ====
section
/-! DEFINITION. Translation of accesses in flight: the walk with its cached entries, faults, page requests and retries
(spec/05_memory_ports.md R200, R224 to R233). -/

namespace Sys2Proof.Machine

/-! ## Cached translations (R227) -/

/-- The place of an address under a cached translation of its page. -/
def TlbEntry.at (e : TlbEntry) (va : Nat) : Place := { e.place with pa := e.place.pa + va % 4096 }

/-- The translations of an address that a core's TLB and its die's hold. -/
def cachedPlaces (s : State) (core ctx va : Nat) : List Place :=
  let hit := fun (e : TlbEntry) => e.ctx == ctx && e.page == va / 4096
  ((s.core core).tlb.filter hit ++ (s.mem.tlb.filter fun e => e.1 == dieOf core && hit e.2).map Prod.snd).map fun e => e.at va

/-- The walk's answers: as the tables stand, with either choice for a 64 KiB group that disagrees (R225). -/
def walkAnswers (s : State) (ctx va : Nat) (wr : Bool) : List (WalkErr ⊕ Place) :=
  [true, false].map fun own => match translate s ctx va wr own with
    | .ok p => .inr p
    | .error e => .inl e

/-- The places of an address that pins of its page keep in use while an invalidation of it waits for them (R234). -/
def pinnedPlaces (s : State) (ctx va : Nat) : List Place :=
  if ¬ invalPending s ctx va then []
  else (s.teams.vals.filter fun t => t.ctx == ctx).flatMap fun t => t.pins.vals.flatMap fun k =>
    (k.pages.filter fun e => e.1 == va / 4096).map fun e => { e.2 with pa := e.2.pa + va % 4096 }

/-- Every answer that a translation may give: the walk's, and until an invalidation completes those still cached; while pins hold it
back, the old one. -/
def answers (s : State) (core ctx va : Nat) (wr : Bool) : List (WalkErr ⊕ Place) :=
  let checked := fun (l : List Place) => l.map fun p => match checkPlace p wr with
    | .ok q => (.inr q : WalkErr ⊕ Place)
    | .error e => .inl e
  match pinnedPlaces s ctx va with
  | [] => (checked (cachedPlaces s core ctx va) ++ walkAnswers s ctx va wr).eraseDups
  | l => (checked l).eraseDups

/-- Puts a translation into the core's and the die's TLB: 256 and 32,768 entries; a full one drops the entry that came first (DESIGN CHOICE,
notes/assumptions/98.md). -/
def cachePlace (s : State) (core ctx va : Nat) (p : Place) : State :=
  let e : TlbEntry := { ctx := ctx, page := va / 4096, place := { p with pa := p.pa - va % 4096 } }
  let die := dieOf core
  let s1 := if (s.core core).tlb.contains e then s else s.modCore core fun k => { k with tlb := (e :: k.tlb).take 256 }
  if s1.mem.tlb.contains (die, e) then s1
  else
    let own := s1.mem.tlb.filter fun x => x.1 == die
    let others := s1.mem.tlb.filter fun x => x.1 != die
    s1.modMem fun m => { m with tlb := (die, e) :: (own.take 32767 ++ others) }

/-- A translation: one of the answers, taken freely where they differ; a success is cached. -/
def chooseAnswer (s : State) (core ctx va : Nat) (wr : Bool) : (WalkErr ⊕ Place) × State :=
  let l := answers s core ctx va wr
  let r := freeBelow s l.length
  match l[r.1]? with
  | some (.inr p) => (.inr p, cachePlace r.2 core ctx va p)
  | some (.inl e) => (.inl e, r.2)
  | none => (.inl { kind := kindNotPresent, s2 := false }, r.2)

/-! ## Accesses of operations -/

/-- The address that a lane of an operation translates next, and whether for a write: the access's own, the descriptor
of `tell.arm`, the next page of the segment of `tq.init` (R200; spec/09_tell_unit.md R336, spec/10_team_scheduler.md
R383). -/
def Op.access (o : Op) (i : Item) : Nat × Bool :=
  if isMem o.unit then (i.a.toNat, isStore o.opc || isAtomic o.opc)
  else if o.unit = unitTell then (i.b.toNat % 2 ^ 57, false)
  else if o.unit = unitTq then (i.b.toNat % 2 ^ 57 + 4096 * i.extra.length, true)
  else (i.a.toNat, false)

/-- Fills a lane of an operation with values, or with POISON if the response was lost, and ends it there. -/
def finishWith (s : State) (w : WRef) (o : Op) (l : Nat) (y y2 : W64) : State :=
  let gone := (o.item? l).any fun i => i.lost
  (if gone then fillTag s w o.unit o.id l codePoison else fillVal s w o.unit o.id l y y2).modWarp w fun x => x.endItem o.id l

/-- Is a page that an address names known not to be versioned? -/
def plainPage (s : State) (ctx va : Nat) : Bool :=
  match walkPage s ctx va true with
  | .ok p => !p.ver
  | .error _ => false

/-- The operation that a parked lane waits for. -/
def Wait.op : Wait → Option Nat
  | .monitor k => some k
  | .bound k => some k
  | .object k => some k
  | _ => none

/-- A lane of an operation ends with a pending-trap tag (R203): a parked lane is released (R213), and a transactional
write or atomic dooms its transaction (spec/08_snapshot_engine.md R306) (DEDUCED, notes/assumptions/33.md). -/
def failItem (s : State) (w : WRef) (o : Op) (i : Item) (code : BitVec 8) : State :=
  let doom := isMem o.unit && (o.access i).2 && !plainPage s (s.ctxOf w.team) (o.access i).1
  (fillTag s w o.unit o.id i.lane code).modWarp w fun x =>
    let x1 := if doom && (x.txnOf o).isSome then x.doomTxn snapFaulted else x
    (if (x1.lane i.lane).wait.any fun k => k.op == some o.id then x1.release i.lane else x1).endItem o.id i.lane

/-- An operation that waited for a write that was lost fills POISON tags and does nothing (spec/11_fabric.md R417). -/
def failLost (s : State) (w : WRef) (o : Op) : State :=
  foldOver (fun s i => failItem s w o i codePoison) (dropLost s w o.id) o.items

/-! ## The walk of one access -/

/-- Is a device id configured (spec/11_fabric.md R418)? -/
def configured (s : State) (dev : Nat) : Bool :=
  let w := s.ldr.device.getD 0 0
  decide (dev % 64 < bitsOf w 25 19) && decide (dev / 64 % 64 < bitsOf w 32 26) && decide (dev / 4096 < bitsOf w 40 33)

/-- Does the host perform an atomic (R209)? -/
def hostAtomicOk (n : Nat) : Bool := n == 12 || n == 13 || n == 20 || n == 21 || n == 22 || n == 23

/-- Does a translated access end with PROTECTION: a write to a versioned page under a read-only transaction or a launch
snapshot, an atomic that the host does not do, its own or no device, a segment page outside local HBM? -/
def placeRefused (s : State) (w : WRef) (x : Warp) (o : Op) (p : Place) : Bool :=
  let write := isMem o.unit && (isStore o.opc || isAtomic o.opc)
  (write && p.ver && versionedForbidden s w x o) ||
    (isMem o.unit && isAtomic o.opc && p.tgt == 1 && !hostAtomicOk o.opc) ||
    (p.tgt == 2 && (p.dev == s.deviceId || !configured s p.dev)) ||
    (o.unit == unitTq && p.tgt != 0)

/-- May the home device refuse an access through its peer windows (spec/11_fabric.md R423)? Its windows are not this
device's state: a free choice (notes/assumptions/13.md). -/
def peerRefuses (s : State) (p : Place) : Bool × State := if p.tgt = 2 then freeBool s else (false, s)

/-- The segment pages of `tq.init`: this many. -/
def initPages (i : Item) : Nat := (8 * bitsOf i.c 27 0 + 4095) / 4096

/-- A lane of an operation has its place. A store fills here, unless it commits by itself (R201;
spec/08_snapshot_engine.md R312); `prefetch` fetches and fills (R217); `tq.init` goes on to its next page. -/
def itemPlaced (s : State) (w : WRef) (o : Op) (i : Item) (p : Place) : State :=
  let core := s.coreOf w.team
  let go := fun (s : State) (f : Item → Item) => s.modWarp w fun x => x.modOp o.id fun o => o.modItem i.lane fun i =>
    f { i with stage := .go, place := some p, epoch := s.mem.epoch }
  if isMem o.unit && isStore o.opc then
    if p.ver && !o.inTxn then go s id
    else go (fillVal s w o.unit o.id i.lane 0 0) fun i => { i with filled := true }
  else if isMem o.unit && o.opc == 27 then
    finishWith (if modeHint i.m = 2 then s else installGrain s core p false) w o i.lane 0 0
  else if o.unit = unitTq then
    let last := decide (initPages i ≤ i.extra.length + 1)
    go s fun i => { i with extra := i.extra ++ [p.pa / 4096], stage := if last then .go else .walk }
  else go s id

/-- The walk of one lane of an operation (R200, R224, R228). A prefetch that would be refused is dropped, and `pin`, `unpin` and `flush`
act on the line wherever it is (R216, R217). A peer's refusal of a store comes before the store fills (R201, R203) (DEDUCED,
notes/assumptions/13.md). -/
def walkItem (w : WRef) (id : Nat) (s : State) (lane : Nat) : State :=
  match s.warp? w with
  | none => s
  | some x =>
    match x.op? id with
    | none => s
    | some o =>
      match o.item? lane with
      | none => s
      | some i =>
        let a := o.access i
        let r := chooseAnswer s (s.coreOf w.team) (s.ctxOf w.team) a.1 a.2
        match r.1 with
        | .inr p =>
          if isMem o.unit && o.opc == 27 then
            let f := peerRefuses r.2 p
            if placeRefused r.2 w x o p || f.1 then finishWith f.2 w o lane 0 4 else itemPlaced f.2 w o i p
          else if isMem o.unit && (o.opc == 28 || o.opc == 29 || o.opc == 34) then itemPlaced r.2 w o i p
          else if placeRefused r.2 w x o p then failItem r.2 w o i codeProtection
          else
            let f := if isMem o.unit && isStore o.opc then peerRefuses r.2 p else (false, r.2)
            if f.1 then failItem f.2 w o i codeProtection else itemPlaced f.2 w o i p
        | .inl e =>
          if isMem o.unit && o.opc == 27 then finishWith r.2 w o lane 0 4
          else r.2.modWarp w fun x => x.modOp id fun o => o.modItem lane fun i =>
            { i with stage := .failed e.kind e.s2 a.1 a.2 }

/-- The lanes of an operation that wait for a walk of one page. -/
def walkers (o : Op) (page : Nat) : List Nat :=
  (o.items.filter fun i => i.stage == .walk && (o.access i).1 / 4096 == page).map fun i => i.lane

/-- The failed page of a lane's access. -/
def Item.failedPage (i : Item) : Option Nat :=
  match i.stage with
  | .failed _ _ va _ => some (va / 4096)
  | _ => none

/-! ## The fault queue (R229, R230) -/

/-- What a fault-queue entry tells. -/
structure FaultInfo where
  ctx : Nat
  kind : Nat
  s2 : Bool
  wr : Bool
  va : Nat
  core : Nat
  quad : Nat
  slot : Nat
  mem1 : Bool
  opc : Nat
  eng : Nat
  lanes : W64
  deriving DecidableEq, Repr

/-- The ring of a context: base and size. -/
def faultRing (s : State) (ctx : Nat) : Nat × Nat :=
  let w := s.cfgWord ctx 0
  (bitsOf w 63 12 * 2 ^ 12, 2 ^ bitsOf w 3 0)

/-- Is the fault ring full: its next entry number is a size ahead of the consumer index (R229)? -/
def ringFull (s : State) (ctx : Nat) : Bool :=
  match s.context? ctx with
  | none => true
  | some c =>
    let r := faultRing s ctx
    decide ((s.mem.word (r.1 + 32 * r.2)).toNat + r.2 ≤ c.fqPos)

/-- The four words of an entry (R230). -/
def faultWords (s : State) (f : FaultInfo) (rec : Bool) (req i size : Nat) : List W64 :=
  let bit := fun (b : Bool) (k : Nat) => if b then 2 ^ k else 0
  let fn := s.funcOf f.ctx
  [BitVec.ofNat 64 (f.kind * 2 ^ 61 + bit rec 60 + bit f.s2 59 + bit f.wr 58 + f.va % 2 ^ 57),
   BitVec.ofNat 64 (req * 2 ^ 48 + f.ctx % 2 ^ 16 * 2 ^ 32 + bit (fn != 64) 31 + (if fn = 64 then 0 else fn) * 2 ^ 25 +
     f.core * 2 ^ 17 + f.quad * 2 ^ 15 + f.slot * 2 ^ 11 + bit f.mem1 10 + f.opc * 2 ^ 4 + f.eng),
   f.lanes,
   BitVec.ofNat 64 ((i / size + 1) % 2 * 2 ^ 48 + s.clk % 2 ^ 48)]

/-- Writes an entry into a ring that has room. -/
def writeFault (s : State) (f : FaultInfo) (rec : Bool) (req : Nat) : State :=
  match s.context? f.ctx with
  | none => s
  | some c =>
    let r := faultRing s f.ctx
    let bytes := (faultWords s f rec req c.fqPos r.2).flatMap (wordBytes 8)
    let s1 := writeAtHome s none 256 0 0 0 s.mem.epoch (atAddr (r.1 + 32 * (c.fqPos % r.2)) bytes)
    s1.modCtx f.ctx fun c => { c with fqPos := c.fqPos + 1 }

/-- Counts a retry, or an entry that found no room (R229). -/
def countRetry (s : State) (ctx : Nat) : State := s.modCtx ctx fun c => { c with fqRetries := c.fqRetries + 1 }

/-- The outstanding request of a function for a page, if any. -/
def requestFor (s : State) (ctx page : Nat) : Option Nat :=
  ((s.func (s.funcOf ctx)).reqs.entries.find? fun e => e.2.ctx == ctx && e.2.page == page).map Prod.fst

/-- The next id of a function that no outstanding request bears, from `n` on: 1 to 65,535 (R231) (DESIGN CHOICE, notes/assumptions/98.md). -/
def freeReqId (reqs : FMap PageReq) (n : Nat) : Nat → Nat
  | 0 => n
  | k + 1 => if reqs.has n then freeReqId reqs (if n = 65535 then 1 else n + 1) k else n

/-- Queues a page request and gives its id (R229, R231). -/
def newRequest (s : State) (ctx page : Nat) : Nat × State :=
  let f := s.funcOf ctx
  let g := s.func f
  let id := freeReqId g.reqs g.nextReq 4096
  (id, s.modFunc f fun g =>
    { g with reqs := g.reqs.insert id { ctx := ctx, page := page, clk := s.clk },
             nextReq := if id = 65535 then 1 else id + 1 })

/-- What a fault comes to: it is tried again at a later clk, waits on a page request, or fails. -/
inductive FaultOut where
  | again
  | paged (req : Nat)
  | fails
  deriving DecidableEq, Repr

/-- Reports a fault: entry, and request where it is recoverable (R229, R231). -/
def reportFault (s : State) (f : FaultInfo) : FaultOut × State :=
  if recoverable s f.ctx f.kind then
    let full := ringFull s f.ctx
    match requestFor s f.ctx (f.va / 4096) with
    | some r => if full then (.again, s) else (.paged r, writeFault s f true r)
    | none =>
      if full ∨ 4096 ≤ (s.func (s.funcOf f.ctx)).reqs.entries.length then (.again, s)
      else
        let q := newRequest s f.ctx (f.va / 4096)
        (.paged q.1, writeFault q.2 f true q.1)
  else (.fails, if ringFull s f.ctx then countRetry s f.ctx else writeFault s f false 0)

/-- ENG of a unit (R230). -/
def engOf (u : Nat) : Nat :=
  if isMem u then 0 else if u = unitCp then 1 else if u = unitMx then 2 else if u = unitTell then 3 else if u = unitTq then 4
  else 5

/-- A fault of an operation: its lanes whose access failed on the page of `lane`'s (R229). -/
def opFault (s : State) (w : WRef) (id lane : Nat) : State :=
  match s.team? w.team, s.warp? w with
  | some t, some x =>
    match x.op? id with
    | none => s
    | some o =>
      match (o.item? lane).bind Item.failedPage with
      | none => s
      | some page =>
        let group := o.items.filter fun i => i.failedPage == some page
        match group with
        | [] => s
        | g :: _ =>
          match g.stage with
          | .failed kind s2 va wr =>
            let r := reportFault s
              { ctx := t.ctx, kind := kind, s2 := s2, wr := wr, va := va, core := t.core, quad := x.quad, slot := x.slot,
                mem1 := o.unit == 9, opc := o.opc, eng := engOf o.unit, lanes := maskOf (group.map fun i => i.lane) }
            let setStage := fun (st : Stage) => r.2.modWarp w fun x => x.modOp id fun o =>
              foldOver (fun o (i : Item) => o.modItem i.lane fun i => { i with stage := st }) o group
            match r.1 with
            | .again => setStage (.retry (s.clk + 1024))
            | .paged q => setStage (.paged q)
            | .fails => foldOver (fun s i => failItem s w o i (kindCode kind)) r.2 group
          | _ => s
  | _, _ => s

/-! ## Jobs -/

/-- Job `j` of a team. -/
def Team.job? (t : Team) (j : Nat) : Option Job := firstWhere (fun x => x.id == j) t.jobs

/-- Changes a job of a team. -/
def State.modJob (s : State) (team j : Nat) (f : Job → Job) : State :=
  s.modTeam team fun t => { t with jobs := t.jobs.map fun x => if x.id = j then f x else x }

/-- A fault of an engine job: it halts at its cursor, or ends with the code (spec/06_copy_engine.md R253,
spec/07_matrix_engine.md R279). -/
def jobFault (s : State) (team j : Nat) : State :=
  match s.team? team with
  | none => s
  | some t =>
    match t.job? j with
    | none => s
    | some b =>
      match b.stage with
      | .failed kind s2 va wr =>
        let x := (t.warps[b.warp]?)
        let r := reportFault s
          { ctx := t.ctx, kind := kind, s2 := s2, wr := wr, va := va, core := b.core,
            quad := (x.map fun y => y.quad).getD 0, slot := (x.map fun y => y.slot).getD 0, mem1 := false, opc := b.opc,
            eng := engOf b.unit, lanes := BitVec.ofNat 64 (2 ^ b.lane) }
        match r.1 with
        | .again => r.2.modJob team j fun b => { b with stage := .retry (s.clk + 1024) }
        | .paged q => r.2.modJob team j fun b => { b with stage := .paged q }
        | .fails => r.2.modJob team j fun b =>
          { b with stage := .go, ending := true, tag := kindCode kind, bar := if va / 64 * 64 = b.bar then 0 else b.bar }
      | _ => s

/-! ## The steps -/

/-- TABLE_WALK (R200, R224): the lanes of the operation on the subject's page are translated; a failure is reported next.
A job makes its translations as it goes on (spec/06_copy_engine.md R253). -/
def execTableWalk (s : State) : Host.Outcome State Fault Refusal :=
  match s.subject with
  | .trans (.op w id lane) =>
    match (s.warp? w).bind fun x => x.op? id with
    | some o =>
      match o.item? lane with
      | some i =>
        if i.stage = .walk ∧ s.onCore w.team then
          let page := (o.access i).1 / 4096
          let s1 := foldOver (walkItem w id) s (walkers o page)
          let bad := match (s1.warp? w).bind fun x => x.op? id with
            | some o => (o.items.filter fun j => j.failedPage == some page).map fun j => j.lane
            | none => []
          .next (match bad with
            | l :: _ => pushTurns s1 [.event .translationFault (.trans (.op w id l))]
            | [] => s1)
        else .next s
      | none => .next s
    | none => .next s
  | .trans (.job team j) =>
    .next (s.modJob team j fun b => if b.stage = .walk then { b with stage := .go } else b)
  | _ => .next s

/-- TRANSLATION_FAULT (R229, R230, R203). -/
def execTranslationFault (s : State) : Host.Outcome State Fault Refusal :=
  match s.subject with
  | .trans (.op w id lane) => .next (opFault s w id lane)
  | .trans (.job team j) => .next (jobFault s team j)
  | _ => .next s

/-- A stage that waits for room in the fault ring and may try again. -/
def Stage.retryDue (st : Stage) (clk : Nat) : Bool :=
  match st with
  | .retry c => decide (c ≤ clk)
  | _ => false

/-- FAULT_QUEUE_RETRY (R229): a fault that found no room translates again, and the retry is counted. -/
def execFaultQueueRetry (s : State) : Host.Outcome State Fault Refusal :=
  match s.subject with
  | .trans (.op w id lane) =>
    match ((s.warp? w).bind fun x => x.op? id).bind fun o => o.item? lane with
    | some i =>
      if i.stage.retryDue s.clk then
        .next ((countRetry s (s.ctxOf w.team)).modWarp w fun x => x.modOp id fun o => o.modItem lane fun i =>
          { i with stage := .walk })
      else .next s
    | none => .next s
  | .trans (.job team j) =>
    match (s.team? team).bind fun t => t.job? j with
    | some b =>
      if b.stage.retryDue s.clk then
        .next ((countRetry s (s.ctxOf team)).modJob team j fun b => { b with stage := .walk })
      else .next s
    | none => .next s
  | _ => .next s

/-! ## Answers to page requests (R231 to R233) -/

/-- Who waits on a request: lanes of operations, and jobs. -/
def waitersOn (s : State) (f req : Nat) : List TransRef :=
  s.teams.entries.flatMap fun e =>
    if s.funcOf e.2.ctx = f then
      ((e.2.refs e.1).flatMap fun w => match s.warp? w with
        | none => []
        | some x => x.ops.flatMap fun o =>
          (o.items.filter fun i => i.stage == .paged req).map fun i => TransRef.op w o.id i.lane) ++
      ((e.2.jobs.filter fun b => b.stage == .paged req).map fun b => TransRef.job e.1 b.id)
    else []

/-- A waiter translates again. -/
def retryWaiter (s : State) : TransRef → State
  | .op w id lane => s.modWarp w fun x => x.modOp id fun o => o.modItem lane fun i => { i with stage := .walk }
  | .job team j => s.modJob team j fun b => { b with stage := .walk }

/-- A waiter fails with TRANSLATION. -/
def tagWaiter (s : State) : TransRef → State
  | .op w id lane =>
    match (s.warp? w).bind fun x => x.op? id with
    | some o => match o.item? lane with
      | some i => failItem s w o i codeTranslation
      | none => s
    | none => s
  | .job team j => s.modJob team j fun b => { b with stage := .go, ending := true, tag := codeTranslation }

/-- The end of a request: its waiters translate again, or fail. -/
def endRequest (s : State) (f req : Nat) (again : Bool) : State :=
  let ws := waitersOn s f req
  let s1 := s.modFunc f fun g => { g with reqs := g.reqs.erase req }
  foldOver (if again then retryWaiter else tagWaiter) s1 ws

/-- PAGE_REQUEST_TIMEOUT (R233): a request older than the context's STO2 becomes TRANSLATION for its waiters. -/
def execPageRequestTimeout (s : State) : Host.Outcome State Fault Refusal :=
  match s.subject with
  | .pair f req =>
    match (s.func f).reqs.find? req with
    | some q =>
      if q.clk + 2 ^ bitsOf (s.cfgWord q.ctx 4) 21 16 < s.clk then .next (endRequest s f req false) else .next s
    | none => .next s
  | _ => .next s

end Sys2Proof.Machine
end

