-- ==== Sys2Proof/Machine/Loads.lean ====
section
/-! DEFINITION. Loads and the other reads of global memory and team store, pins and flushes
(spec/01_engines_together.md R50, R51; spec/05_memory_ports.md R201 to R206, R210, R211, R215 to R218, R223;
spec/08_snapshot_engine.md R291, R292, R301, R311, R314). -/

namespace Sys2Proof.Machine

/-! ## The subject of a step -/

/-- One lane of an operation in flight, with its warp. -/
structure Pick where
  w : WRef
  warp : Warp
  op : Op
  item : Item

/-- The lane of an operation that the subject names. -/
def pickItem (s : State) : Option Pick :=
  match s.subject with
  | .op w id lane =>
    match s.warp? w with
    | some x =>
      match x.op? id with
      | some o => (o.item? lane).map fun i => { w := w, warp := x, op := o, item := i }
      | none => none
    | none => none
  | _ => none

/-- May an operation go on: its team is on a core, or it waits at its home while the team is saved? -/
def Pick.goesOn (p : Pick) (s : State) : Bool :=
  s.onCore p.w.team || (isMem p.op.unit && p.op.opc == 26) || (p.op.unit == unitCp && p.op.opc == 12)

/-- A step on the subject's lane; nothing where it names none. -/
def onItem (f : Pick → State → State) (s : State) : Host.Outcome State Fault Refusal :=
  match pickItem s with
  | some p => .next (if p.goesOn s then f p s else s)
  | none => .next s

/-- Width of a lane's access. -/
def Op.width (o : Op) (i : Item) : Nat :=
  if isMem o.unit then memWidth o.opc i.c else if o.unit = unitTell then 128 else if bitOf i.m 0 then 8 else 4

/-- Do byte ranges overlap? -/
def overlap (a n b m : Nat) : Bool := decide (a < b + m) && decide (b < a + n)

/-! ## Team store (R61) -/

/-- Do two lanes of team-store accesses touch a common byte? -/
def tsOverlap (o p : Op) (i j : Item) : Bool :=
  isMem o.unit && isMem p.unit && isTs o.opc i.m && isTs p.opc j.m &&
    overlap i.a.toNat (o.width i) j.a.toNat (p.width j)

/-- Is every earlier team-store access of the warp to the lane's bytes performed (R50)? -/
def tsClear (x : Warp) (o : Op) (i : Item) : Bool :=
  (x.earlier o.id).all fun p => p.items.all fun j => !tsOverlap o p i j

/-- Bytes of team store. -/
def Team.tsRead (t : Team) (a n : Nat) : List Byte := (List.range n).map fun k => t.tstore.getD (a + k) 0

/-- Does a range touch a poisoned word of team store (R223)? -/
def Team.tsPoisoned (t : Team) (a n : Nat) : Bool := t.tsPoison.any fun w => overlap (4 * w) 4 a n

/-- Writes bytes of team store; words written whole lose their poison (R223). -/
def Team.tsWrite (t : Team) (l : List (Nat × Byte)) : Team :=
  { t with
    tstore := foldOver (fun (m : FMap Byte) b => m.setD b.1 0 b.2) t.tstore l
    tsPoison := t.tsPoison.filter fun w => !((List.range 4).all fun k => l.any fun b => b.1 == 4 * w + k) }

/-! ## Reads of global memory -/

/-- A byte that a queued store lane writes to a byte of memory, and whether the lane might still write it: by its place,
or by its address while that is not translated. -/
inductive Queued where
  | no
  | byte (b : Byte)
  | unknown
  deriving DecidableEq, Repr

/-- What a lane of a queued store does to the byte at place offset `k` of an access. -/
def queuedByte (n : Nat) (st : Item) (va : Nat) (p : Place) (k : Nat) : Queued :=
  match st.place with
  | some q =>
    if q.tgt = p.tgt ∧ q.dev = p.dev ∧ q.pa ≤ p.pa + k ∧ p.pa + k < q.pa + memWidth n st.c then
      .byte ((wordBytes 8 st.b).getD (p.pa + k - q.pa) 0)
    else .no
  | none => if st.a.toNat ≤ va + k ∧ va + k < st.a.toNat + memWidth n st.c then .unknown else .no

/-- The youngest queued write of a byte: the highest lane of the latest entry (R51, R52). Writes that a doomed or aborted
transaction discards are passed by. -/
def youngest (x : Warp) (before va : Nat) (p : Place) (k : Nat) : Queued :=
  let entries := x.ops.filter fun o => x.sq.contains o.id && decide (o.id < before) && !(x.discards o && p.ver)
  foldOver
    (fun (r : Queued) (o : Op) => foldOver
      (fun (r : Queued) (st : Item) =>
        if isTs o.opc st.m then r
        else match queuedByte o.opc st va p k with
          | .no => r
          | q => q) r o.items)
    .no entries

/-- What the store queue gives a read of `n` bytes: nothing, all the bytes, or the read waits (R51 item 5). -/
inductive Forward where
  | none
  | bytes (l : List Byte)
  | waits
  deriving DecidableEq, Repr

/-- A read that is not to wait takes what is there. -/
def Forward.unless (f : Forward) (now : Bool) : Forward := if now && f == .waits then .none else f

/-- Forwarding from the store queue (DEDUCED, notes/assumptions/42.md). -/
def forward (x : Warp) (before va n : Nat) (p : Place) : Forward :=
  let q := (List.range n).map (youngest x before va p)
  if q.all fun b => b == .no then .none
  else if q.all fun b => match b with
      | .byte _ => true
      | _ => false then
    .bytes (q.map fun b => match b with
      | .byte v => v
      | _ => 0)
  else .waits

/-- The bytes of a versioned page as an operation sees them, where it does not read the newest version (R301, R314). -/
def viewBytes (s : State) (w : WRef) (x : Warp) (o : Op) (p : Place) (n : Nat) : Option (List Byte) :=
  if ¬ p.ver then none
  else
    match x.txnOf o with
    | some t => some ((List.range n).map fun k => txnByte s t (p.pa + k))
    | none => (s.launchTime w.team).map fun t => (List.range n).map fun k => snapByte s t (p.pa + k)

/-- Does the view of an operation that does not read the newest version touch poison in the versions that it reads (R322;
spec/05_memory_ports.md R223)? -/
def viewPoisoned (s : State) (w : WRef) (x : Warp) (o : Op) (p : Place) (n : Nat) : Bool :=
  p.ver && match x.txnOf o with
    | some t => (List.range n).any fun k => txnPoisoned s t (p.pa + k)
    | none => match s.launchTime w.team with
      | some t => (List.range n).any fun k => snapPoisoned s t (p.pa + k)
      | none => false

/-- Does a range at a place touch poison (R223)? -/
def poisonedAt (s : State) (p : Place) (n : Nat) : Bool := s.mem.touchesPoison p.gaddr n

/-- Does a queued store write every byte of a sector, by its number over all targets? -/
def storeCovers (o : Op) (sec : Nat) : Bool :=
  (List.range 32).all fun k => o.items.any fun i => match i.place with
    | some p => decide (p.gaddr ≤ 32 * sec + k) && decide (32 * sec + k < p.gaddr + memWidth o.opc i.c)
    | none => false

/-- Does an older store of a warp that is not performed yet write every byte of a sector? -/
def ownCovers (s : State) (w : WRef) (x : Warp) (before sec : Nat) : Bool :=
  (s.mem.writes.vals.any fun m =>
    m.warp == some w && !m.performed && decide (32 ≤ (m.bytes.filter fun b => gaddr m.tgt m.dev b.1 / 32 == sec).length)) ||
    x.ops.any fun o => x.sq.contains o.id && decide (o.id < before) && storeCovers o sec

/-- Does a range of a global address touch a poisoned sector of a copy in L2? -/
def RemoteLine.touches (r : RemoteLine) (line g n : Nat) : Bool := r.poison.any fun k => overlap (512 * line + 32 * k) 32 g n

/-- Does a load touch poison: a sector that its own warp's older store will clear is poisoned no more for it (R51, R223); of a remote
line, its die's copy where the core's L1 holds none (R222)? -/
def loadPoisoned (s : State) (p : Pick) (q : Place) (n : Nat) : Bool :=
  let core := s.coreOf p.w.team
  let home := s.mem.poison.any fun sec => overlap (32 * sec) 32 q.gaddr n && !ownCovers s p.w p.warp p.op.id sec
  if q.tgt = 0 then home
  else !l1Hit s core q.gaddr n true &&
    match s.remoteLine core q.line with
    | some r => r.touches q.line q.gaddr n
    | none => home

/-- .y of a load (R198). -/
def loadValue (n : Nat) (bs : List Byte) : W64 :=
  let v := wordOf bs
  if n = 1 then (v.setWidth 8).signExtend 64 else if n = 3 then (v.setWidth 16).signExtend 64 else v

/-- May a read of global memory perform now: the warp's earlier reads are done, no fence or acquire is before it? -/
def mayRead (x : Warp) (o : Op) : Bool := x.readsDone o.id false && x.unfenced o.id

/-- A lane has read: its warp notes it, and an acquire discards copies (R55, R211). -/
def afterRead (s : State) (p : Pick) : State :=
  s.modWarp p.w fun x => x.noteRead s.nextId

/-- The copies that an acquire load discards; the acquire of a transactional read is not performed (R211;
spec/08_snapshot_engine.md R301). -/
def acquireEnd (s : State) (p : Pick) : State :=
  let ver := match p.item.place with
    | some q => q.ver
    | none => false
  if isAcqLoad p.op.opc && !(p.op.inTxn && ver) then acquireDiscards s (s.coreOf p.w.team) (modeScope p.item.m) else s

/-- Fills a load with its bytes. -/
def fillLoad (p : Pick) (bs : List Byte) (s : State) : State :=
  let s1 := acquireEnd (afterRead s p) p
  finishWith s1 p.w p.op p.item.lane (loadValue p.op.opc bs) 0

/-- Sends the lane's request to its place, with `n` bytes of operands, if that is not done (R402). -/
def requestOnce (p : Pick) (q : Place) (n : Nat) (s : State) : State :=
  if p.item.trip = 0 then sendRequest s p.w p.op.id p.item.lane (targetEndpoint q.tgt q.dev q.pa) 0 n else s

/-- The answer of the home has come: a peer may refuse the access, with a PROTECTION tag (spec/11_fabric.md R423). -/
def answered (p : Pick) (q : Place) (s : State) (f : State → State) : State :=
  let r := if p.item.stage = .go then peerRefuses s q else (false, s)
  if r.1 then failItem r.2 p.w p.op p.item codeProtection else f r.2

/-- A plain load of global memory: from a copy, or from below with the grain installed (R206, R215, R218). -/
def loadPlain (p : Pick) (q : Place) (n : Nat) (s : State) : State :=
  let core := s.coreOf p.w.team
  let nc := p.op.opc == 35
  if l1Hit s core q.gaddr n nc && p.item.trip == 0 then
    if loadPoisoned s p q n then failItem s p.w p.op p.item codePoison else fillLoad p (l1Bytes s core q.gaddr n) s
  else if p.item.trip = 2 then
    if loadPoisoned s p q n then failItem s p.w p.op p.item codePoison
    else if l1Hit s core q.gaddr n nc then fillLoad p (l1Bytes s core q.gaddr n) s
    else answered p q s fun s =>
      let bs := (List.range n).map fun k => missByte s core q.tgt q.dev (q.pa + k)
      fillLoad p bs (if modeHint p.item.m = 2 ∨ p.item.spoiled then s else installGrain s core q nc)
  else requestOnce p q 0 (if p.item.trip = 0 then countEvent s core 0x04 else s)

/-- A load of global memory. -/
def loadGlobal (p : Pick) (q : Place) (s : State) : State :=
  let n := p.op.width p.item
  if ¬ mayRead p.warp p.op then s
  else
    match forward p.warp p.op.id p.item.a.toNat n q with
    | .waits => s
    | .bytes bs =>
      if (viewBytes s p.w p.warp p.op q n).isNone && loadPoisoned s p q n then failItem s p.w p.op p.item codePoison
      else fillLoad p bs s
    | .none =>
      match viewBytes s p.w p.warp p.op q n with
      | some bs =>
        if p.item.trip = 2 then
          if viewPoisoned s p.w p.warp p.op q n then failItem s p.w p.op p.item codePoison else fillLoad p bs s
        else requestOnce p q 0 s
      | none => loadPlain p q n s

/-- A load of team store. -/
def loadTeam (p : Pick) (s : State) : State :=
  match s.team? p.w.team with
  | none => s
  | some t =>
    let n := p.op.width p.item
    let a := p.item.a.toNat
    if ¬ tsClear p.warp p.op p.item ∨ ¬ p.warp.unfenced p.op.id then s
    else if t.tsPoisoned a n then failItem s p.w p.op p.item codePoison
    else fillLoad p (t.tsRead a n) s

/-! ## Pins and flushes (R216, R217) -/

/-- Lines pinned in a home slice, by any team. -/
def slicePins (s : State) (h : Nat) : Nat :=
  ((s.teams.vals.flatMap fun t => t.pins.keys.filter fun line => homeSlice (line * 512) == h).eraseDups).length

/-- Is a line pinned by some team? -/
def linePinned (s : State) (line : Nat) : Bool := s.teams.vals.any fun t => t.pins.has line

/-- One pin more of a line, by an address of its page. -/
def Pin.more (k : Pin) (va : Nat) (q : Place) : Pin :=
  let e := (va / 4096, { q with pa := q.pa / 4096 * 4096 })
  { count := k.count + 1, pages := if k.pages.contains e then k.pages else e :: k.pages }

/-- `pin` at the home: the status, and the team's pins (DEDUCED, notes/assumptions/46.md). -/
def pinAt (s : State) (team va : Nat) (q : Place) : Nat × State :=
  let line := q.pa / 512
  let held := match s.team? team with
    | some t => t.pins.getD line { count := 0, pages := [] }
    | none => { count := 0, pages := [] }
  if q.tgt ≠ 0 then (2, s)
  else if 255 ≤ held.count ∨ (¬ linePinned s line ∧ 512 ≤ slicePins s (homeSlice q.pa)) then (1, s)
  else (0, s.modTeam team fun t => { t with pins := t.pins.insert line (held.more va q) })

/-- `unpin` at the home. -/
def unpinAt (s : State) (team : Nat) (q : Place) : Nat × State :=
  let line := q.pa / 512
  match (s.team? team).bind fun t => t.pins.find? line with
  | some k =>
    if q.tgt ≠ 0 then (3, s)
    else (0, s.modTeam team fun t =>
      { t with pins := if k.count ≤ 1 then t.pins.erase line else t.pins.insert line { k with count := k.count - 1 } })
  | none => (3, s)

/-- `flush` drops the remote or host copies of the line: of the device's L2 and of the core's L1 (R217). -/
def flushAt (s : State) (core : Nat) (q : Place) : State :=
  if q.tgt = 0 then s
  else
    (s.dropCopies core fun sec _ => sec / 16 == q.line).modMem fun m =>
      { m with remote := m.remote.filter fun key _ => key / 4 != q.line }

/-- `pin`, `unpin` or `flush` of one lane. -/
def cacheControl (p : Pick) (q : Place) (s : State) : State :=
  if p.item.trip ≠ 2 then requestOnce p q 0 s
  else if p.op.opc = 34 then finishWith (flushAt s (s.coreOf p.w.team) q) p.w p.op p.item.lane 0 0
  else
    let r := if p.op.opc = 28 then pinAt s p.w.team p.item.a.toNat q else unpinAt s p.w.team q
    finishWith r.2 p.w p.op p.item.lane 0 (BitVec.ofNat 64 r.1)

/-! ## snap.ld.at (spec/08_snapshot_engine.md R311) -/

/-- The read as of a time, made at the home: value and status. -/
def readAt (s : State) (q : Place) (time n : Nat) : W64 × Nat :=
  if s.eng.snap.published < time then (0, snapFuture)
  else if time < s.eng.snap.lwm then (0, snapTooOld)
  else (wordOf ((List.range n).map fun k => snapByte s time (q.pa + k)), 0)

/-- Is a team being saved, from the clk in which nothing of it commits any more (spec/12_supervisor.md R455)? -/
def State.saving (s : State) (team : Nat) : Bool := (s.team? team).any fun t => t.status == .saving && decide (t.savedAt ≤ s.clk)

/-- `ld.at` of one lane. While its team is being saved it waits for nothing that the save does not wait for (R320). -/
def loadAt (p : Pick) (q : Place) (s : State) : State :=
  let n := p.op.width p.item
  let now := s.saving p.w.team
  if ¬ now ∧ ¬ mayRead p.warp p.op then s
  else
    match if q.ver then Forward.none else (forward p.warp p.op.id p.item.a.toNat n q).unless now with
    | .waits => s
    | .bytes bs => finishWith (afterRead s p) p.w p.op p.item.lane (wordOf bs) (BitVec.ofNat 64 snapNotVersioned)
    | .none =>
      if p.item.trip ≠ 2 then requestOnce p q 0 s
      else
        let core := s.coreOf p.w.team
        let r := if q.ver then readAt s q (bitsOf p.item.b 55 0) n
          else
            (wordOf (if l1Hit s core q.gaddr n false then l1Bytes s core q.gaddr n
              else (List.range n).map fun k => missByte s core q.tgt q.dev (q.pa + k)), snapNotVersioned)
        let bad := if q.ver then (List.range n).any fun k => snapPoisoned s (bitsOf p.item.b 55 0) (q.pa + k)
          else loadPoisoned s p q n
        if bad ∧ r.2 ≠ snapFuture ∧ r.2 ≠ snapTooOld then failItem s p.w p.op p.item codePoison
        else finishWith (afterRead s p) p.w p.op p.item.lane r.1 (BitVec.ofNat 64 r.2)

/-! ## The step -/

/-- Is the operation one that LOAD_FILL makes: a load, `pin`, `unpin`, `flush`, `snap.ld.at`? -/
def Op.filledByLoad (o : Op) : Bool :=
  (isMem o.unit && (isLoad o.opc || o.opc == 28 || o.opc == 29 || o.opc == 34)) || o.isLdAt

/-- One lane's read performs, if it may now. -/
def loadLane (p : Pick) (s : State) : State :=
  if ¬ p.op.filledByLoad ∨ p.item.stage ≠ .go then s
  else if isMem p.op.unit && isTs p.op.opc p.item.m then loadTeam p s
  else
    match p.item.place with
    | none => s
    | some q =>
      if p.op.isLdAt then loadAt p q s
      else if isLoad p.op.opc then loadGlobal p q s
      else cacheControl p q s

/-- LOAD_FILL (R201): the read of the subject's lane performs and fills, or its request is sent on its way. -/
def execLoadFill (s : State) : Host.Outcome State Fault Refusal := onItem loadLane s

end Sys2Proof.Machine
end

