-- ==== Sys2Proof/Machine/Stores.lean ====
section
/-! DEFINITION. Stores and atomics as they perform: the store queue, the team-store arbiter, the home slice, the write set
of a transaction (spec/01_engines_together.md R51, R52, R56, R61; spec/05_memory_ports.md R205 to R210, R223;
spec/08_snapshot_engine.md R302, R303, R312). -/

namespace Sys2Proof.Machine

/-! ## The store queue (R206) -/

/-- The lanes of a store that go to global memory. -/
def Op.globalItems (o : Op) : List Item := o.items.filter fun i => !isTs o.opc i.m

/-- The bytes that one lane writes at its place. -/
def placedBytes (o : Op) (i : Item) : List (Nat × Byte) :=
  match i.place with
  | some p => atAddr p.pa (wordBytes (o.width i) i.b)
  | none => []

/-- What becomes of a store lane's write: it is discarded, goes to the write set, commits by itself, or goes to its home. -/
inductive StoreWay where
  | discarded
  | writeSet
  | commits
  | plain
  deriving DecidableEq, Repr

/-- The way of a lane's write (R206; spec/08_snapshot_engine.md R302, R306, R312). -/
def storeWay (x : Warp) (o : Op) (i : Item) : StoreWay :=
  match i.place with
  | none => .plain
  | some p =>
    if ¬ p.ver then .plain else if x.discards o then .discarded else if o.inTxn then .writeSet else .commits

/-- The scope at which a release store waits, if it does: its versioned lanes in a transaction perform no release
(R210; spec/08_snapshot_engine.md R302). -/
def releaseScope (x : Warp) (o : Op) : Option Nat :=
  if ¬ isRelStore o.opc then none
  else
    match (o.globalItems.filter fun i => storeWay x o i == .plain || storeWay x o i == .commits).map fun i => modeScope i.m with
    | [] => none
    | l => some (maxOf l)

/-- May the head entry leave its queue (R51 item 3, R206, R210)? -/
def mayLeave (s : State) (w : WRef) (x : Warp) (o : Op) : Bool :=
  o.globalItems.all (fun i => i.stage == .go) && x.readsDone o.id true && x.unfenced o.id &&
    match releaseScope x o with
    | some sc => fenceReady s w o.id sc
    | none => true

/-- The bytes that several lanes write at one target, each with its lane: the highest lane's value of each byte (R52). -/
def mergeLanes (o : Op) (l : List Item) : FMap (Byte × Nat) :=
  foldOver (fun m (i : Item) => foldOver (fun (m : FMap (Byte × Nat)) b => m.insert b.1 (b.2, i.lane)) m (placedBytes o i))
    .empty l

/-- The writes that merged bytes make: a sector written whole is one write, else one for each lane in it (R49, R223). -/
def writesOf (m : FMap (Byte × Nat)) : List (List (Nat × Byte)) :=
  let secs := (m.keys.map fun a => a / 32).eraseDups
  secs.flatMap fun sec =>
    let bs := m.entries.filter fun e => e.1 / 32 == sec
    if bs.length = 32 then [bs.map fun e => (e.1, e.2.1)]
    else ((bs.map fun e => e.2.2).eraseDups).map fun l => (bs.filter fun e => e.2.2 == l).map fun e => (e.1, e.2.1)

/-- The targets that lanes write: target and device. -/
def targetsOf (l : List Item) : List (Nat × Nat) :=
  (l.filterMap fun i => i.place.map fun p => (p.tgt, p.dev)).eraseDups

/-- The oldest epoch that lanes carry (R235). -/
def oldestEpoch (s : State) (l : List Item) : Nat := minOf (l.map fun i => i.epoch) s.mem.epoch

/-- The plain writes of an entry leave for their homes (R206). -/
def leavePlain (w : WRef) (o : Op) (l : List Item) (s : State) : State :=
  foldOver
    (fun s (td : Nat × Nat) =>
      let ls := l.filter fun i => match i.place with
        | some p => p.tgt == td.1 && p.dev == td.2
        | none => false
      foldOver
        (fun s bs => launchWrite s (some w) (s.coreOf w.team) (s.ctxOf w.team) o.id td.1 td.2
          (oldestEpoch s ls) bs)
        s (writesOf (mergeLanes o ls)))
    s (targetsOf l)

/-- Ends lanes of an operation. -/
def endItems (s : State) (w : WRef) (id : Nat) (l : List Item) : State :=
  s.modWarp w fun x => foldOver (fun x (i : Item) => x.endItem id i.lane) x l

/-! ## The write set (spec/08_snapshot_engine.md R302) -/

/-- Writes bytes of one lane into the write set. -/
def Txn.write (t : Txn) (va : Nat) (l : List (Nat × Byte)) : Txn :=
  match l with
  | [] => t
  | b :: _ =>
    let line := b.1 / 512
    let old := (t.lines.find? line).getD { va := va / 512 * 512, pa := line * 512, bytes := .empty }
    { t with lines := t.lines.insert line { old with bytes := foldOver (fun m x => m.insert (x.1 % 512) x.2) old.bytes l } }

/-- The lines that lanes would add to a write set. -/
def newLines (t : Txn) (o : Op) (l : List Item) : Nat :=
  ((l.flatMap fun i => (placedBytes o i).map fun b => b.1 / 512).eraseDups.filter fun n => !t.lines.has n).length

/-- Puts the writes of lanes into the write set: CAPACITY beyond 2,048 lines; without heap room they wait, from clk
`info` on (R302, R319). Answers whether they are in. -/
def intoWriteSet (s : State) (w : WRef) (o : Op) (l : List Item) : Bool × State :=
  match (s.warp? w).bind fun x => x.txnOf o with
  | none => (true, s)
  | some t =>
    let n := newLines t o l
    if 2048 < t.lines.entries.length + n then (true, s.modWarp w fun x => x.doomTxn snapCapacity)
    else
      let r := if n = 0 then (true, s) else heapRoom s n
      if r.1 then
        (true, r.2.modWarp w fun x =>
          { x with txn := x.txn.map fun t => foldOver (fun t (i : Item) => t.write i.a.toNat (placedBytes o i)) t l }.modOp o.id fun o =>
            if o.info.head? = some 2 then { o with info := [] } else o)
      else
        (false, r.2.modWarp w fun x => x.modOp o.id fun o => { o with info := if o.info.isEmpty then [2, s.clk] else o.info })

/-! ## Auto-commits of an entry (spec/08_snapshot_engine.md R312) -/

/-- One auto-commit for each line that an entry's lanes write, by rising line. -/
def leaveCommits (w : WRef) (o : Op) (l : List Item) (s : State) : State :=
  if l.isEmpty then s
  else
    let s1 := foldOver (fun s bs => autoCommit s (some w) o.id 0 none (oldestEpoch s l) bs) s
      (byLine ((mergeLanes o l).entries.map fun e => (e.1, e.2.1)))
    s1.modWarp w fun x => x.modOp o.id fun o => { o with info := [1] }

/-- The head entry of a warp's store queue leaves, as far as it can (R206). Its versioned lanes that commit by themselves
keep it at the head until they are published. -/
def leaveQueue (s : State) (w : WRef) : State :=
  match s.warp? w with
  | none => s
  | some x =>
    match x.sq with
    | [] => s
    | id :: _ =>
      match x.op? id with
      | none => s
      | some o =>
        if ¬ s.onCore w.team ∨ o.info = [1] ∨ ¬ mayLeave s w x o then s
        else
          let items := o.globalItems
          let way := fun k => items.filter fun i => storeWay x o i == k
          let r := intoWriteSet s w o (way .writeSet)
          if (releaseScope x o).any (fun sc => sc != 0) ∧ lostBefore s w id then failLost s w o
          else if ¬ r.1 then r.2
          else
            let s1 := leaveCommits w o (way .commits) (leavePlain w o (way .plain) r.2)
            endItems s1 w id (way .plain ++ way .discarded ++ way .writeSet)

/-- STORE_QUEUE_LEAVE (R206): the head entry of the subject's warp leaves. -/
def execStoreQueueLeave (s : State) : Host.Outcome State Fault Refusal :=
  match s.subject with
  | .warp w => .next (leaveQueue s w)
  | _ => .next s

/-! ## The team-store arbiter (R61) -/

/-- The barriers whose phase waits for an entry. -/
def barsWaiting (t : Team) (op : Nat) : List Nat := (t.bars.entries.filter fun e => e.2.stores.contains op).map Prod.fst

/-- May a store pass the arbiter: it is its warp's first, and what orders it is done? -/
def mayPass (s : State) (w : WRef) (t : Team) (x : Warp) (o : Op) : Bool :=
  let ts := o.items.filter fun i => isTs o.opc i.m
  (match firstWhere (fun (a : TsWrite) => a.warp == w.warp) t.arb with
   | some a => a.op == o.id
   | none => false) &&
    ts.all (tsClear x o) && x.unfenced o.id &&
    (!isRelStore o.opc || fenceReady s w o.id (maxOf (ts.map fun i => modeScope i.m)))

/-- TSTORE_ARBITER_PASS (R61): the subject's store passes and fills; barriers that wait for it are looked at. -/
def execTstoreArbiterPass (s : State) : Host.Outcome State Fault Refusal :=
  match s.subject with
  | .op w id _ =>
    match s.team? w.team, s.warp? w with
    | some t, some x =>
      match x.op? id, firstWhere (fun (a : TsWrite) => a.op == id) t.arb with
      | some o, some a =>
        if t.status ≠ .saved ∧ mayPass s w t x o then
          let ts := o.items.filter fun i => isTs o.opc i.m
          let s1 := s.setTeam w.team { t.tsWrite a.writes with arb := t.arb.filter fun b => b.op != id }
          let s2 := foldOver (fun s (i : Item) => finishWith s w o i.lane 0 0) s1 ts
          .next (pushTurns s2 ((barsWaiting t id).map fun k => .event .barrierPhaseComplete (.pair w.team k)))
        else .next s
      | _, _ => .next s
    | _, _ => .next s
  | _ => .next s

/-! ## Atomics (R207 to R209) -/

/-- The new value of an atomic and whether a compare failed (R198, R207). -/
def atomicNew (n : Nat) (old b c : W64) : W64 × Bool :=
  let o := lo32 old
  let v := lo32 b
  if n = 12 then (zext32 (o + v), false)
  else if n = 13 then (old + b, false)
  else if n = 14 then (zext32 (if o.toInt ≤ v.toInt then o else v), false)
  else if n = 15 then (zext32 (if o.toInt ≤ v.toInt then v else o), false)
  else if n = 16 then (if old.toNat ≤ b.toNat then old else b, false)
  else if n = 17 then (zext32 (o &&& v), false)
  else if n = 18 then (zext32 (o ||| v), false)
  else if n = 19 then (zext32 (o ^^^ v), false)
  else if n = 20 then (zext32 v, false)
  else if n = 21 then (b, false)
  else if n = 22 then (if o = v then (zext32 (lo32 c), false) else (old, true))
  else if n = 23 then (if old = b then (c, false) else (old, true))
  else (BitVec.ofNat 64 (addBits f32 envNear o.toNat v.toNat).bits, false)

/-- .y2 of an atomic. -/
def casStatus (failed : Bool) : W64 := if failed then 5 else 0

/-- Does a lane of an atomic wait for a lower lane of its trigger that touches the same location (R52)? -/
def lowerFirst (o : Op) (i : Item) : Bool :=
  o.items.any fun j => decide (j.lane < i.lane) && !j.faulted &&
    match i.place, j.place with
    | some p, some q => overlap p.gaddr (o.width i) q.gaddr (o.width j)
    | _, _ => isTs o.opc i.m == isTs o.opc j.m && (!isTs o.opc i.m || overlap i.a.toNat (o.width i) j.a.toNat (o.width j))

/-- Is an atomic a release, or an acquire (R208)? -/
def Item.releases (i : Item) : Bool := decide (2 ≤ modeOrd i.m)
def Item.acquires (i : Item) : Bool := modeOrd i.m % 2 == 1

/-- Does a write to a line that a core sees still have to be performed? -/
def lineOpen (s : State) (core : Nat) (p : Place) : Bool :=
  s.mem.writes.vals.any fun m =>
    (p.tgt != 0 || m.seenAt s core) && !m.performed && !m.lost && m.tgt == p.tgt && m.dev == p.dev && m.line == p.pa / 512

/-- What an atomic at any place waits for. -/
def mayAtomic (s : State) (p : Pick) (release : Bool) : Bool :=
  p.warp.unfenced p.op.id && !lowerFirst p.op p.item &&
    (!(release && p.item.releases) || fenceReady s p.w p.op.id (modeScope p.item.m))

/-- What an atomic to global memory waits for besides (R51, R208). -/
def mayAtomicGlobal (s : State) (p : Pick) (q : Place) : Bool :=
  p.warp.readsDone p.op.id true && (p.warp.sq.all fun k => decide (p.op.id ≤ k)) &&
    !lineUnacked s p.w p.op.id q.line && !lineOpen s (s.coreOf p.w.team) q

/-- An atomic has performed: its lane fills with the old value, an acquire discards copies (R208, R211). -/
def fillAtomic (p : Pick) (acquire : Bool) (old : W64) (failed : Bool) (s : State) : State :=
  let s1 := afterRead s p
  let s2 := if acquire && p.item.acquires then acquireDiscards s1 (s1.coreOf p.w.team) (modeScope p.item.m) else s1
  finishWith s2 p.w p.op p.item.lane old (casStatus failed)

/-- An atomic on team store (R207, R208). -/
def atomicTeam (p : Pick) (s : State) : State :=
  match s.team? p.w.team with
  | none => s
  | some t =>
    let n := p.op.width p.item
    let a := p.item.a.toNat
    let stores := t.arb.any fun b => b.warp == p.w.warp && decide (b.op < p.op.id)
    if stores ∨ ¬ tsClear p.warp p.op p.item ∨ ¬ mayAtomic s p true then s
    else if t.tsPoisoned a n then failItem s p.w p.op p.item codePoison
    else
      let old := wordOf (t.tsRead a n)
      let r := atomicNew p.op.opc old p.item.b p.item.c
      fillAtomic p true old r.2
        (if r.2 then s else s.setTeam p.w.team (t.tsWrite (atAddr a (wordBytes n r.1))))

/-- The bytes of operands that a lane of an atomic sends: a compare and swap sends two. -/
def operandBytes (p : Pick) : Nat := (if p.op.opc = 22 ∨ p.op.opc = 23 then 2 else 1) * p.op.width p.item

/-- An atomic of plain memory at its home (R207). -/
def atomicPlain (p : Pick) (q : Place) (s : State) : State :=
  let n := p.op.width p.item
  if p.item.trip ≠ 2 then requestOnce p q (operandBytes p) s
  else if poisonedAt s q n then failItem s p.w p.op p.item codePoison
  else answered p q s fun s =>
    let old := wordOf ((List.range n).map fun k => s.mem.byteAt q.tgt q.dev (q.pa + k))
    let r := atomicNew p.op.opc old p.item.b p.item.c
    fillAtomic p true old r.2
      (if r.2 then catchUp s (s.coreOf p.w.team) q n
       else writeAtHome s (some p.w) (s.coreOf p.w.team) p.op.id q.tgt q.dev p.item.epoch (atAddr q.pa (wordBytes n r.1)))

/-- An atomic inside a transaction, on the transaction's view (spec/08_snapshot_engine.md R303, R306). -/
def atomicTxn (p : Pick) (q : Place) (s : State) : State :=
  let n := p.op.width p.item
  let view := (viewBytes s p.w p.warp p.op q n).isSome
  if (if view then viewPoisoned s p.w p.warp p.op q n else poisonedAt s q n) then failItem s p.w p.op p.item codePoison
  else
    let old := match viewBytes s p.w p.warp p.op q n with
      | some bs => wordOf bs
      | none => wordOf ((List.range n).map fun k => newestByte s (q.pa + k))
    let r := atomicNew p.op.opc old p.item.b p.item.c
    if p.warp.discards p.op ∨ r.2 then fillAtomic p false old r.2 s
    else
      let e := intoWriteSet s p.w p.op [{ p.item with b := r.1 }]
      if e.1 then fillAtomic p false old false e.2 else e.2

/-- An atomic to a versioned line outside a transaction waits for its turn as a commit (spec/08_snapshot_engine.md
R312), after the lower lanes of its trigger. -/
def atomicCommits (p : Pick) (q : Place) (s : State) : State :=
  if p.op.items.any fun j => decide (j.lane < p.item.lane) then s
  else if p.item.trip ≠ 2 then requestOnce p q (operandBytes p) s
  else
    (addCommit s
      { warp := some p.w, op := p.op.id, lane := p.item.lane, job := none,
        lines := FMap.empty.insert (q.pa / 512) .empty, since := none, epoch := p.item.epoch }).modWarp p.w fun x =>
      x.modOp p.op.id fun o => o.modItem p.item.lane fun i => { i with stage := .armed }

/-- Was a write lost that an atomic waits for: one of its line, or for a release any earlier one (spec/11_fabric.md R417)? -/
def atomicLost (s : State) (p : Pick) (q : Place) : Bool :=
  lostBefore s p.w p.op.id &&
    ((p.item.releases && modeScope p.item.m != 0) ||
      s.mem.writes.vals.any fun m => m.lost && m.warp == some p.w && decide (m.op < p.op.id) &&
        m.tgt == q.tgt && m.dev == q.dev && m.line == q.pa / 512)

/-- One lane of an atomic performs, if it may now. -/
def atomicLane (p : Pick) (s : State) : State :=
  if ¬ (isMem p.op.unit ∧ isAtomic p.op.opc) ∨ p.item.stage ≠ .go then s
  else if isTs p.op.opc p.item.m then atomicTeam p s
  else
    match p.item.place with
    | none => s
    | some q =>
      if ¬ mayAtomicGlobal s p q ∨ ¬ mayAtomic s p (!(p.op.inTxn && q.ver)) then s
      else if atomicLost s p q then failItem (dropLost s p.w p.op.id) p.w p.op p.item codePoison
      else if ¬ q.ver then atomicPlain p q s
      else if p.op.inTxn then atomicTxn p q s
      else atomicCommits p q s

/-- ATOMIC_PERFORM (R207): the subject's lane performs its read-modify-write, or its request is sent on its way. -/
def execAtomicPerform (s : State) : Host.Outcome State Fault Refusal := onItem atomicLane s

/-! ## Fences (R210, R211) -/

/-- FENCE_COMPLETE (R210): the fence that the subject names completes at the widest scope of its lanes. -/
def execFenceComplete (s : State) : Host.Outcome State Fault Refusal :=
  match s.subject with
  | .op w id _ =>
    match (s.warp? w).bind fun x => x.op? id with
    | some o =>
      let sc := maxOf (o.items.map fun i => modeScope i.m)
      let before := match s.warp? w with
        | some x => x.unfenced id
        | none => false
      if isMem o.unit ∧ o.opc = 25 ∧ s.onCore w.team ∧ before = true ∧ fenceReady s w id sc then
        .next (if sc ≠ 0 ∧ lostBefore s w id then failLost s w o else foldOver (fun s (i : Item) => finishWith s w o i.lane 0 0) (acquireDiscards s (s.coreOf w.team) sc) o.items)
      else .next s
    | none => .next s
  | _ => .next s

end Sys2Proof.Machine
end

