-- ==== Sys2Proof/Machine/Monitors.lean ====
section
/-! DEFINITION. Condition monitors (spec/05_memory_ports.md R212, R213). -/

namespace Sys2Proof.Machine

/-- Is the operation a `waitcmp`? -/
def Op.isWaitcmp (o : Op) : Bool := isMem o.unit && o.opc == 26

/-- The condition of a control word on the value read (R212). -/
def monitorHolds (c v b : W64) : Bool :=
  let b1 := if bitOf c 2 then b else zext32 (lo32 b)
  let k := bitsOf c 1 0
  if k = 0 then v == b1 else if k = 1 then v != b1 else if k = 2 then decide (b1.toNat ≤ v.toNat) else decide (v.toNat < b1.toNat)

/-- The lane's condition holds, or its read is poisoned: it fills and is released; an acquire discards copies (R212,
R223). -/
def monitorRelease (p : Pick) (v : W64) (s : State) : State :=
  let s0 := match p.item.place with
    | some q => catchUp s (s.coreOf p.w.team) q (p.op.width p.item)
    | none => s
  let s1 := afterRead s0 p
  let s2 := if p.item.acquires then acquireDiscards s1 (s1.coreOf p.w.team) (modeScope p.item.m) else s1
  let s3 := fillVal s2 p.w p.op.unit p.op.id p.item.lane v 0
  s3.modWarp p.w fun x => (x.release p.item.lane).endItem p.op.id p.item.lane

/-- The monitors armed at a home slice. -/
def armedAt (s : State) (h : Nat) : Nat :=
  (s.teams.entries.flatMap fun e => e.2.warps.flatMap fun x => x.ops.flatMap fun o =>
    if o.isWaitcmp then o.items.filter fun i => i.stage == .armed && (match i.place with
      | some p => p.tgt == 0 && homeSlice p.pa == h
      | none => false)
    else []).length

/-- The monitor stays: armed where its slice has room, else polling; host memory always polls (R213). `.retry` holds the
clk of the next reading; the poll of an armed monitor is its re-test. -/
def monitorStay (p : Pick) (q : Place) (s : State) : State :=
  let st := if p.item.stage = .armed then Stage.armed
    else if q.tgt = 1 ∨ (q.tgt = 0 ∧ 1024 ≤ armedAt s (homeSlice q.pa)) then .go
    else .armed
  s.modWarp p.w fun x => x.modOp p.op.id fun o => o.modItem p.item.lane fun i =>
    { i with stage := st, extra := if st = .armed then [] else [s.clk + 1024] }

/-- What the arming of a monitor waits for: the warp's writes to the line and its earlier atomics, and with a release what
a fence waits for (R50, R212). -/
def mayArm (s : State) (p : Pick) (q : Place) : Bool :=
  (p.warp.sq.all fun k => !decide (k < p.op.id) || match p.warp.op? k with
    | some o => !(o.globalItems.any fun i => match i.place with
      | some r => r.line == q.line
      | none => overlap i.a.toNat (o.width i) p.item.a.toNat (p.op.width p.item))
    | none => true) &&
    !lineUnacked s p.w p.op.id q.line && !lineOpen s (s.coreOf p.w.team) q &&
    p.warp.unfenced p.op.id && (!p.item.releases || fenceReady s p.w p.op.id (modeScope p.item.m))

/-- A monitored read at the home: it arms, tests, and releases the lane or stays (R212). Where it arms as a fence, it discards copies
as one (R211). It is not tested while a write to its line that its core sees is still to be performed (R50). A saved team is queued to
come back first (R214). -/
def monitorLane (p : Pick) (s : State) : State :=
  if ¬ p.op.isWaitcmp then s
  else
    match p.item.place with
    | none => s
    | some q =>
      let due := match p.item.stage, p.item.extra with
        | .armed, _ => !lineOpen s (s.coreOf p.w.team) q
        | .go, [c] => decide (c ≤ s.clk)
        | .go, _ => mayArm s p q
        | _, _ => false
      if due = false then s
      else if p.item.trip ≠ 2 then
        requestOnce p q 0
          (if p.item.trip = 0 ∧ p.item.releases then acquireDiscards s (s.coreOf p.w.team) (modeScope p.item.m) else s)
      else answered p q s fun s =>
        let n := p.op.width p.item
        let v := wordOf ((List.range n).map fun k => s.mem.byteAt q.tgt q.dev (q.pa + k))
        if poisonedAt s q n then
          (failItem s p.w p.op p.item codePoison).modTeam p.w.team fun t =>
            if t.status = .resident then t else { t with wake := true }
        else if monitorHolds p.item.c v p.item.b then
          if (s.team? p.w.team).any fun t => t.status != .resident then
            s.modTeam p.w.team fun t => { t with wake := true }
          else monitorRelease p v s
        else monitorStay p q s

/-- MONITOR_RETEST (R212): the subject's monitor is armed and tested, or tested again after a write. -/
def execMonitorRetest (s : State) : Host.Outcome State Fault Refusal := onItem monitorLane s

/-- MONITOR_POLL (R213): a monitor that could not be armed reads its location again after 1,024 clk. -/
def execMonitorPoll (s : State) : Host.Outcome State Fault Refusal :=
  onItem
    (fun p s => match p.item.stage, p.item.extra with
      | .go, [c] => if c ≤ s.clk then monitorLane p s else s
      | _, _ => s)
    s

end Sys2Proof.Machine
end

