-- ==== Sys2Proof/Machine/Visits.lean ====
section
/-! DEFINITION. What comes to this device over the fabric from outside, performed where it arrives: accesses of the host and of peers
at home slices, doorbells at the loader's command front end (spec/11_fabric.md R423, R426 to R428; spec/13_loader.md R469, R503;
spec/08_snapshot_engine.md R313). -/

namespace Sys2Proof.Machine

/-! ## Accesses at their home (R423, R426) -/

/-- The other side is answered. -/
def answerWith (a : Answer) (s : State) : State := s.modLdr fun d => { d with answer := a }

/-- Is a line of device memory versioned? -/
def versionedLine (s : State) (line : Nat) : Bool := s.eng.snap.chains.has line

/-- A write from outside as access `id`, of one line, with the epoch that it carries: a plain line is written at its home, a versioned one commits by itself. -/
def visitWrite (s : State) (id epoch : Nat) (bs : List (Nat × Byte)) : State :=
  match bs with
  | [] => s
  | b :: _ =>
    if versionedLine s (b.1 / 512) then autoCommit s none id 0 none epoch bs
    else writeAtHome s none 256 id 0 0 epoch bs

/-- Bytes that come from outside without a message are written line by line. -/
def outsideWrite (s : State) (l : List (Nat × Byte)) : State := foldOver (fun s bs => visitWrite s 0 s.mem.epoch bs) s (byLine l)

/-- Does an access from outside read and write at once? -/
def OutAccess.isAtomic (a : OutAccess) : Bool := a.kind != .read && a.kind != .write

/-- The new value of an atomic from outside on an old one, and whether a compare failed (R207). -/
def OutAccess.new (a : OutAccess) (old : List Byte) : W64 × Bool :=
  let cas := a.opc == 22 || a.opc == 23
  atomicNew a.opc (wordOf old) (if cas then a.cmp else a.operand) (if cas then a.operand else 0)

/-- An atomic of plain memory from outside (R207). -/
def visitAtomic (s : State) (id : Nat) (a : OutAccess) : State :=
  let old := s.mem.read a.pa a.width
  let r := a.new old
  answerAccess id (.data old)
    (if r.2 then s else writeAtHome s none 256 id 0 0 (a.epoch.getD s.mem.epoch) (atAddr a.pa (wordBytes a.width r.1)))

/-- An access from outside comes to its home slice; `bad` are the poisoned groups of what it carried (R405). A write is answered when it is
acknowledged or published; an atomic on a versioned line waits for its turn as a commit (spec/08_snapshot_engine.md R312, R313)
(DEDUCED, notes/assumptions/65.md). -/
def visitArrives (id : Nat) (bad : List Nat) (s : State) : State :=
  match s.ldr.outs.find? id with
  | none => s
  | some a =>
    if a.kind = .write then
      let s1 := visitWrite s id (a.epoch.getD s.mem.epoch) a.bytes
      let s2 := if versionedLine s (a.pa / 512) then s1
        else s1.modLdr fun d => { d with outs := d.outs.modify id fun a => { a with performed := true } }
      poisonSectors ((bad.filterMap fun k => (a.bytes[8 * k]?).map fun b => b.1 / 32).eraseDups) s2
    else if s.mem.touchesPoison a.pa a.width then answerAccess id .poisoned s
    else if a.kind = .read then answerAccess id (.data (s.mem.read a.pa a.width)) s
    else if ¬ bad.isEmpty then answerAccess id .poisoned (poisonSectors [a.pa / 32] s)
    else if versionedLine s (a.pa / 512) then
      addCommit s
        { warp := none, op := id, lane := 0, job := none, lines := FMap.empty.insert (a.pa / 512) .empty, since := none,
          epoch := a.epoch.getD s.mem.epoch }
    else visitAtomic s id a

/-- The turn of an outside atomic's commit, on the newest version; `wait` is what is done without room (spec/08_snapshot_engine.md
R294, R312, R319). A failed compare makes no version. -/
def visitTurn (wait : State → State) (s : State) (cid : Nat) (c : Commit) (a : OutAccess) : State :=
  let old := (List.range a.width).map fun k => newestByte s (a.pa + k)
  let r := a.new old
  if r.2 then
    (if s.eng.snap.published < newestTime s (a.pa / 512) then s
     else answerAccess c.op (.data old) (s.modSnap fun k => { k with waiting := k.waiting.erase cid }))
  else
    let room := commitRoom s c
    if ¬ room.1 then wait room.2
    else
      let bytes := foldOver (fun m b => FMap.insert m b.1 b.2) FMap.empty (atAddr (a.pa % 512) (wordBytes a.width r.1))
      (takeTime room.2 cid { c with lines := FMap.empty.insert (a.pa / 512) bytes }).modLdr fun d =>
        { d with outs := d.outs.insert c.op { a with answer := .data old } }

/-- The access that a commit serves, if one from outside asked for it. -/
def visitOf (s : State) (c : Commit) : Option OutAccess := if c.warp.isNone && c.job.isNone then s.ldr.outs.find? c.op else none

/-- An access from outside whose commit is published, or expires, is answered (spec/08_snapshot_engine.md R312, R319). -/
def visitPublished (c : Commit) (s : State) : State :=
  match visitOf s c with
  | some a => answerAccess c.op (if a.kind = .write then .done else a.answer) s
  | none => s

/-- An answer has left for the other side: it is what the host or the peer is told, but of a posted write. -/
def visitLeaves (id : Nat) (s : State) : State :=
  match s.ldr.outs.find? id with
  | none => s
  | some a =>
    let s1 := s.modLdr fun d => { d with outs := d.outs.erase id }
    if a.dev = none ∧ a.kind = .write then s1 else answerWith a.answer s1

/-! ## Peers at the link endpoint (R423; spec/13_loader.md R503) -/

/-- Does a range lie in an open peer window that allows what is asked? -/
def peerWindow (s : State) (pa n : Nat) (wr : Bool) : Bool :=
  s.ldr.peerWins.vals.any fun w =>
    let w0 := w.getD 0 0
    let base := bitsOf (w.getD 1 0) 51 20 * 2 ^ 20
    bitOf w0 7 && (bitOf w0 6 || !wr) && decide (base ≤ pa) &&
      decide (pa + n ≤ base + bitsOf (w.getD 2 0) 31 0 * 2 ^ 20)

/-- A peer's access is whole at its link endpoint: it goes on to its home, with the epoch of now (spec/05_memory_ports.md R235), or back
with a PROTECTION tag. -/
def visitEnters (m : Message) (id : Nat) (s : State) : State :=
  match s.ldr.outs.find? id with
  | none => s
  | some a =>
    if peerWindow s a.pa a.width (a.kind != .read) then
      (s.modLdr fun d => { d with outs := d.outs.insert id { a with epoch := some s.mem.epoch } }).post
        { Message.fresh (m.dst, 7) (homeEndpoint (homeSlice a.pa)) 0 0 m.nflit m.purpose none with bad := m.bad }
    else
      sendLink (s.modLdr fun d => { d with outs := d.outs.insert id { a with performed := true, answer := .protection } }) false m.sdev 1 0 1
        (.answer id)

/-! ## Doorbells (spec/13_loader.md R469, R481) -/

/-- Bytes of the memory that a queue lives in. -/
def queueBytes (s : State) (q : Queue) (a n : Nat) : List Byte :=
  (List.range n).map fun i => s.mem.byteAt (if q.host then 1 else 0) 0 (a + i)

/-- The loader takes the next entry of a queue and journals it ACCEPTED. -/
def acceptNext (n : Nat) (s : State) : State :=
  match s.ldr.queues.find? n with
  | none => s
  | some q =>
    let run : CmdRun :=
      { queue := n, func := q.func, entry := queueBytes s q (q.base + 64 * (q.consumer % q.size)) 64, state := .accepted,
        cur0 := 0, cur1 := 0, clkIn := s.clk, clkOut := 0, info := [] }
    s.modLdr fun d =>
      { d with
        journal := d.journal.insert d.nextJ run, nextJ := d.nextJ + 1
        queues := d.queues.insert n { q with consumer := (q.consumer + 1) % 2 ^ 32 } }

/-- Takes `k` entries. -/
def acceptMany (n : Nat) (s : State) : Nat → State
  | 0 => s
  | k + 1 => acceptMany n (acceptNext n s) k

/-- A doorbell is at the loader: it takes the entries up to the producer index, at most a whole ring. -/
def doorbellRings (n producer : Nat) (s : State) : State :=
  match s.ldr.queues.find? n with
  | some q =>
    let s1 := s.modLdr fun d => { d with queues := d.queues.insert n { q with producer := producer % 2 ^ 32 } }
    acceptMany n s1 (Nat.min q.size ((producer % 2 ^ 32 + 2 ^ 32 - q.consumer) % 2 ^ 32))
  | none => s

end Sys2Proof.Machine
end

