-- ==== Sys2Proof/Machine/Commits.lean ====
section
/-! DEFINITION. Commits at their turns, the wait for version room, and the collector (spec/08_snapshot_engine.md R294,
R295, R304, R312 to R319). -/

namespace Sys2Proof.Machine

/-! ## Auto-commits (R312, R313) -/

/-- Does another waiting commit of the same asker go first: a lower line of the same entry or unit? -/
def commitBehind (s : State) (id : Nat) (c : Commit) : Bool :=
  s.eng.snap.waiting.entries.any fun e => decide (e.1 < id) && e.2.warp == c.warp && e.2.op == c.op && e.2.job == c.job

/-- The atomic lane that a commit serves, if it serves one. -/
def commitAtomic (s : State) (c : Commit) : Option Pick :=
  match c.warp with
  | some w =>
    match s.warp? w with
    | some x =>
      match x.op? c.op with
      | some o =>
        if isMem o.unit ∧ isAtomic o.opc then (o.item? c.lane).map fun i => { w := w, warp := x, op := o, item := i }
        else none
      | none => none
    | none => none
  | none => none

/-- A commit that finds no room waits from now on. -/
def commitWaits (s : State) (id : Nat) (c : Commit) : State :=
  s.modSnap fun k =>
    { k with waiting := k.waiting.insert id { c with since := some (c.since.getD s.clk) } }

/-- Does a range touch a poisoned sector of the newest version in the commit order, one that no commit with a time writes whole? -/
def newestPoisoned (s : State) (q : Place) (n : Nat) : Bool :=
  s.mem.poison.any fun sec =>
    overlap (32 * sec) 32 q.pa n && !(s.eng.snap.taken.any fun k => match k.commit.lines.find? (sec / 16) with
      | some l => (List.range 32).all fun j => l.has (32 * (sec % 16) + j)
      | none => false)

/-- The turn of an atomic's auto-commit: the read-modify-write on the newest version, in the commit order (R207, R312). A failed
compare makes no version: it takes its turn once the version that it reads is published, so that nobody finds an older one after it
(R50, R291, R295). -/
def atomicTurn (s : State) (id : Nat) (c : Commit) (p : Pick) (q : Place) : State :=
  let o := p.op
  let i := p.item
  let n := o.width i
  let old := wordOf ((List.range n).map fun k => newestByte s (q.pa + k))
  let r := atomicNew o.opc old i.b i.c
  let drop := fun (s : State) => s.modSnap fun k => { k with waiting := k.waiting.erase id }
  if newestPoisoned s q n then failItem (drop s) p.w o i codePoison
  else if r.2 then
    (if s.eng.snap.published < newestTime s (q.pa / 512) then s else fillAtomic p true old true (drop s))
  else
    let room := commitRoom s c
    if ¬ room.1 then commitWaits room.2 id c
    else
      let bytes := atAddr (q.pa % 512) (wordBytes n r.1)
      let c1 : Commit := { c with lines := FMap.empty.insert (q.pa / 512) (foldOver (fun m b => FMap.insert m b.1 b.2) FMap.empty bytes) }
      let s1 := takeTime room.2 id c1
      let s2 := if i.acquires then acquireDiscards s1 (s1.coreOf p.w.team) (modeScope i.m) else s1
      s2.modWarp p.w fun x => (x.noteRead s2.nextId).modOp o.id fun o => o.modItem i.lane fun i =>
        { i with extra := [old.toNat, 0] }

/-- AUTO_COMMIT (R312): a write to a versioned line takes its commit time, or waits for room. -/
def execAutoCommit (s : State) : Host.Outcome State Fault Refusal :=
  match s.subject with
  | .num id =>
    match s.eng.snap.waiting.find? id with
    | some c =>
      if ¬ clkFree s ∨ commitBehind s id c then .next s
      else
        match commitAtomic s c with
        | some p =>
          match p.item.place with
          | some q => .next (atomicTurn s id c p q)
          | none => .next s
        | none =>
          match (visitOf s c).filter OutAccess.isAtomic with
          | some a => .next (visitTurn (fun s => commitWaits s id c) s id c a)
          | none =>
            let room := commitRoom s c
            .next (if room.1 then takeTime room.2 id c else commitWaits room.2 id c)
    | none => .next s
  | _ => .next s

/-! ## Transaction commits (R304) -/

/-- Ends a transaction's commit: every lane fills, the transaction is closed. -/
def endCommit (w : WRef) (o : Op) (y : Elem) (status : Nat) (s : State) : State :=
  s.modWarp w fun x =>
    let x1 := foldOver (fun x (i : Item) => x.fill unitSnap o.id i.lane y (.value (BitVec.ofNat 64 status))) x o.items
    { x1.dropOp o.id with txn := none }

/-- A transaction that ends without a commit time: its .y, a tag for HEAP-FULL (R319). -/
def failedY (cause : Nat) : Elem := if cause = snapHeapFull then .tagged codeHeapFull 0 else .value 0

/-- The lines of a write set as a commit. -/
def txnCommit (epoch : Nat) (w : WRef) (o : Op) (t : Txn) : Commit :=
  { warp := some w, op := o.id, lane := 0, job := none, lines := ⟨t.lines.entries.map fun e => (e.1, e.2.bytes)⟩,
    since := none, epoch := epoch }

/-- The turn of a transaction's commit (R304). -/
def txnTurn (s : State) (w : WRef) (o : Op) (t : Txn) : State :=
  if t.lines.keys.any fun l => decide (t.time < newestTime s l) then endCommit w o (.value 0) snapConflict s
  else
    let room := commitRoom s (txnCommit s.mem.epoch w o t)
    if room.1 then
      (takeTime room.2 0 (txnCommit s.mem.epoch w o t)).modWarp w fun x => x.modOp o.id fun o => { o with info := [1] }
    else
      room.2.modWarp w fun x => x.modOp o.id fun o => { o with info := if o.info.isEmpty then [2, s.clk] else o.info }

/-- `snap.commit` in flight: the warp's earlier events are performed, then the transaction ends (R304). -/
def commitStep (s : State) (w : WRef) (x : Warp) (o : Op) : State :=
  if o.info = [1] then s
  else
    match x.txn with
    | none => endCommit w o (.value 0) snapNoTxn s
    | some t =>
      if ¬ fenceReady s w o.id 3 then s
      else
        match t.doom with
        | some cause => endCommit w o (failedY cause) cause s
        | none =>
          if t.ro ∨ t.lines.entries.isEmpty then endCommit w o (.value (BitVec.ofNat 64 t.time)) 0 s
          else if ¬ clkFree s then s
          else txnTurn s w o t

/-- COMMIT_TURN (R294, R304): the transaction commit that the subject names reaches its turn. -/
def execCommitTurn (s : State) : Host.Outcome State Fault Refusal :=
  match s.subject with
  | .op w id _ =>
    match s.warp? w with
    | some x =>
      match x.op? id with
      | some o => if o.unit = unitSnap ∧ o.opc = 2 then .next (commitStep s w x o) else .next s
      | none => .next s
    | none => .next s
  | _ => .next s

/-! ## Room (R319) -/

/-- A waiting auto-commit reaches the limit: its lanes are tagged and nothing is written, its job ends, or who asked from outside is told. -/
def commitExpires (s : State) (id : Nat) (c : Commit) : State :=
  let s1 := s.modSnap fun k => { k with waiting := k.waiting.erase id }
  match c.warp, c.job with
  | some w, _ =>
    match (s.warp? w).bind fun x => x.op? c.op with
    | some o => foldOver (fun s i => failItem s w o i codeHeapFull) s1 (publishedItems c o)
    | none => s1
  | none, some j => s1.modJob j.1 j.2 fun b => { b with stage := .go, ending := true, tag := codeHeapFull }
  | none, none => if (visitOf s c).isSome then answerAccess c.op .heapFull s1 else s1

/-- Has a wait since clk `c` reached the limit? -/
def waitOver (s : State) (c : Nat) : Bool := decide (c + heapLimit s ≤ s.clk)

/-- HEAP_WAIT_EXPIRY (R319): an auto-commit (by its number), a transaction's commit or a write-set line (by its operation)
has waited for room to the limit. -/
def execHeapWaitExpiry (s : State) : Host.Outcome State Fault Refusal :=
  match s.subject with
  | .num id =>
    match s.eng.snap.waiting.find? id with
    | some c =>
      match c.since with
      | some k => .next (if waitOver s k then commitExpires s id c else s)
      | none => .next s
    | none => .next s
  | .op w id _ =>
    match (s.warp? w).bind fun x => x.op? id with
    | some o =>
      match o.info with
      | [2, k] =>
        if ¬ waitOver s k then .next s
        else if o.unit = unitSnap then .next (endCommit w o (failedY snapHeapFull) snapHeapFull s)
        else .next (s.modWarp w fun x => (x.doomTxn snapHeapFull).modOp id fun o => { o with info := [] })
      | _ => .next s
    | none => .next s
  | _ => .next s

/-! ## The low-water mark and the collector (R315, R316) -/

/-- The live times: of transactions, held snapshots and launches. -/
def liveTimes (s : State) : List Nat :=
  (s.teams.vals.flatMap fun t => t.warps.filterMap fun x => x.txn.map fun k => k.time) ++
    (s.eng.snap.held.vals.map fun h => h.time) ++
    s.ldr.launches.vals.filterMap fun l => match l.state with
      | .ended _ => none
      | _ => l.snapTime

/-- The low-water mark (R315). -/
def lowWater (s : State) : Nat := minOf (liveTimes s) s.eng.snap.published

/-- The older versions that stay when version `time` is reclaimed, if a newer one is at or below the mark (R316). -/
def reclaim (mark time newer : Nat) : List Version → List Version
  | [] => []
  | v :: r => if v.time = time then (if newer ≤ mark then r else v :: r) else v :: reclaim mark time v.time r

/-- LICHEN_RECLAIM (R316): the version of a line (pair line, time) is reclaimed. -/
def execLichenReclaim (s : State) : Host.Outcome State Fault Refusal :=
  match s.subject with
  | .pair line time =>
    let mark := lowWater s
    .next (s.modSnap fun k =>
      { k with
        lwm := Nat.max k.lwm mark
        chains := k.chains.modify line fun c => { c with older := reclaim mark time c.time c.older } })
  | _ => .next s

end Sys2Proof.Machine
end

