-- ==== Sys2Proof/Machine/Jobs.lean ====
section
/-! DEFINITION. What copy and matrix jobs share: footprints and edges, the accesses of a running job, barrier objects in
memory, and the end of a job (spec/01_engines_together.md R57 to R62, spec/06_copy_engine.md R239, R250, R253, R254). -/

namespace Sys2Proof.Machine

/-! ## Jobs of a core, footprints and edges (R57, R58) -/

/-- The jobs of the teams on core `c`, with their teams. A saved team's jobs make edges for none of the core that it left, and on the core
where it resumes they rank by their numbers, before every later submission (DESIGN CHOICE, notes/assumptions/96.md). -/
def coreJobs (s : State) (c : Nat) : List (Nat × Job) :=
  s.teams.entries.flatMap fun e =>
    if e.2.core = c ∧ e.2.status ≠ .saved then e.2.jobs.map fun b => (e.1, b) else []

/-- Do two regions overlap, at 32-byte granularity? Team-store regions do within one team. -/
def Region.overlaps (sameTeam : Bool) (a b : Region) : Bool :=
  a.ts == b.ts && (!a.ts || sameTeam) && a.len != 0 && b.len != 0 &&
    decide (a.first / 32 ≤ (b.first + b.len - 1) / 32) && decide (b.first / 32 ≤ (a.first + a.len - 1) / 32)

/-- Does some region of one list overlap one of another? -/
def regionsMeet (sameTeam : Bool) (a b : List Region) : Bool := a.any fun x => b.any fun y => x.overlaps sameTeam y

/-- Is the job a message of a channel? -/
def Job.isChan (b : Job) : Bool := b.unit == unitCp && (b.opc == 13 || b.opc == 14)

/-- Is there an edge from an earlier job to a later one: read after write, write after read, write after write? A
channel job whose ring is not known yet makes one with every later job but those of channels (notes/assumptions/30.md). -/
def jobEdge (sameTeam : Bool) (a b : Job) : Bool :=
  regionsMeet sameTeam b.regions a.wregions || regionsMeet sameTeam b.wregions a.regions ||
    regionsMeet sameTeam b.wregions a.wregions || (a.isChan && !a.begun && !b.isChan)

/-- Has a job no edge from an earlier job that is not complete (R58)? -/
def edgesClear (s : State) (team : Nat) (b : Job) : Bool :=
  (coreJobs s b.core).all fun e =>
    !(decide (e.2.id < b.id) && s.ctxOf e.1 == s.ctxOf team && jobEdge (e.1 == team) e.2 b)

/-- Are the submitting warp's earlier writes and fences done, so that a job's reads see them (R59; spec/05_memory_ports.md
R210)? -/
def warpClear (s : State) (team : Nat) (b : Job) : Bool :=
  match s.team? team with
  | none => true
  | some t =>
    (t.arb.all fun a => !(a.warp == b.warp && decide (a.op < b.trig))) &&
      match t.warps[b.warp]? with
      | none => true
      | some x =>
        x.unfenced b.trig && (x.sq.all fun q => decide (b.trig ≤ q)) &&
          (x.earlier b.trig).all (fun o => !(isMem o.unit && isAtomic o.opc)) &&
          s.mem.writes.vals.all fun m =>
            !(m.warp == some { team := team, warp := b.warp } && decide (m.op < b.trig)) || m.performed

/-! ## Accesses of a running job (spec/06_copy_engine.md R253) -/

/-- Why a job's unit is not performed: a translation failed, a trap code, the footprint, a corrupt token, or data that it reads are still on
their way. -/
inductive JobStop where
  | walk (kind : Nat) (s2 : Bool) (va : Nat) (wr : Bool)
  | code (c : BitVec 8)
  | foot
  | corrupt
  | travel
  deriving DecidableEq, Repr

/-- A part of a unit that may stop the job. -/
abbrev Run (α : Type) := State → Except JobStop α × State

/-- Goes on with the answer of a part. -/
def Run.then {α β : Type} (f : Run α) (g : α → Run β) : Run β := fun s =>
  match f s with
  | (.ok a, s1) => g a s1
  | (.error e, s1) => (.error e, s1)

/-- Answers without doing anything. -/
def Run.pure {α : Type} (a : α) : Run α := fun s => (.ok a, s)

/-- Stops. -/
def Run.stop {α : Type} (e : JobStop) : Run α := fun s => (.error e, s)

/-- Reads the state. -/
def Run.get : Run State := fun s => (.ok s, s)

/-- Changes the state. -/
def Run.modify (f : State → State) : Run Unit := fun s => (.ok (), f s)

/-- Translates the page of an address for a job. -/
def pagePlace (team core va : Nat) (wr : Bool) : Run Place := fun s =>
  let r := chooseAnswer s core (s.ctxOf team) va wr
  match r.1 with
  | .inl e => (.error (.walk e.kind e.s2 va wr), r.2)
  | .inr p =>
    if (p.tgt = 2 ∧ (p.dev = s.deviceId ∨ ¬ configured s p.dev)) ∨ (wr ∧ p.ver ∧ (s.launchTime team).isSome) then
      (.error (.code codeProtection), r.2)
    else
      let f := if wr then peerRefuses r.2 p else (false, r.2)
      if f.1 then (.error (.code codeProtection), f.2) else (.ok p, f.2)

/-- The places of the pages of addresses, by page number; each holds the place of the page's first byte. -/
def pagePlaces (team core : Nat) (wr : Bool) : List Nat → Run (FMap Place)
  | [] => .pure .empty
  | a :: r => (pagePlaces team core wr r).then fun m =>
    if m.has (a / 4096) then .pure m
    else (pagePlace team core a wr).then fun p =>
      .pure (m.insert (a / 4096) { p with pa := p.pa - a % 4096 })

/-- The place of an address among translated pages. -/
def placeIn (m : FMap Place) (a : Nat) : Place :=
  let p := m.getD (a / 4096) { tgt := 0, dev := 0, pa := 0, grain := 32, ver := false, wr := false, wr1 := false }
  { p with pa := p.pa + a % 4096 }

/-- A byte of a write that a core sees, the youngest, while its home has not performed it. -/
def openByte (s : State) (core : Nat) (p : Place) : Option Byte :=
  foldOver
    (fun (r : Option Byte) (m : MemWrite) =>
      if m.tgt = p.tgt ∧ m.dev = p.dev ∧ ¬ m.performed ∧ (p.tgt ≠ 0 ∨ m.seenAt s core) then
        match firstWhere (fun (b : Nat × Byte) => b.1 == p.pa) m.bytes with
        | some b => some b.2
        | none => r
      else r)
    none s.mem.writes.vals

/-- A byte that a job of a team reads: nothing older than its home holds, or its die's copy of a remote line (R59;
spec/08_snapshot_engine.md R313, R314). -/
def jobByte (s : State) (team core : Nat) (p : Place) : Byte :=
  match if p.ver then s.launchTime team else none with
  | some t => snapByte s t p.pa
  | none =>
    match openByte s core p with
    | some b => b
    | none => match if p.tgt = 0 then none else s.remoteLine core p.line with
      | some r => r.bytes.getD (p.pa % 512) 0
      | none => s.mem.byteAt p.tgt p.dev p.pa

/-- Target, device and address of a line by its number over all targets. -/
def lineTgt (line : Nat) : Nat := line * 512 / 2 ^ 60
def lineDev (line : Nat) : Nat := line * 512 / 2 ^ 40 % 2 ^ 20
def linePa (line : Nat) : Nat := line * 512 % 2 ^ 40

/-- A job asks for a line that its unit reads (spec/11_fabric.md R402). -/
def sendFetch (team : Nat) (b : Job) (s : State) (line : Nat) : State :=
  send (s.modJob team b.id fun x => { x with fetch := x.fetch.insert line false }) (coreEndpoint b.core)
    (targetEndpoint (lineTgt line) (lineDev line) (linePa line)) 0 (s.ctxOf team) 1 (.fetch team b.id line) none

/-- Waits until the data of the lines that a unit reads are at the engine; lines not asked for yet are asked for. -/
def fetchLines (team : Nat) (b : Job) (lines : List Nat) : Run Unit := fun s =>
  let have_ := (((s.team? team).bind fun t => t.job? b.id).map fun x => x.fetch).getD .empty
  if lines.all fun n => have_.getD n false then (.ok (), s)
  else (.error .travel, foldOver (sendFetch team b) s (lines.filter fun n => !have_.has n))

/-- The home device of a peer's lines may refuse them (spec/11_fabric.md R423). -/
def peersAllow : List Place → Run Unit
  | [] => .pure ()
  | p :: r => fun s =>
    let f := peerRefuses s p
    if f.1 then (.error (.code codeProtection), f.2) else peersAllow r f.2

/-- Reads bytes at addresses of team store, or of global memory once their lines are there; a poisoned one stops the job where `chk`
says so. -/
def jobReadIf (chk : Bool) (team : Nat) (b : Job) (ts : Bool) (addrs : List Nat) : Run (List Byte) :=
  if ts then fun s =>
    match s.team? team with
    | none => (.ok [], s)
    | some t =>
      if chk && addrs.any fun a => t.tsPoisoned a 1 then (.error (.code codePoison), s)
      else (.ok (addrs.map fun a => t.tstore.getD a 0), s)
  else
    (pagePlaces team b.core false addrs.reverse).then fun m =>
      (fetchLines team b ((addrs.map fun a => (placeIn m a).line).eraseDups)).then fun _ =>
        (peersAllow m.vals).then fun _ s =>
          if chk && addrs.any fun a => poisonedAt s (placeIn m a) 1 then (.error (.code codePoison), s)
          else (.ok (addrs.map fun a => jobByte s team b.core (placeIn m a)), s)

/-- Reads bytes; a poisoned one stops the job. -/
def jobRead (team : Nat) (b : Job) (ts : Bool) (addrs : List Nat) : Run (List Byte) := jobReadIf true team b ts addrs

/-- The aligned 4-byte words of a line that a job's write of it performs at once: a free choice (R60). -/
def wordsNow (s : State) : List Bool × State :=
  let a := freeWord s
  let b := freeWord a.2
  (((List.range 64).map a.1.getLsbD) ++ (List.range 64).map b.1.getLsbD, b.2)

/-- A job's write of bytes of one line, all at once where `whole` says so. Otherwise some of its aligned 4-byte words are performed now,
the others once they have travelled to their home: until the job is complete a reader may find old and new words mixed (R60;
spec/06_copy_engine.md R256). Behind an earlier write of the core to the line all of them travel. -/
def jobLine (whole : Bool) (core ctx id tgt dev : Nat) (s : State) (bs : List (Nat × Byte)) : State :=
  match bs with
  | [] => s
  | b :: _ =>
    let p : Place := { tgt := tgt, dev := dev, pa := b.1, grain := 32, ver := false, wr := true, wr1 := true }
    if whole then writeAtHome s none core id tgt dev s.mem.epoch bs
    else if lineOpen s core p then launchWrite s none core ctx id tgt dev s.mem.epoch bs
    else
      let m := wordsNow s
      let now := fun (x : Nat × Byte) => m.1.getD (x.1 % 512 / 4) false
      let s1 := writeAtHome m.2 none core id tgt dev s.mem.epoch (bs.filter now)
      launchWrite s1 none core ctx id tgt dev s.mem.epoch (bs.filter fun x => !now x)

/-- Writes of placed bytes by a job: each target's bytes at their homes, and versioned lines as commits (R60;
spec/08_snapshot_engine.md R313). -/
def jobStore (whole : Bool) (team core id : Nat) (l : List (Place × Byte)) (s : State) : State :=
  let targets := (l.map fun x => (x.1.tgt, x.1.dev)).eraseDups
  let merged := fun (ver : Bool) (td : Nat × Nat) =>
    let m : FMap Byte := foldOver
      (fun m (x : Place × Byte) => if x.1.ver = ver ∧ (x.1.tgt, x.1.dev) = td then m.insert x.1.pa x.2 else m) .empty l
    byLine m.entries
  let s1 := foldOver
    (fun s (td : Nat × Nat) =>
      foldOver (jobLine whole core (s.ctxOf team) id td.1 td.2) s (merged false td))
    s targets
  foldOver (fun s bs => autoCommit s none 0 0 (some (team, id)) s.mem.epoch bs) s1 (merged true (0, 0))

/-- Writes bytes at addresses of team store or global memory. The translations come first: a unit is performed whole. -/
def jobWrite (team core id : Nat) (ts : Bool) (l : List (Nat × Byte)) : Run Unit :=
  if ts then .modify fun s => s.modTeam team fun t => t.tsWrite l
  else
    (pagePlaces team core true (l.map Prod.fst).reverse).then fun m =>
      .modify (jobStore false team core id (l.map fun x => (placeIn m x.1, x.2)))

/-- Are all writes of a job performed and acknowledged? -/
def jobSettled (s : State) (team id : Nat) : Bool :=
  (s.mem.writes.vals.all fun m => !(m.warp.isNone && m.op == id)) &&
    (s.eng.snap.waiting.vals.all fun c => c.job != some (team, id)) &&
    s.eng.snap.taken.all fun k => k.commit.job != some (team, id)

/-- A job ends, short, with a trap code. -/
def Job.fails (b : Job) (c : BitVec 8) : Job := { b with stage := .go, ending := true, tag := c }

/-- What a stop does to a job: a failed translation is reported next; data on their way are waited for. -/
def stopJob (s : State) (team id : Nat) : JobStop → State
  | .walk kind s2 va wr =>
    pushTurns (s.modJob team id fun b => { b with stage := .failed kind s2 va wr })
      [.event .translationFault (.trans (.job team id))]
  | .code c => s.modJob team id fun b => b.fails c
  | .foot => s.modJob team id fun b => { b with ending := true, status := 2 }
  | .corrupt => s.modJob team id fun b => { b with ending := true, status := 3 }
  | .travel => s

/-- Runs a part of a job; on a stop nothing but translations has happened. -/
def runJob (team id : Nat) (f : Run Unit) (s : State) : State :=
  match f s with
  | (.ok _, s1) => s1
  | (.error e, s1) => stopJob s1 team id e

/-- Is a team on its core, and not leaving it? Only then do its jobs go on to new accesses (R254). -/
def teamHere (s : State) (team : Nat) : Bool := (s.team? team).any fun t => t.status == .resident && !t.dead

/-- The job that the subject names, with its team. -/
def pickJob (s : State) : Option (Nat × Job) :=
  match s.subject with
  | .pair team j => ((s.team? team).bind fun t => t.job? j).map fun b => (team, b)
  | _ => none

/-- A step on the subject's job; nothing where it names none. -/
def onJob (f : Nat → Job → State → State) (s : State) : Host.Outcome State Fault Refusal :=
  match pickJob s with
  | some x => .next (f x.1 x.2 s)
  | none => .next s

/-! ## Barrier objects (spec/06_copy_engine.md R250) -/

/-- The eight words of an object at its home. -/
def objectWords (s : State) (p : Place) : List W64 :=
  (List.range 8).map fun k => wordOf ((List.range 8).map fun i =>
    if p.ver then newestByte s (p.pa + 8 * k + i) else s.mem.byteAt p.tgt p.dev (p.pa + 8 * k + i))

/-- The bytes of words from word `k` of a place. -/
def wordBytesAt (p : Place) (k : Nat) (ws : List W64) : List (Nat × Byte) := atAddr (p.pa + 8 * k) (ws.flatMap (wordBytes 8))

/-- Writes words of an object at its home, from word `k`, for `job`: on a versioned page as a commit that takes its time
now, if it can (spec/08_snapshot_engine.md R312, R313). Answers whether it was written (DEDUCED, notes/assumptions/49.md). -/
def objectWrite (core id : Nat) (warp : Option WRef) (job : Option (Nat × Nat)) (p : Place) (k : Nat) (ws : List W64)
    (s : State) : Bool × State :=
  let bs := wordBytesAt p k ws
  if ¬ p.ver then (true, writeAtHome s warp core id p.tgt p.dev s.mem.epoch bs)
  else
    let lines : FMap (FMap Byte) := FMap.empty.insert (p.pa / 512) (foldOver (fun m b => FMap.insert m (b.1 % 512) b.2) .empty bs)
    let c : Commit := { warp := warp, op := id, lane := 64, job := job, lines := lines, since := none, epoch := s.mem.epoch }
    let r := commitRoom s c
    if clkFree s ∧ r.1 then (true, takeTime r.2 0 c) else (false, r.2)

/-- A lane that waits at an object. -/
structure Waiter where
  w : WRef
  op : Op
  item : Item

/-- The lanes that wait at the object of a place. -/
def objectWaiters (s : State) (p : Place) : List Waiter :=
  s.teams.entries.flatMap fun e => (e.2.refs e.1).flatMap fun w => match s.warp? w with
    | none => []
    | some x => x.ops.flatMap fun o =>
      if o.unit = unitCp ∧ o.opc = 12 then
        (o.items.filter fun i => i.stage == .armed && i.place.any fun q => q.gaddr == p.gaddr).map fun i =>
          { w := w, op := o, item := i }
      else []

/-- Does a waiter's condition hold at a PHASE? -/
def Waiter.holds (a : Waiter) (word1 : W64) : Bool := lo32 word1 != lo32 a.item.b

/-- Is the team of a waiter on a core? -/
def Waiter.here (s : State) (a : Waiter) : Bool := (s.team? a.w.team).any fun t => t.status == .resident

/-- The cluster bits of waiters. -/
def waiterBits (s : State) (l : List Waiter) : W64 :=
  foldOver (fun (m : W64) (a : Waiter) => m ||| BitVec.ofNat 64 (2 ^ (clusterOf (s.coreOf a.w.team) % 64))) 0 l

/-- A waiting lane is released with word 1 as read: an acquire at device scope, after which its core gives nothing older. -/
def releaseWaiter (word1 : W64) (s : State) (a : Waiter) : State :=
  let core := s.coreOf a.w.team
  let s1 := fillVal s a.w unitCp a.op.id a.item.lane word1 (if bitsOf word1 63 61 = 0 then 0 else 6)
  let s2 := match a.item.place with
    | some p => if p.ver then s1 else catchUp s1 core p 64
    | none => s1
  (acquireDiscards s2 core 3).modWarp a.w fun x =>
    ((x.noteRead s.nextId).release a.item.lane).endItem a.op.id a.item.lane

/-- The waiters of an object that stay when its word 1 becomes `word1`. -/
def waitersLeft (s : State) (p : Place) (word1 : W64) : List Waiter :=
  (objectWaiters s p).filter fun a => !(a.holds word1 && a.here s)

/-- Tests every waiter of an object; a satisfied lane of a saved team is queued to come back first (spec/05_memory_ports.md
R214). -/
def testWaiters (p : Place) (word1 : W64) (s : State) : State :=
  let l := (objectWaiters s p).filter fun a => a.holds word1
  foldOver
    (fun s (a : Waiter) => if a.here s then releaseWaiter word1 s a
      else s.modTeam a.w.team fun t => { t with wake := true })
    s l

/-- `bar.wait` of one lane at the home: released at once, or it waits with its cluster's bit set. Under a launch snapshot it reads a
versioned page at the launch time and may not write there; elsewhere it reads the newest version, once that is published
(spec/08_snapshot_engine.md R295, R314). -/
def barWaitLane (a : Pick) (p : Place) (s : State) : State :=
  let at_ := if p.ver then s.launchTime a.w.team else none
  let ws := match at_ with
    | some t => (List.range 8).map fun k => wordOf ((List.range 8).map fun i => snapByte s t (p.pa + 8 * k + i))
    | none => objectWords s p
  let bad := match at_ with
    | some t => (List.range 64).any fun i => snapPoisoned s t (p.pa + i)
    | none => poisonedAt s p 64
  let word1 := ws.getD 1 0
  let me : Waiter := { w := a.w, op := a.op, item := { a.item with place := some p } }
  let bit := BitVec.ofNat 64 (2 ^ (clusterOf (s.coreOf a.w.team) % 64))
  if bad then failItem s a.w a.op a.item codePoison
  else if me.holds word1 then
    (if p.ver ∧ at_.isNone ∧ s.eng.snap.published < newestTime s (p.pa / 512) then s else releaseWaiter word1 s me)
  else if at_.isSome ∧ ws.getD 2 0 &&& bit = 0 then failItem s a.w a.op a.item codeProtection
  else
    let r := if ws.getD 2 0 &&& bit != 0 then (true, s)
      else objectWrite (s.coreOf a.w.team) a.op.id (some a.w) none p 2 [ws.getD 2 0 ||| bit] s
    if r.1 then r.2.modWarp a.w fun x => x.modOp a.op.id fun o => o.modItem a.item.lane fun i => { i with stage := .armed }
    else r.2

/-- A job's read-modify-write of an object at `va`: `f` gives the words to write from word 0, or none; `after` changes the
job by the words read. Waiters are tested where `f` says so, of an object on a versioned page at the publication. A write that finds no room is made later (spec/08_snapshot_engine.md R319). -/
def objectUpdate (team : Nat) (b : Job) (va : Nat) (f : State → Place → List W64 → Option (List W64 × Bool))
    (after : List W64 → Job → Job) : Run Unit :=
  (pagePlace team b.core va true).then fun p s =>
    if poisonedAt s p 64 then (.error (.code codePoison), s)
    else if lineOpen s b.core p then (.ok (), s)
    else
      let ws := objectWords s p
      match f s p ws with
      | none => (.ok (), s.modJob team b.id (after ws))
      | some (out, test) =>
        let r := objectWrite b.core b.id none (some (team, b.id)) p 0 out s
        if r.1 then
          let s1 := if test ∧ ¬ p.ver then testWaiters p (out.getD 1 0) r.2 else r.2
          (.ok (), s1.modJob team b.id fun b => after ws { b with at_ := 0 })
        else if b.at_ = 0 then (.ok (), r.2.modJob team b.id fun b => { b with at_ := s.clk })
        else if b.at_ + heapLimit s ≤ s.clk then (.error (.code codeHeapFull), r.2)
        else (.ok (), r.2)

/-- The waiters of an object that a job's commit has written are tested. -/
def objectPublished (c : Commit) (s : State) : State :=
  match c.job, c.lines.entries with
  | some _, (line, bs) :: _ =>
    if c.lane = 64 then
      let p : Place := { tgt := 0, dev := 0, pa := 512 * line + bs.keys.headD 0, grain := 0, ver := true, wr := true, wr1 := true }
      testWaiters p ((objectWords s p).getD 1 0) s
    else s
  | _, _ => s

/-- COMMIT_PUBLISH (spec/08_snapshot_engine.md R295): the versions of the next time are installed and the time is published. -/
def execCommitPublish (s : State) : Host.Outcome State Fault Refusal :=
  match s.eng.snap.taken, s.subject with
  | k :: rest, .num t =>
    if k.time = t then
      let s1 := foldOver (installLine k.commit k.time) s k.commit.lines.entries
      let s2 := s1.modSnap fun x => { x with published := k.time, taken := rest }
      match k.commit.warp with
      | some w => .next (s2.modWarp w (fillPublished k.commit k.time))
      | none => .next (visitPublished k.commit (objectPublished k.commit s2))
    else .next s
  | _, _ => .next s

/-- The words of an object after a decrement of PEND by `n` with flags: PEND and word 1, whether it exceeded PEND, and
whether the phase completes. -/
def decrement (ws : List W64) (n : Nat) (flags : Nat) : W64 × W64 × Bool × Bool :=
  let pend := (ws.getD 0 0).toNat
  let w1 := ws.getD 1 0 ||| BitVec.ofNat 64 (flags + if pend < n then 2 ^ 63 else 0)
  let left := pend - n
  if left = 0 then
    (0, (w1 &&& ~~~0xFFFFFFFF) ||| zext32 (lo32 w1 + 1), decide (pend < n), true)
  else (BitVec.ofNat 64 left, w1, decide (pend < n), false)

/-- The words 0 to 2 of an object after a decrement; WAIT is rewritten when the phase completes. -/
def decremented (n flags : Nat) (s : State) (p : Place) (ws : List W64) : Option (List W64 × Bool) :=
  let d := decrement ws n flags
  let wait := if d.2.2.2 then waiterBits s (waitersLeft s p d.2.1) else ws.getD 2 0
  some ([d.1, d.2.1, wait], d.2.2.2)

/-- The bytes that a counted job subtracts now, with flags, and whether it is the last time: what its cursor has passed;
when it ends short also the bytes it did not write, with CXL or FLT (DEDUCED, notes/assumptions/45.md). -/
def barDue (b : Job) : Option (Nat × Nat × Bool) :=
  if b.bar = 0 ∨ b.final then none
  else if b.ending then
    let short := b.status == 1 || b.status == 2 || b.tag != 0
    let flags := if ¬ short then 0 else if b.status = 1 then 2 ^ 62 else 2 ^ 61
    some ((if short then Nat.max b.total b.written else b.written) - b.counted, flags, true)
  else if b.counted < b.written then some (b.written - b.counted, 0, false)
  else none

/-- Is the unwritten rest of a job unknown: an encoder that ends short (spec/06_copy_engine.md R245; notes/assumptions/31.md)? -/
def Job.restOpen (b : Job) : Bool := b.unit == unitCp && b.opc == 6 && b.ending && (b.status == 1 || b.tag != 0)

/-- Has a job that ends before it began no edge on its object from an earlier job that is not complete (R58, R250)? -/
def objectClear (s : State) (team : Nat) (b : Job) : Bool :=
  edgesClear s team { b with regions := [], wregions := [{ ts := false, first := b.bar, len := 64 }] }

/-- BAR_DECREMENT (R250): the subject's job counts its bytes down on its object. -/
def barStep (team : Nat) (b : Job) (s : State) : State :=
  if b.stage ≠ .go ∨ (¬ b.begun ∧ ¬ objectClear s team b) then s
  else
    match barDue b with
    | none => s
    | some d =>
      if d.1 = 0 ∧ d.2.1 = 0 then s.modJob team b.id fun b => { b with final := d.2.2 }
      else
        let r := if b.restOpen then freeBelow s (b.total - b.written + 1) else (0, s)
        let n := if b.restOpen then b.written - b.counted + r.1 else d.1
        let after := fun (ws : List W64) (b : Job) =>
          { b with counted := b.counted + n, final := d.2.2,
                   status := if (ws.getD 0 0).toNat < n ∧ b.status = 0 then 4 else b.status }
        match objectUpdate team b b.bar (decremented n d.2.1) after r.2 with
        | (.ok _, s1) => s1
        | (.error (.walk k s2 va wr), s1) => stopJob s1 team b.id (.walk k s2 va wr)
        | (.error e, s1) => (stopJob s1 team b.id e).modJob team b.id fun b => { b with bar := 0 }

/-- BAR_DECREMENT (R250). -/
def execBarDecrement (s : State) : Host.Outcome State Fault Refusal := onJob barStep s

end Sys2Proof.Machine
end

