-- ==== Sys2Proof/Machine/CopyUnit.lean ====
section
/-! DEFINITION. The cp unit: operands, footprints, checks and submission of its jobs (spec/06_copy_engine.md R237 to
R252). What the jobs then do is in CopyJobs. -/

namespace Sys2Proof.Machine

/-! ## Operand fields (R238 to R246) -/

/-- Element size of a mode in bytes. -/
def modeEsz (m : W64) : Nat := 2 ^ bitsOf m 1 0

/-- The barrier object that a mode names, 0 for none. -/
def modeBar (m : W64) : Nat := bitsOf m 56 6 * 64

/-- Is the source, or the destination, of a job in team store? -/
def modeSrcTs (m : W64) : Bool := bitOf m 5
def modeDstTs (m : W64) : Bool := bitOf m 4

/-- The tag of a mode (DEDUCED, notes/assumptions/52.md). -/
def modeTag (m : W64) : Nat := bitsOf m 63 57

/-- Rows, row bytes and strides of a 2D word (R242). -/
def rows2d (c : W64) : Nat := bitsOf c 63 48
def rowBytes (c : W64) : Nat := bitsOf c 47 32
def srcStride (c : W64) : Nat := 32 * bitsOf c 31 16
def dstStride (c : W64) : Nat := 32 * bitsOf c 15 0

/-- Count, span, index bytes and index list of an index word (R243). -/
def idxCount (c : W64) : Nat := bitsOf c 57 38
def idxSpan (c : W64) : Nat := bitsOf c 63 58
def idxBytes (c : W64) : Nat := if bitOf c 19 then 8 else 4
def idxList (c : W64) : Nat := bitsOf c 18 0

/-- The 4,096-byte blocks of a length, rounded up. -/
def blocks4k (n : Nat) : Nat := (n + 4095) / 4096

/-- Ring rows of a ring word (R246). -/
def ringRows (b : W64) : Nat := bitsOf b 26 19 + 1

/-- The bytes that a whole job writes (R240); for `zrl.pack` at most. -/
def jobBytes (n : Nat) (c m : W64) : Nat :=
  if n = 0 ∨ n = 4 ∨ n = 7 then bitsOf c 39 0
  else if n = 1 then rows2d c * rowBytes c
  else if n = 2 ∨ n = 3 then idxCount c * modeEsz m
  else if n = 5 then bitsOf c 31 0 + bitsOf c 31 0 / 32
  else if n = 6 then bitsOf c 39 0 + blocks4k (bitsOf c 39 0)
  else if n = 8 then bitsOf c 31 0 * modeEsz m
  else 0

/-- A region of a source or destination operand. -/
def regionOf (ts : Bool) (a : W64) (len : Nat) : Region := { ts := ts, first := a.toNat, len := len }

/-- The bytes of a 2D region, of empty rows too (R240); without rows none. -/
def span2d (c : W64) (stride : Nat) : Nat :=
  if rows2d c = 0 then 0 else (rows2d c - 1) * stride + rowBytes c

/-- The read regions of a job (R240). The ring of a channel is added when its job begins (R251). -/
def copyReads (n : Nat) (a c m : W64) : List Region :=
  let src := regionOf (modeSrcTs m) a
  let list : Region := { ts := true, first := idxList c, len := idxCount c * idxBytes c }
  let len := bitsOf c 39 0
  if n = 0 ∨ n = 6 then [src len]
  else if n = 1 then [src (span2d c (srcStride c))]
  else if n = 2 then [list, src (2 ^ idxSpan c)]
  else if n = 3 then [list, src (idxCount c * modeEsz m)]
  else if n = 5 then [src (4 * bitsOf c 31 0)]
  else if n = 7 then [src (len + blocks4k len)]
  else if n = 8 then [src (bitsOf c 31 0 * modeEsz m)]
  else []

/-- The write regions of a job, without the object that it counts on (R240). -/
def copyWrites (n : Nat) (a b c m : W64) : List Region :=
  let dst := regionOf (modeDstTs m) b
  if n = 1 then [dst (span2d c (dstStride c))]
  else if n = 3 then [dst (2 ^ idxSpan c)]
  else if n = 8 then [{ ts := true, first := bitsOf b 18 0, len := ringRows b * 64 * modeEsz m }]
  else if n = 10 ∨ n = 11 then [{ ts := false, first := a.toNat, len := 64 }]
  else if n ≤ 7 then [dst (jobBytes n c m)]
  else []

/-! ## Checks (R241) -/

/-- Does a lane fail for a reserved bit or a value outside its range? -/
def copyIllegal (n : Nat) (a b c m : W64) : Bool :=
  let len := bitsOf c 39 0
  if n = 0 ∨ n = 4 ∨ n = 6 ∨ n = 7 then
    bitsOf c 63 40 != 0 || (n == 4 && len % modeEsz m != 0) || ((n == 6 || n == 7) && len % 32 != 0)
  else if n = 2 ∨ n = 3 then bitsOf c 37 20 != 0 || decide (idxSpan c < 5) || decide (57 < idxSpan c)
  else if n = 5 then bitsOf c 63 35 != 0 || bitsOf c 31 0 % 32 != 0
  else if n = 8 then bitsOf c 63 35 != 0 || bitsOf b 63 27 != 0 || bitsOf b 18 0 % 512 != 0
  else if n = 9 then bitsOf a 63 3 != 0
  else if n = 15 ∨ n = 16 then bitsOf a 63 7 != 0
  else false

/-- The stream that a lane of `stream.open` names (R246). -/
def streamNo (c : W64) : Nat := bitsOf c 34 32

/-- Does a lane of `stream.open` name a bound stream, or one that another lane names too? -/
def streamTaken (wr x : Warp) (ls : List Nat) (l : Nat) : Bool :=
  let k := fun l => streamNo (wr.port unitCp offC l)
  x.streams.has (k l) || ls.any fun j => j != l && k j == k l

/-- Is an address of a lane misaligned? -/
def copyMisaligned (n : Nat) (a b c m : W64) : Bool :=
  let esz := modeEsz m
  let off := fun (v : W64) k => v.toNat % k != 0
  if n = 2 ∨ n = 3 then off a esz || off b esz || idxList c % idxBytes c != 0
  else if n = 4 then off b esz
  else if n = 5 then off a 4
  else if n = 8 then off a esz
  else if n = 10 ∨ n = 11 ∨ n = 12 ∨ n = 14 then off a 64
  else if n = 13 then off b 64
  else false

/-- Does a region of team store lie outside the team's slice? An empty one does so by where it stands (DEDUCED, notes/assumptions/45.md). -/
def Region.outside (t : Team) (r : Region) : Bool :=
  r.ts && (decide (2 ^ 19 ≤ r.first) || decide (t.tsSize < r.first + r.len))

/-- The checks of a copy trigger. -/
def copyCheck (n : Nat) (_ : State) (t : Team) (wr x : Warp) (ls : List Nat) (_ : W32) : Option (Nat × BitVec 8 × List Nat) :=
  let a := fun l => wr.port unitCp offA l
  let b := fun l => wr.port unitCp offB l
  let c := fun l => wr.port unitCp offC l
  let m := fun l => wr.port unitCp offM l
  orElse
    (failLanes 8 codeIllegalOp ls fun l => copyIllegal n (a l) (b l) (c l) (m l) || (n == 8 && streamTaken wr x ls l))
    (orElse (failLanes 8 codeMisaligned ls fun l => copyMisaligned n (a l) (b l) (c l) (m l))
      (failLanes 8 codeTstoreRange ls fun l =>
        (copyReads n (a l) (c l) (m l) ++ copyWrites n (a l) (b l) (c l) (m l)).any (Region.outside t)))

/-! ## Acceptance (R239) -/

/-- Does an opcode submit jobs? -/
def isCopyJob (n : Nat) : Bool := decide (n ≤ 8) || n == 10 || n == 11 || n == 13 || n == 14

/-- The copy jobs that a core holds. -/
def copyJobs (s : State) (core : Nat) : Nat := ((coreJobs s core).filter fun e => e.2.unit == unitCp).length

/-- Does the engine accept a trigger: one in a clk, with a free slot for each job? -/
def copyAccept (n : Nat) (s : State) (t : Team) (x : Warp) (ls : List Nat) : Bool :=
  x.engineFree && decide ((s.core t.core).cpAt ≤ s.clk) &&
    (!isCopyJob n || decide (copyJobs s t.core + ls.length ≤ 1024))

/-! ## Submission -/

/-- The scales that a quantisation keeps (R244). -/
def quantScales (t : Team) (clk : Nat) (n : Nat) (c : W64) : List (BitVec 8) :=
  if n = 5 then (List.range 16).map fun i => t.scaleAt clk (bitsOf c 33 32) i else []

/-- The job of one lane. -/
def copyJob (n : Nat) (s : State) (t : Team) (x : Warp) (b : Begin) (l id : Nat) : Job :=
  let pa := x.port unitCp offA l
  let pb := x.port unitCp offB l
  let pc := x.port unitCp offC l
  let m := if n ≤ 8 then x.port unitCp offM l else 0
  let object := modeBar m
  { id := id, trig := b.id, warp := b.w.warp, unit := unitCp, opc := n, lane := l, lanes := BitVec.ofNat 64 (2 ^ l),
    a := pa, b := pb, c := pc, mode := m, data := .empty, core := t.core,
    regions := copyReads n pa pc m,
    wregions := copyWrites n pa pb pc m ++ (if object = 0 then [] else [{ ts := false, first := object, len := 64 }]),
    begun := false, cursor := 0, acc := 0, written := 0, counted := 0, total := jobBytes n pc m, bar := object,
    final := false, stage := .go, epoch := s.mem.epoch, status := 0, tag := 0, ending := false, cancel := false, pos := 0,
    pos2 := 0, held := quantScales t s.clk n pc, old := .empty, rows := [], at_ := 0, fetch := .empty }

/-- Binds the stream of a lane to its job (R246, R247). -/
def bindStream (j : Job) (x : Warp) : Warp :=
  { x with
    streams := x.streams.insert (streamNo j.c)
      { job := j.id, off := bitsOf j.b 18 0, rows := ringRows j.b, esz := modeEsz j.mode, count := bitsOf j.c 31 0,
        written := 0, failed := none, reads := .empty, given := .empty } }

/-- Submits one job of a trigger. -/
def submitCopy (n : Nat) (b : Begin) (s : State) (l : Nat) : State :=
  match s.team? b.w.team, s.warp? b.w with
  | some t, some x =>
    let (id, s1) := takeId s
    let j := copyJob n s t x b l id
    let s2 := s1.modTeam b.w.team fun t => { t with jobs := t.jobs ++ [j] }
    if n = 8 then s2.modWarp b.w (bindStream j) else s2
  | _, _ => s

/-- Marks the engine's trigger of this clk. -/
def takeCopyClk (s : State) (w : WRef) : State := s.modCore (s.coreOf w.team) fun k => { k with cpAt := s.clk + 1 }

/-- Starts the jobs of a trigger, by rising lane. -/
def startCopy (n : Nat) (s : State) (b : Begin) : State := foldOver (submitCopy n b) (takeCopyClk s b.w) b.lanes

/-- Cancels a job (R252): one that has not begun or stands at its cursor ends at once, another at its next boundary. -/
def Job.cancels (b : Job) : Job :=
  if b.ending then b
  else if b.begun && b.acc != 0 then { b with cancel := true }
  else { b with cancel := true, ending := true, status := 1, stage := .go }

/-- The item of a lane of `stream.close`, `bar.wait`, `cancel` or `poll`. -/
def copyItem (s : State) (x : Warp) (l : Nat) : Item :=
  Item.start l (x.port unitCp offA l) (x.port unitCp offB l) (x.port unitCp offC l) s.mem.epoch

/-- Adds an operation of cp to a warp. -/
def addCopyOp (n : Nat) (s : State) (b : Begin) (items : List Item) : State :=
  s.modWarp b.w fun x =>
    { x with
      ops := x.ops ++ [{ id := b.id, unit := unitCp, opc := n, mode := 0, pc := b.pc, clk := s.clk, items := items, info := [] }] }

/-- `stream.close` of one lane (R249): the stream unbinds, its job is cancelled; it fills once the job has stopped. -/
def closeLane (b : Begin) (s : State) (l : Nat) : State :=
  match s.team? b.w.team, s.warp? b.w with
  | some t, some x =>
    let k := (x.port unitCp offA l).toNat
    match x.streams.find? k with
    | none => fillVal s b.w unitCp b.id l 0 8
    | some st =>
      let s1 := s.modWarp b.w fun x => { x with streams := x.streams.erase k }
      match t.job? st.job with
      | none => fillVal s1 b.w unitCp b.id l 0 0
      | some j =>
        let s2 := s1.modJob b.w.team j.id Job.cancels
        s2.modWarp b.w fun x => x.modOp b.id fun o =>
          { o with items := o.items ++ [{ copyItem s x l with stage := .go, extra := [j.id] }] }
  | _, _ => s

/-- The jobs of a team with a tag that precede a trigger (R252). -/
def taggedJobs (t : Team) (id : Nat) (tag : W64) : List Job :=
  t.jobs.filter fun j => j.unit == unitCp && decide (j.opc ≤ 8) && decide (j.trig < id) && modeTag j.mode == tag.toNat

/-- `cancel` of one lane: the jobs that it stops. -/
def cancelLane (b : Begin) (s : State) (l : Nat) : State :=
  match s.team? b.w.team, s.warp? b.w with
  | some t, some x =>
    let js := (taggedJobs t b.id (x.port unitCp offA l)).filter fun j => !j.cancel && !j.ending
    let s1 := foldOver (fun s (j : Job) => s.modJob b.w.team j.id Job.cancels) s js
    if js.isEmpty then fillVal s1 b.w unitCp b.id l 0 0
    else s1.modWarp b.w fun x => x.modOp b.id fun o =>
      { o with items := o.items ++ [{ copyItem s x l with stage := .go, extra := js.map fun j => j.id }] }
  | _, _ => s

/-- Starts `stream.close` or `cancel`: the lanes act in lane order. -/
def startStop (n : Nat) (f : Begin → State → Nat → State) (s : State) (b : Begin) : State :=
  let s1 := addCopyOp n (takeCopyClk s b.w) b []
  (foldOver (f b) s1 b.lanes).modWarp b.w Warp.tidy

/-- Starts `bar.wait`: the lanes park; the wait is performed at the object's home (R250). -/
def startBarWait (s : State) (b : Begin) : State :=
  let s1 := takeCopyClk s b.w
  match s1.warp? b.w with
  | none => s1
  | some x =>
    (addCopyOp 12 s1 b (b.lanes.map (copyItem s x))).modWarp b.w fun x =>
      foldOver (fun x l => x.modLane l fun y => { y with wait := some (.object b.id) }) x b.lanes

/-- Starts `poll`: it is answered 4 clk later (R252). -/
def startPoll (s : State) (b : Begin) : State :=
  let s1 := takeCopyClk s b.w
  match s1.warp? b.w with
  | none => s1
  | some x => addCopyOp 16 s1 b (b.lanes.map fun l => { copyItem s x l with stage := .go })

/-- An operation of cp. -/
def copyOp (n : Nat) (start : State → Begin → State) : OpSpec :=
  { unit := unitCp, opc := n, reads := readsNone, check := copyCheck n, accept := copyAccept n, setsPc := setsNone,
    start := start }

/-- cp.copy (R242). -/
def opCpCopy : OpSpec := copyOp 0 (startCopy 0)

/-- copy is issued. -/
def execCpCopy (t : Trig) (s : State) : Host.Outcome State Fault Refusal := issueOne opCpCopy t s

/-- cp.copy2d (R242). -/
def opCpCopy2d : OpSpec := copyOp 1 (startCopy 1)

/-- copy2d is issued. -/
def execCpCopy2d (t : Trig) (s : State) : Host.Outcome State Fault Refusal := issueOne opCpCopy2d t s

/-- cp.gather (R243). -/
def opCpGather : OpSpec := copyOp 2 (startCopy 2)

/-- gather is issued. -/
def execCpGather (t : Trig) (s : State) : Host.Outcome State Fault Refusal := issueOne opCpGather t s

/-- cp.scatter (R243). -/
def opCpScatter : OpSpec := copyOp 3 (startCopy 3)

/-- scatter is issued. -/
def execCpScatter (t : Trig) (s : State) : Host.Outcome State Fault Refusal := issueOne opCpScatter t s

/-- cp.fill (R242). -/
def opCpFill : OpSpec := copyOp 4 (startCopy 4)

/-- fill is issued. -/
def execCpFill (t : Trig) (s : State) : Host.Outcome State Fault Refusal := issueOne opCpFill t s

/-- cp.quant.zb8 (R244). -/
def opCpQuantZb8 : OpSpec := copyOp 5 (startCopy 5)

/-- quant.zb8 is issued. -/
def execCpQuantZb8 (t : Trig) (s : State) : Host.Outcome State Fault Refusal := issueOne opCpQuantZb8 t s

/-- cp.zrl.pack (R245). -/
def opCpZrlPack : OpSpec := copyOp 6 (startCopy 6)

/-- zrl.pack is issued. -/
def execCpZrlPack (t : Trig) (s : State) : Host.Outcome State Fault Refusal := issueOne opCpZrlPack t s

/-- cp.zrl.unpack (R245). -/
def opCpZrlUnpack : OpSpec := copyOp 7 (startCopy 7)

/-- zrl.unpack is issued. -/
def execCpZrlUnpack (t : Trig) (s : State) : Host.Outcome State Fault Refusal := issueOne opCpZrlUnpack t s

/-- cp.stream.open (R246). -/
def opCpStreamOpen : OpSpec := copyOp 8 (startCopy 8)

/-- stream.open is issued. -/
def execCpStreamOpen (t : Trig) (s : State) : Host.Outcome State Fault Refusal := issueOne opCpStreamOpen t s

/-- cp.stream.close (R249). -/
def opCpStreamClose : OpSpec := copyOp 9 (startStop 9 closeLane)

/-- stream.close is issued. -/
def execCpStreamClose (t : Trig) (s : State) : Host.Outcome State Fault Refusal := issueOne opCpStreamClose t s

/-- cp.bar.init (R250). -/
def opCpBarInit : OpSpec := copyOp 10 (startCopy 10)

/-- bar.init is issued. -/
def execCpBarInit (t : Trig) (s : State) : Host.Outcome State Fault Refusal := issueOne opCpBarInit t s

/-- cp.bar.expect (R250). -/
def opCpBarExpect : OpSpec := copyOp 11 (startCopy 11)

/-- bar.expect is issued. -/
def execCpBarExpect (t : Trig) (s : State) : Host.Outcome State Fault Refusal := issueOne opCpBarExpect t s

/-- cp.bar.wait (R250). -/
def opCpBarWait : OpSpec := copyOp 12 startBarWait

/-- bar.wait is issued. -/
def execCpBarWait (t : Trig) (s : State) : Host.Outcome State Fault Refusal := issueOne opCpBarWait t s

/-- cp.chan.send (R251). -/
def opCpChanSend : OpSpec := copyOp 13 (startCopy 13)

/-- chan.send is issued. -/
def execCpChanSend (t : Trig) (s : State) : Host.Outcome State Fault Refusal := issueOne opCpChanSend t s

/-- cp.chan.recv (R251). -/
def opCpChanRecv : OpSpec := copyOp 14 (startCopy 14)

/-- chan.recv is issued. -/
def execCpChanRecv (t : Trig) (s : State) : Host.Outcome State Fault Refusal := issueOne opCpChanRecv t s

/-- cp.cancel (R252). -/
def opCpCancel : OpSpec := copyOp 15 (startStop 15 cancelLane)

/-- cancel is issued. -/
def execCpCancel (t : Trig) (s : State) : Host.Outcome State Fault Refusal := issueOne opCpCancel t s

/-- cp.poll (R252). -/
def opCpPoll : OpSpec := copyOp 16 startPoll

/-- poll is issued. -/
def execCpPoll (t : Trig) (s : State) : Host.Outcome State Fault Refusal := issueOne opCpPoll t s

/-- The operations of cp, by opcode. -/
def cpOps : List OpSpec :=
  [opCpCopy, opCpCopy2d, opCpGather, opCpScatter, opCpFill, opCpQuantZb8, opCpZrlPack, opCpZrlUnpack,
    opCpStreamOpen, opCpStreamClose, opCpBarInit, opCpBarExpect, opCpBarWait, opCpChanSend, opCpChanRecv, opCpCancel, opCpPoll]

end Sys2Proof.Machine
end

