-- ==== Sys2Proof/Machine/CvtUnit.lean ====
section
/-! DEFINITION. cvt0: conversions, cross-lane operations, block pack and unpack (spec/04_lane_units.md R180 to
R192). -/

namespace Sys2Proof.Machine

/-! ## Conversions -/

/-- The low 32 bits of a result. -/
def low32 (r : FRes) : FRes := { r with bits := r.bits % 2 ^ 32 }

/-- A conversion of cvt0: latency 2 (R180). -/
def convOp (opc : Nat) (f : FEnv → W64 → FRes) : OpSpec :=
  laneOp unitCvt opc 2 fun _ x b => b.lanes.map (floatRes x unitCvt (fun v a _ _ => f v a) b.pre)

/-! ## Cross-lane operations -/

/-- The lane whose number within the warp, or within the half of lane `l`, is the low bits of `k` (R183, R186). -/
def Warp.laneAt (x : Warp) (l k : Nat) : Nat := if x.w32 then l / 32 * 32 + k % 32 else k % 64

/-- An index operation: each performing lane takes all of .a of a lane (R183). -/
def indexOp (opc : Nat) (src : Warp → List Nat → Nat → Nat) : OpSpec :=
  laneOp unitCvt opc 2 fun _ x b => b.lanes.map fun l =>
    { lane := l, y := x.port unitCvt offA (src x (x.sameHalf b.lanes l) l), y2 := 0, exc := 0, trap := false }

/-- The inclusive prefix sum at lane `l` over the performing lanes (R184). -/
def scanAt (x : Warp) (ls : List Nat) (l : Nat) : W32 :=
  foldOver (fun (a : W32) m => if m ≤ l then a + lo32 (x.port unitCvt offA m) else a) 0 ls

/-- A node of the sum tree of red.add.f32: nothing, or a value with exceptions (R185). -/
abbrev SumNode := Option FRes

/-- A leaf: flushed, a signalling NaN made quiet (R185). -/
def sumLeaf (v : FEnv) (a : Nat) : FRes :=
  let x := flushBits f32 v.fz32 a
  match unpack f32 false x with
  | .nan neg frac sig => { bits := quietBits f32 neg frac, exc := if sig then excInvalid else 0 }
  | _ => { bits := x, exc := 0 }

/-- Two nodes joined (R185). -/
def sumJoin (v : FEnv) (x z : SumNode) : SumNode :=
  match x, z with
  | some a, some b =>
    let r := addBits f32 v a.bits b.bits
    some { bits := r.bits, exc := r.exc ||| a.exc ||| b.exc }
  | some a, none => some a
  | none, b => b

/-- One level of the tree. -/
def sumLevel (v : FEnv) : List SumNode → List SumNode
  | x :: z :: r => sumJoin v x z :: sumLevel v r
  | [x] => [x]
  | [] => []

/-- The tree over the leaves, level by level. -/
def sumTree (v : FEnv) : Nat → List SumNode → List SumNode
  | 0, l => l
  | k + 1, l => sumTree v k (sumLevel v l)

/-- The sum of red.add.f32 over performing lanes of a warp or half; a NaN result under DN = 1 is the canonical one
(R163, R185, R186) (DEDUCED, notes/assumptions/85.md). -/
def redSum (x pre : Warp) (ls : List Nat) : FRes :=
  let l0 := minOf ls 0
  let v := envOf (pre.lane l0).nfr
  let first := if x.w32 then l0 / 32 * 32 else 0
  let leaves : List SumNode := (List.range (if x.w32 then 32 else 64)).map fun i =>
    if ls.contains (first + i) then some (sumLeaf v (u32 (x.port unitCvt offA (first + i)))) else none
  match sumTree v (if x.w32 then 5 else 6) leaves with
  | [some r] => if v.dn && (unpack f32 false r.bits).isNan then { r with bits := canonNan f32 } else r
  | _ => { bits := 0, exc := 0 }

/-! ## Block pack and unpack (R187 to R192) -/

/-- Order of two magnitudes m × 2^e. -/
def magLe (a b : Nat × Int) : Bool :=
  let e := min a.2 b.2
  decide (a.1 * 2 ^ (a.2 - e).toNat ≤ b.1 * 2 ^ (b.2 - e).toNat)

/-- The largest magnitude of a block format: 7.75 for ZB8, 1.5 for ZB4 (R187). -/
def blockMax (zb8 : Bool) : Nat × Int := if zb8 then (31, -2) else (3, -1)

/-- A magnitude of a value, none for an infinity. -/
def FVal.mag : FVal → Option (Nat × Int)
  | .fin _ m e => some (m, e)
  | _ => none

/-- Does F × 2^t reach a magnitude, an infinity being out of reach (R188)? -/
def scaleFits (zb8 : Bool) (t : Int) (m : Option (Nat × Int)) : Bool :=
  match m with
  | none => false
  | some x => magLe x ((blockMax zb8).1, (blockMax zb8).2 + t)

/-- The larger of two magnitudes, an infinity being largest. -/
def magMax (a b : Option (Nat × Int)) : Option (Nat × Int) :=
  match a, b with
  | some x, some y => if magLe x y then some y else some x
  | _, _ => none

/-- The lowest index among `is` with the least, or greatest, scale. -/
def bestScale (t : Nat → Int) (least : Bool) : List Nat → Nat
  | [] => 0
  | [i] => i
  | i :: j :: r =>
    let k := bestScale t least (j :: r)
    if (if least then decide (t i ≤ t k) else decide (t k ≤ t i)) then i else k

/-- The two header indices of a block: hi and lo (R188). -/
def headerOf (zb8 : Bool) (single : Bool) (t : Nat → Int) (m : Option (Nat × Int)) : Nat × Nat :=
  let fit := (List.range 16).filter fun i => scaleFits zb8 (t i) m
  let hi := if fit.isEmpty then bestScale t false (List.range 16) else bestScale t true fit
  let low := (List.range 16).filter fun i => decide (t i < t hi)
  (hi, if single || low.isEmpty then hi else bestScale t false low)

/-- `grid` of R189 at a scaled magnitude m × 2^e: the code of the magnitude (without selector and sign), its value in
sixteenths (ZB8) or halves (ZB4), and whether it overflows. -/
def gridOf (zb8 : Bool) (m : Nat) (e : Int) : Nat × Nat × Bool :=
  if zb8 then
    let q := e + 4
    if magLe (126, 0) (m, q) then (63, 124, true)
    else if magLe (64, 0) (m, q) then let n := (roundTo .rne false m q 2).1; (n + 32, 4 * n, false)
    else if magLe (32, 0) (m, q) then let n := (roundTo .rne false m q 1).1; (n + 16, 2 * n, false)
    else let n := (roundTo .rne false m q 0).1; (n, n, false)
  else
    let q := e + 1
    if magLe (7, -1) (m, q) then (3, 3, true) else let n := (roundTo .rne false m q 0).1; (n, n, false)

/-- Is a finite magnitude what its code stands for? -/
def gridExact (zb8 : Bool) (val : Nat) (m : Nat) (e : Int) : Bool :=
  let u : Int := if zb8 then -4 else -1
  magLe (val, u) (m, e) && magLe (m, e) (val, u)

/-- The element of one lane with its exceptions (R188, R189). -/
def packElem (zb8 : Bool) (t : Nat → Int) (hi lo : Nat) (x : FVal) : Nat × BitVec 5 :=
  let enc := fun (sel neg : Bool) (code : Nat) =>
    (if sel then (if zb8 then 128 else 8) else 0) + (if neg then (if zb8 then 64 else 4) else 0) + code
  match x with
  | .nan _ _ _ => (0, excInvalid)
  | .inf neg => (enc false neg (if zb8 then 63 else 3), excOverflow ||| excInexact)
  | .fin neg m e =>
    let sel := hi != lo && scaleFits zb8 (t lo) (some (m, e))
    let sc := e - t (if sel then lo else hi)
    let g := gridOf zb8 m sc
    let exc : BitVec 5 :=
      if g.2.2 then excOverflow ||| excInexact
      else if m != 0 && g.2.1 == 0 then excUnderflow ||| excInexact
      else if gridExact zb8 g.2.1 m sc then 0
      else excInexact
    (enc sel neg g.1, exc)

/-- Scale set and header rule of an NFR (R161). -/
def nfrSet (nfr : BitVec 16) : Nat := nfr.toNat / 256 % 4
def nfrRule (nfr : BitVec 16) : Nat := nfr.toNat / 32 % 8

/-- The scales that a trigger of this clk sees (R78). -/
def scaleFn (s : State) (team set i : Nat) : Int :=
  match s.team? team with
  | some t => (t.scaleAt s.clk set i).toInt
  | none => 0

/-- The results of a pack over one group of lanes (R188). -/
def packGroup (zb8 : Bool) (s : State) (team : Nat) (x pre : Warp) (q : List Nat) : List LaneRes :=
  let nfr := (pre.lane (minOf q 0)).nfr
  let val := fun l => unpack f32 (envOf nfr).fz32 (u32 (x.port unitCvt offA l))
  let mags := (q.filter fun l => !(val l).isNan).map fun l => (val l).mag
  let m := foldOver magMax (some (0, 0)) mags
  let t := scaleFn s team (nfrSet nfr)
  let h := headerOf zb8 (nfrRule nfr == 1) t m
  q.map fun l =>
    let e := packElem zb8 t h.1 h.2 (val l)
    { lane := l, y := BitVec.ofNat 64 ((h.2 * 16 + h.1) * 256 + e.1), y2 := e.2.setWidth 64, exc := e.2,
      trap := meetsEnables (pre.lane l).nfr e.2 }

/-- The groups of lanes 0 to 31 and 32 to 63 that perform a pack. -/
def packGroups (ls : List Nat) : List (List Nat) :=
  [ls.filter fun l => decide (l < 32), ls.filter fun l => decide (32 ≤ l)].filter fun q => !q.isEmpty

/-- A reserved BFMT in the NFR of a group's lowest performing lane (R192): class 8. -/
def packCheck (x : Warp) (ls : List Nat) : Option (Nat × BitVec 8 × List Nat) :=
  let bad := (packGroups ls).flatMap fun q => if 2 ≤ nfrRule (x.lane (minOf q 0)).nfr then q else []
  if bad.isEmpty then none else some (8, codeIllegalOp, bad)

/-- A pack of cvt0 (R188 to R192). -/
def packOp (opc : Nat) (zb8 : Bool) : OpSpec :=
  { laneOp unitCvt opc 2 fun s x b => (packGroups b.lanes).flatMap (packGroup zb8 s b.w.team x b.pre) with
    check := fun _ _ wr x ls _ => orElse (modeZero unitCvt wr ls) (packCheck x ls) }

/-- The value of a block element under a header (R187): sign, magnitude m × 2^e. -/
def blockValue (zb8 : Bool) (t : Nat → Int) (hdr el : Nat) : Bool × Nat × Int :=
  let sel := if zb8 then el / 128 % 2 else el / 8 % 2
  let neg := if zb8 then el / 64 % 2 == 1 else el / 4 % 2 == 1
  let k := t (if sel = 1 then hdr / 16 % 16 else hdr % 16)
  if zb8 then
    let ex := el / 16 % 4
    if ex = 0 then (neg, el % 16, k - 4) else (neg, 16 + el % 16, k - 4 + (ex - 1 : Nat))
  else (neg, el % 4, k - 1)

/-- Unpacks one lane (R190). -/
def unpackLane (zb8 : Bool) (s : State) (team : Nat) (nfr : BitVec 16) (a : W64) : FRes :=
  let v := blockValue zb8 (scaleFn s team (nfrSet nfr)) (bitsOf a 15 8) (bitsOf a 7 0)
  roundFin f32 (envOf nfr) v.1 v.2.1 v.2.2

/-- An unpack of cvt0 (R190). -/
def unpackOp (opc : Nat) (zb8 : Bool) : OpSpec :=
  laneOp unitCvt opc 2 fun s x b => b.lanes.map fun l =>
    floatRes x unitCvt (fun _ a _ _ => unpackLane zb8 s b.w.team (b.pre.lane l).nfr a) b.pre l

/-- cvt0.f32.s32 (R180 to R182). -/
def opCvtF32S32 : OpSpec := convOp 0 fun v a => ofInt f32 v (s32 a)

/-- f32.s32 is issued. -/
def execCvtF32S32 (t : Trig) (s : State) : Host.Outcome State Fault Refusal := issueOne opCvtF32S32 t s

/-- cvt0.f32.u32 (R180 to R182). -/
def opCvtF32U32 : OpSpec := convOp 1 fun v a => ofInt f32 v (u32 a)

/-- f32.u32 is issued. -/
def execCvtF32U32 (t : Trig) (s : State) : Host.Outcome State Fault Refusal := issueOne opCvtF32U32 t s

/-- cvt0.s32.f32 (R180 to R182). -/
def opCvtS32F32 : OpSpec := convOp 2 fun v a => low32 (toInt (unpack f32 v.fz32 (u32 a)) (-(2 ^ 31)) (2 ^ 31 - 1))

/-- s32.f32 is issued. -/
def execCvtS32F32 (t : Trig) (s : State) : Host.Outcome State Fault Refusal := issueOne opCvtS32F32 t s

/-- cvt0.u32.f32 (R180 to R182). -/
def opCvtU32F32 : OpSpec := convOp 3 fun v a => low32 (toInt (unpack f32 v.fz32 (u32 a)) 0 (2 ^ 32 - 1))

/-- u32.f32 is issued. -/
def execCvtU32F32 (t : Trig) (s : State) : Host.Outcome State Fault Refusal := issueOne opCvtU32F32 t s

/-- cvt0.f16.f32 (R180 to R182). -/
def opCvtF16F32 : OpSpec := convOp 4 fun v a => convert f16 v (unpack f32 v.fz32 (u32 a))

/-- f16.f32 is issued. -/
def execCvtF16F32 (t : Trig) (s : State) : Host.Outcome State Fault Refusal := issueOne opCvtF16F32 t s

/-- cvt0.f32.f16 (R180 to R182). -/
def opCvtF32F16 : OpSpec := convOp 5 fun v a => convert f32 v (unpack f16 v.fz16 (bitsOf a 15 0))

/-- f32.f16 is issued. -/
def execCvtF32F16 (t : Trig) (s : State) : Host.Outcome State Fault Refusal := issueOne opCvtF32F16 t s

/-- cvt0.bf16.f32 (R180 to R182). -/
def opCvtBf16F32 : OpSpec := convOp 6 fun v a => convert bf16 v (unpack f32 v.fz32 (u32 a))

/-- bf16.f32 is issued. -/
def execCvtBf16F32 (t : Trig) (s : State) : Host.Outcome State Fault Refusal := issueOne opCvtBf16F32 t s

/-- cvt0.f32.bf16 (R180 to R182). -/
def opCvtF32Bf16 : OpSpec := convOp 7 fun v a => convert f32 v (unpack bf16 v.fz16 (bitsOf a 15 0))

/-- f32.bf16 is issued. -/
def execCvtF32Bf16 (t : Trig) (s : State) : Host.Outcome State Fault Refusal := issueOne opCvtF32Bf16 t s

/-- cvt0.f64.f32 (R180 to R182). -/
def opCvtF64F32 : OpSpec := convOp 8 fun v a => convert f64 v (unpack f32 v.fz32 (u32 a))

/-- f64.f32 is issued. -/
def execCvtF64F32 (t : Trig) (s : State) : Host.Outcome State Fault Refusal := issueOne opCvtF64F32 t s

/-- cvt0.f32.f64 (R180 to R182). -/
def opCvtF32F64 : OpSpec := convOp 9 fun v a => convert f32 v (unpack f64 false a.toNat)

/-- f32.f64 is issued. -/
def execCvtF32F64 (t : Trig) (s : State) : Host.Outcome State Fault Refusal := issueOne opCvtF32F64 t s

/-- cvt0.f64.s64 (R180 to R182). -/
def opCvtF64S64 : OpSpec := convOp 10 fun v a => ofInt f64 v a.toInt

/-- f64.s64 is issued. -/
def execCvtF64S64 (t : Trig) (s : State) : Host.Outcome State Fault Refusal := issueOne opCvtF64S64 t s

/-- cvt0.s64.f64 (R180 to R182). -/
def opCvtS64F64 : OpSpec := convOp 11 fun _ a => toInt (unpack f64 false a.toNat) (-(2 ^ 63)) (2 ^ 63 - 1)

/-- s64.f64 is issued. -/
def execCvtS64F64 (t : Trig) (s : State) : Host.Outcome State Fault Refusal := issueOne opCvtS64F64 t s

/-- cvt0.round.f32 (R180 to R182). -/
def opCvtRoundF32 : OpSpec := convOp 16 fun v a => roundIntegral f32 v (unpack f32 v.fz32 (u32 a))

/-- round.f32 is issued. -/
def execCvtRoundF32 (t : Trig) (s : State) : Host.Outcome State Fault Refusal := issueOne opCvtRoundF32 t s

/-- cvt0.zbpack8 (R188). -/
def opCvtZbpack8 : OpSpec := packOp 12 true

/-- Zbpack8 is issued. -/
def execCvtZbpack8 (t : Trig) (s : State) : Host.Outcome State Fault Refusal := issueOne opCvtZbpack8 t s

/-- cvt0.zbunpack8 (R190). -/
def opCvtZbunpack8 : OpSpec := unpackOp 13 true

/-- Zbunpack8 is issued. -/
def execCvtZbunpack8 (t : Trig) (s : State) : Host.Outcome State Fault Refusal := issueOne opCvtZbunpack8 t s

/-- cvt0.zbpack4 (R188). -/
def opCvtZbpack4 : OpSpec := packOp 14 false

/-- Zbpack4 is issued. -/
def execCvtZbpack4 (t : Trig) (s : State) : Host.Outcome State Fault Refusal := issueOne opCvtZbpack4 t s

/-- cvt0.zbunpack4 (R190). -/
def opCvtZbunpack4 : OpSpec := unpackOp 15 false

/-- Zbunpack4 is issued. -/
def execCvtZbunpack4 (t : Trig) (s : State) : Host.Outcome State Fault Refusal := issueOne opCvtZbunpack4 t s

/-- cvt0.xlaneIdx (R183). -/
def opCvtXlaneIdx : OpSpec := indexOp 17 fun x _ l => x.laneAt l (x.port unitCvt offB l).toNat

/-- XlaneIdx is issued. -/
def execCvtXlaneIdx (t : Trig) (s : State) : Host.Outcome State Fault Refusal := issueOne opCvtXlaneIdx t s

/-- cvt0.xlaneXor (R183). -/
def opCvtXlaneXor : OpSpec := indexOp 18 fun x _ l => x.laneAt l (x.laneNo l ^^^ ((x.port unitCvt offB l).toNat % 64))

/-- XlaneXor is issued. -/
def execCvtXlaneXor (t : Trig) (s : State) : Host.Outcome State Fault Refusal := issueOne opCvtXlaneXor t s

/-- cvt0.bcast (R183). -/
def opCvtBcast : OpSpec := indexOp 19 fun x ls l => x.laneAt l (x.port unitCvt offB (minOf ls 0)).toNat

/-- Bcast is issued. -/
def execCvtBcast (t : Trig) (s : State) : Host.Outcome State Fault Refusal := issueOne opCvtBcast t s

/-- cvt0.scanAdd (R184). -/
def opCvtScanAdd : OpSpec :=
  laneOp unitCvt 20 2 fun _ x b => b.lanes.map fun l =>
    { lane := l, y := zext32 (scanAt x (x.sameHalf b.lanes l) l), y2 := 0, exc := 0, trap := false }

/-- ScanAdd is issued. -/
def execCvtScanAdd (t : Trig) (s : State) : Host.Outcome State Fault Refusal := issueOne opCvtScanAdd t s

/-- cvt0.redAddF32 (R185). -/
def opCvtRedAddF32 : OpSpec :=
  laneOp unitCvt 21 2 fun _ x b => b.lanes.map fun l =>
    let r := redSum x b.pre (x.sameHalf b.lanes l)
    { lane := l, y := BitVec.ofNat 64 r.bits, y2 := r.exc.setWidth 64, exc := r.exc,
      trap := meetsEnables (b.pre.lane l).nfr r.exc }

/-- RedAddF32 is issued. -/
def execCvtRedAddF32 (t : Trig) (s : State) : Host.Outcome State Fault Refusal := issueOne opCvtRedAddF32 t s

/-- The operations of cvt0, by opcode. -/
def cvtOps : List OpSpec :=
  [opCvtF32S32, opCvtF32U32, opCvtS32F32, opCvtU32F32, opCvtF16F32, opCvtF32F16,
    opCvtBf16F32, opCvtF32Bf16, opCvtF64F32, opCvtF32F64, opCvtF64S64, opCvtS64F64,
    opCvtZbpack8, opCvtZbunpack8, opCvtZbpack4, opCvtZbunpack4, opCvtRoundF32, opCvtXlaneIdx,
    opCvtXlaneXor, opCvtBcast, opCvtScanAdd, opCvtRedAddF32]

end Sys2Proof.Machine
end

