-- ==== Sys2Proof/Machine/CopyJobs.lean ====
section
/-! DEFINITION. Copy jobs as they run: their output units, codecs, streams, channels, and their end
(spec/06_copy_engine.md R242 to R254). -/

namespace Sys2Proof.Machine

/-- `n` addresses from `a`. -/
def addrsFrom (a n : Nat) : List Nat := (List.range n).map fun i => a + i

/-- Records that a unit of `n` bytes is under way; what it read is forgotten. -/
def unitDone (team : Nat) (b : Job) (n : Nat) (f : Job → Job) : Run Unit :=
  .modify fun s => s.modJob team b.id fun x => f { x with acc := n, fetch := .empty }

/-- The address of an operand: an offset in team store, or a global address. -/
def operandAddr (ts : Bool) (a : W64) : Nat := if ts then a.toNat % 2 ^ 19 else a.toNat

/-! ## Copies and fills (R242) -/

/-- Output bytes of the unit at the cursor, by their numbers. -/
def unitBytes (b : Job) : List Nat := addrsFrom (b.cursor * 512) (Nat.min 512 (b.total - b.cursor * 512))

/-- Source and destination of output byte `k` of a copy. -/
def copySrc (b : Job) (k : Nat) : Nat :=
  let a := operandAddr (modeSrcTs b.mode) b.a
  if b.opc = 1 then a + srcStride b.c * (k / rowBytes b.c) + k % rowBytes b.c else a + k
def copyDst (b : Job) (k : Nat) : Nat :=
  let a := operandAddr (modeDstTs b.mode) b.b
  if b.opc = 1 then a + dstStride b.c * (k / rowBytes b.c) + k % rowBytes b.c else a + k

/-- Do the source and destination regions of a copy overlap? (DESIGN CHOICE, notes/assumptions/21.md). -/
def copyOverlaps (b : Job) : Bool :=
  match b.regions, b.wregions with
  | r :: _, w :: _ => r.ts == w.ts && overlap r.first r.len w.first w.len
  | _, _ => false

/-- The bytes of a unit of an overlapping copy, by (source, destination, source byte as memory holds it), in order: where the job has
written the source, in an earlier unit (`old` keeps what stood there) or in this one (`own`), the old or the new value, freely
(notes/assumptions/21.md). -/
def chooseOld (old : FMap Byte) : FMap Byte → List (Nat × Nat × Byte) → Run (List Byte)
  | _, [] => .pure []
  | own, x :: r => fun s =>
    let new := own.getD x.1 x.2.2
    let was := old.getD x.1 x.2.2
    let c := if new = was then (false, s) else freeBool s
    let v := if c.1 then was else new
    ((chooseOld old (own.insert x.2.1 v) r).then fun l => .pure (v :: l)) c.2

/-- A unit of `copy` or `copy2d`. -/
def copyUnit (team : Nat) (b : Job) : Run Unit :=
  let ks := unitBytes b
  let srcTs := modeSrcTs b.mode
  let dst := ks.map (copyDst b)
  (jobRead team b srcTs (ks.map (copySrc b))).then fun bs =>
    if copyOverlaps b then
      (chooseOld b.old .empty ((ks.map (copySrc b)).zip (dst.zip bs))).then fun cs =>
        let hit := match b.regions with
          | r :: _ => dst.filter fun a => decide (r.first ≤ a) && decide (a < r.first + r.len) && !b.old.has a
          | [] => []
        (jobReadIf false team b srcTs hit).then fun was =>
          (jobWrite team b.core b.id (modeDstTs b.mode) (dst.zip cs)).then fun _ =>
            unitDone team b ks.length fun x =>
              { x with old := foldOver (fun (m : FMap Byte) (e : Nat × Byte) => m.insert e.1 e.2) x.old (hit.zip was) }
    else
      (jobWrite team b.core b.id (modeDstTs b.mode) (dst.zip bs)).then fun _ => unitDone team b ks.length id

/-- A unit of `fill`. -/
def fillUnit (team : Nat) (b : Job) : Run Unit :=
  let ks := unitBytes b
  let pat := wordBytes 8 b.a
  (jobWrite team b.core b.id (modeDstTs b.mode)
      (ks.map fun k => (operandAddr (modeDstTs b.mode) b.b + k, pat.getD (k % modeEsz b.mode) 0))).then fun _ =>
    unitDone team b ks.length id

/-! ## Gather and scatter (R243) -/

/-- An element of `gather` or `scatter`. -/
def indexUnit (team : Nat) (b : Job) : Run Unit :=
  let esz := modeEsz b.mode
  let n := idxBytes b.c
  (jobRead team b true (addrsFrom (idxList b.c + b.cursor * n) n)).then fun ib =>
    let idx := (wordOf ib).toNat
    if 2 ^ idxSpan b.c < esz * (idx + 1) then .stop .foot
    else
      let src := operandAddr (modeSrcTs b.mode) b.a + esz * (if b.opc = 2 then idx else b.cursor)
      let dst := operandAddr (modeDstTs b.mode) b.b + esz * (if b.opc = 2 then b.cursor else idx)
      (jobRead team b (modeSrcTs b.mode) (addrsFrom src esz)).then fun bs =>
        (jobWrite team b.core b.id (modeDstTs b.mode) ((addrsFrom dst esz).zip bs)).then fun _ => unitDone team b esz id

/-! ## Quantisation (R244) -/

/-- A block of 32 values quantised: element bytes, header byte, and how many were NaN, infinite or overflowed. -/
def quantBlock (t : Nat → Int) (single : Bool) (vals : List FVal) : List Byte × Byte × Nat :=
  let mags := (vals.filter fun v => !v.isNan).map FVal.mag
  let h := headerOf true single t (foldOver magMax (some (0, 0)) mags)
  let es := vals.map (packElem true t h.1 h.2)
  (es.map fun e => BitVec.ofNat 8 e.1, BitVec.ofNat 8 (h.2 * 16 + h.1),
    (es.filter fun e => e.2 &&& (excInvalid ||| excOverflow) != 0).length)

/-- The 32-bit words of bytes. -/
def words32 (bs : List Byte) (n : Nat) : List Nat := (List.range n).map fun i => natOfBytes ((bs.drop (4 * i)).take 4)

/-- A block of `quant.zb8`. -/
def quantUnit (team : Nat) (b : Job) : Run Unit :=
  let count := bitsOf b.c 31 0
  let i := b.cursor
  let dst := operandAddr (modeDstTs b.mode) b.b
  (jobRead team b (modeSrcTs b.mode) (addrsFrom (operandAddr (modeSrcTs b.mode) b.a + 128 * i) 128)).then fun bs =>
    let q := quantBlock (fun k => (b.held.getD k 0).toInt) (bitOf b.c 34) ((words32 bs 32).map (unpack f32 false))
    (jobWrite team b.core b.id (modeDstTs b.mode)
        ((addrsFrom (dst + 32 * i) 32).zip q.1 ++ [(dst + count + i, q.2.1)])).then fun _ =>
      unitDone team b 33 fun x => { x with pos2 := x.pos2 + q.2.2 }

/-! ## The zero-run codec (R245) -/

/-- The chunks of 32 bytes, `n` of them. -/
def chunksOf (bs : List Byte) (n : Nat) : List (List Byte) := (List.range n).map fun i => (bs.drop (32 * i)).take 32

/-- Is a chunk zero? -/
def chunkZero (c : List Byte) : Bool := c.all (· == 0)

/-- The chunks at the front that are of the first one's kind. -/
def runOf (cs : List (List Byte)) : List (List Byte) :=
  match cs with
  | [] => []
  | c :: _ => cs.takeWhile fun d => chunkZero d == chunkZero c

/-- The token of a run of 1 to 128 chunks of one kind. -/
def tokenOf (run : List (List Byte)) : List Byte :=
  match run with
  | [] => []
  | c :: _ =>
    if chunkZero c then [BitVec.ofNat 8 (run.length - 1)] else BitVec.ofNat 8 (128 + run.length - 1) :: run.flatten

/-- Encodes tokens until 512 bytes are held or the input ends: input position and coded bytes. -/
def packTokens (team : Nat) (b : Job) : Nat → Nat → List Byte → Run (Nat × List Byte)
  | 0, pos, out => .pure (pos, out)
  | n + 1, pos, out =>
    let len := bitsOf b.c 39 0
    if 512 ≤ out.length ∨ len ≤ pos then .pure (pos, out)
    else
      let m := Nat.min 4096 (len - pos)
      (jobRead team b (modeSrcTs b.mode) (addrsFrom (operandAddr (modeSrcTs b.mode) b.a + pos) m)).then fun bs =>
        let run := runOf (chunksOf bs (m / 32))
        packTokens team b n (pos + 32 * run.length) (out ++ tokenOf run)

/-- A unit of `zrl.pack`. -/
def packUnit (team : Nat) (b : Job) : Run Unit :=
  (packTokens team b 512 b.pos b.held).then fun r =>
    let out := r.2.take 512
    let dst := operandAddr (modeDstTs b.mode) b.b + 512 * b.cursor
    (jobWrite team b.core b.id (modeDstTs b.mode) ((addrsFrom dst out.length).zip out)).then fun _ =>
      unitDone team b out.length fun x => { x with pos := r.1, held := r.2.drop 512 }

/-- A token of `zrl.unpack`. -/
def unpackUnit (team : Nat) (b : Job) : Run Unit :=
  let len := bitsOf b.c 39 0
  let input := len + blocks4k len
  let src := operandAddr (modeSrcTs b.mode) b.a + b.pos
  let dst := operandAddr (modeDstTs b.mode) b.b + b.written
  if input ≤ b.pos then .stop .corrupt
  else
    (jobRead team b (modeSrcTs b.mode) [src]).then fun tk =>
      let v := (tk.getD 0 0).toNat
      let n := 32 * (v % 128 + 1)
      if len < b.written + n ∨ (128 ≤ v ∧ input < b.pos + 1 + n) then .stop .corrupt
      else
        (if 128 ≤ v then jobRead team b (modeSrcTs b.mode) (addrsFrom (src + 1) n)
          else .pure (List.replicate n 0)).then fun bs =>
          (jobWrite team b.core b.id (modeDstTs b.mode) ((addrsFrom dst n).zip bs)).then fun _ =>
            unitDone team b n fun x => { x with pos := x.pos + 1 + if 128 ≤ v then n else 0 }

/-! ## Objects (R250) -/

/-- `bar.init` writes the whole object and tests the waiters; `bar.expect` adds to PEND. -/
def objectUnit (team : Nat) (b : Job) : Run Unit :=
  let done := fun (x : Job) => { x with ending := true }
  if b.opc = 10 then
    objectUpdate team b b.a.toNat
      (fun s p _ => some ([b.b, 0, waiterBits s (waitersLeft s p 0), 0, 0, 0, 0, 0], true)) (fun _ => done)
  else
    objectUpdate team b b.a.toNat
      (fun _ _ ws => if 2 ^ 64 ≤ (ws.getD 0 0).toNat + b.b.toNat then none else some ([ws.getD 0 0 + b.b, ws.getD 1 0], false))
      (fun ws x =>
        if 2 ^ 64 ≤ (ws.getD 0 0).toNat + b.b.toNat then done { x with pos2 := (ws.getD 0 0).toNat, status := 5 }
        else done { x with pos2 := (ws.getD 0 0).toNat + b.b.toNat })

/-! ## The beginning of a job (R58, R59) -/

/-- Is no byte to be written: the job completes at once and counts nothing (R242)? -/
def Job.isEmpty (b : Job) : Bool := decide (b.opc ≤ 8) && b.total == 0

/-- The reference of the warp that submitted a job. -/
def jobWarp (team : Nat) (b : Job) : WRef := { team := team, warp := b.warp }

/-- The object of a channel job. -/
def chanObject (b : Job) : Nat := if b.opc = 13 then b.b.toNat else b.a.toNat

/-- Do the words of a channel object hold values outside their ranges (R251)? -/
def chanBad (w0 w1 : W64) : Bool :=
  bitsOf w0 63 57 != 0 || bitsOf w0 56 0 % 512 != 0 || bitsOf w1 63 32 == 0 || decide (2 ^ 20 < bitsOf w1 63 32) ||
    bitsOf w1 31 0 % 32 != 0 || bitsOf w1 31 0 == 0 || decide (65536 < bitsOf w1 31 0)

/-- The ring of a channel. -/
def chanRing (w0 w1 : W64) : Region := { ts := false, first := bitsOf w0 56 0, len := bitsOf w1 63 32 * (bitsOf w1 31 0 + 32) }

/-- A channel job with its position and regions. -/
def Job.placed (b : Job) (w0 w1 pos : W64) : Job :=
  let msz := bitsOf w1 31 0
  let data := regionOf false (if b.opc = 13 then b.a else b.b) msz
  let ring := chanRing w0 w1
  { b with
    begun := true, total := msz, pos := pos.toNat, at_ := 0,
    regions := if b.opc = 13 then [data] else [ring], wregions := if b.opc = 13 then [ring] else [data] }

/-- A channel that nothing has used. -/
def Chan.start : Chan := { sent := .empty, doneTo := 0, done := [], abandoned := [] }

/-- The device's record of a job's channel. -/
def chanOf (s : State) (team : Nat) (b : Job) : Chan :=
  match s.context? (s.ctxOf team) with
  | some c => c.chans.getD (chanObject b) .start
  | none => .start

/-- Changes the record. -/
def modChan (s : State) (team : Nat) (b : Job) (f : Chan → Chan) : State :=
  s.modCtx (s.ctxOf team) fun c => { c with chans := c.chans.modifyD (chanObject b) .start f }

/-- A channel job takes its position at the object's home, or ends with CHAN-BAD (R251). Words 4 to 7 are the device's:
free values (DEDUCED, notes/assumptions/30.md). -/
def takePosition (team : Nat) (b : Job) (s : State) : State :=
  let f := foldOver (fun (r : List W64 × State) (_ : Nat) => let v := freeWord r.2; (r.1 ++ [v.1], v.2)) ([], s) (List.range 4)
  let k := if b.opc = 13 then 2 else 3
  runJob team b.id
    (objectUpdate team b (chanObject b)
      (fun _ _ ws => if chanBad (ws.getD 0 0) (ws.getD 1 0) then none
        else some ((modifyAt (· + 1) k (ws.take 4)) ++ f.1, false))
      (fun ws x =>
        if chanBad (ws.getD 0 0) (ws.getD 1 0) then { x with begun := true, ending := true, status := 7 }
        else { x.placed (ws.getD 0 0) (ws.getD 1 0) (ws.getD k 0) with pos2 := if ws.getD 2 0 = 0 ∧ ws.getD 3 0 = 0 then 1 else 0 }))
    f.2

/-- A job whose position is the first that its object gives: the program has set up the channel anew, and nothing is left of what the
device kept of it (R251). -/
def freshChannel (team id : Nat) (s : State) : State :=
  match (s.team? team).bind fun t => t.job? id with
  | some j => if j.begun ∧ j.pos2 = 1 then (modChan s team j fun _ => .start).modJob team id fun x => { x with pos2 := 0 } else s
  | none => s

/-- Must a channel job wait for its position: an earlier job of the core on the channel, of the same kind, has none? -/
def positionBlocked (s : State) (team : Nat) (b : Job) : Bool :=
  (coreJobs s b.core).any fun e =>
    decide (e.2.id < b.id) && e.2.isChan && e.2.opc == b.opc && !e.2.begun && !e.2.ending && s.ctxOf e.1 == s.ctxOf team &&
      chanObject e.2 == chanObject b

/-- A copy job begins, if nothing holds it. -/
def copyBegin (team : Nat) (b : Job) (s : State) : State :=
  if b.begun ∨ b.ending ∨ b.stage ≠ .go ∨ ¬ teamHere s team ∨ ¬ warpClear s team b then s
  else if b.isChan then (if positionBlocked s team b then s else freshChannel team b.id (takePosition team b s))
  else if ¬ edgesClear s team b then s
  else if (b.opc = 10 ∨ b.opc = 11) ∧ ¬ fenceReady s (jobWarp team b) b.trig 3 then s
  else s.modJob team b.id fun x =>
    if x.isEmpty then { x with begun := true, ending := true, bar := 0 } else { x with begun := true }

/-! ## The cursor (R254) -/

/-- Has a job written everything, as its cursor stands? -/
def copyAll (b : Job) : Bool :=
  if b.opc = 6 then decide (bitsOf b.c 39 0 ≤ b.pos) && b.held.isEmpty else decide (b.total ≤ b.written)

/-- The unit under way has performed: the cursor passes it. -/
def Job.passUnit (b : Job) : Job :=
  let x := { b with cursor := b.cursor + 1, written := b.written + b.acc, acc := 0 }
  if x.cancel then { x with ending := true, status := 1 }
  else if copyAll x then { x with ending := true }
  else x

/-- The next unit of a job that is neither a stream nor a message. -/
def copyStep (team : Nat) (b : Job) : Run Unit :=
  if b.opc ≤ 1 then copyUnit team b
  else if b.opc = 2 ∨ b.opc = 3 then indexUnit team b
  else if b.opc = 4 then fillUnit team b
  else if b.opc = 5 then quantUnit team b
  else if b.opc = 6 then packUnit team b
  else if b.opc = 7 then unpackUnit team b
  else if b.opc = 10 ∨ b.opc = 11 then objectUnit team b
  else .pure ()

/-- A job passes its cursor over a unit that has performed, or performs its next unit. -/
def advanceCopy (team : Nat) (b : Job) (s : State) : State :=
  if b.unit ≠ unitCp ∨ ¬ b.begun ∨ b.ending then s
  else if b.acc ≠ 0 then (if jobSettled s team b.id then (countEvent s b.core 0x0A).modJob team b.id Job.passUnit else s)
  else if b.stage ≠ .go ∨ ¬ teamHere s team then s
  else runJob team b.id (copyStep team b) s

/-- COPY_CURSOR_ADVANCE (R254). -/
def execCopyCursorAdvance (s : State) : Host.Outcome State Fault Refusal := onJob advanceCopy s

/-! ## Streams (R246 to R249) -/

/-- The binding of a stream job in its warp, if it is still bound. -/
def boundStream (s : State) (team : Nat) (b : Job) : Option (Nat × Stream) :=
  match s.warp? (jobWarp team b) with
  | none => none
  | some x => firstWhere (fun (e : Nat × Stream) => e.2.job == b.id) x.streams.entries

/-- May row `r` be written: its ring row is free (R248)? -/
def rowFree (s : State) (team : Nat) (b : Job) (r : Nat) : Bool :=
  let n := ringRows b.b
  decide (r < n) ||
    match boundStream s team b, s.warp? (jobWarp team b) with
    | some st, some x => x.liveLanes.all fun l => decide (r - n < st.2.reads.getD l 0)
    | _, _ => true

/-- Changes the binding of a stream job. -/
def modStream (team : Nat) (b : Job) (f : Stream → Stream) (s : State) : State :=
  match boundStream s team b with
  | some e => s.modWarp (jobWarp team b) fun x => { x with streams := x.streams.modify e.1 f }
  | none => s

/-- A row of a stream goes into the ring. -/
def rowUnit (team : Nat) (b : Job) : Run Unit :=
  let esz := modeEsz b.mode
  let r := b.cursor
  let n := (Nat.min 64 (bitsOf b.c 31 0 - 64 * r)) * esz
  let src := operandAddr (modeSrcTs b.mode) b.a + 64 * r * esz
  let dst := bitsOf b.b 18 0 + r % ringRows b.b * 64 * esz
  (jobRead team b (modeSrcTs b.mode) (addrsFrom src n)).then fun bs =>
    (jobWrite team b.core b.id true ((addrsFrom dst n).zip bs)).then fun _ =>
      (Run.modify (modStream team b fun st => { st with written := r + 1 })).then fun _ => unitDone team b n id

/-- A stream job writes its next row, if the ring row is free. -/
def streamStep (team : Nat) (b : Job) (s : State) : State :=
  if b.unit ≠ unitCp ∨ b.opc ≠ 8 ∨ ¬ b.begun ∨ b.ending ∨ b.acc ≠ 0 ∨ b.stage ≠ .go ∨ ¬ teamHere s team ∨
      ¬ rowFree s team b b.cursor then s
  else runJob team b.id (rowUnit team b) s

/-- STREAM_ROW_WRITE (R246 to R248). -/
def execStreamRowWrite (s : State) : Host.Outcome State Fault Refusal := onJob streamStep s

/-! ## Channels (R251) -/

/-- Positions finished in a row from `n` on. -/
def runDone (done : List Nat) (n : Nat) : Nat → Nat
  | 0 => n
  | k + 1 => if done.contains n then runDone done (n + 1) k else n

/-- A receive has finished with position `p`. -/
def Chan.finish (c : Chan) (p : Nat) : Chan :=
  let d := p :: c.done
  let n := runDone d c.doneTo d.length
  { c with sent := c.sent.erase p, doneTo := n, done := d.filter fun q => decide (n ≤ q) }

/-- Has a receive finished with position `p`? -/
def Chan.isDone (c : Chan) (p : Nat) : Bool := decide (p < c.doneTo) || c.done.contains p

/-- Slots and message bytes of a channel job, from its ring region. -/
def chanRegion (b : Job) : Region := ((if b.opc = 13 then b.wregions else b.regions).head?).getD { ts := false, first := 0, len := 0 }
def chanSlots (b : Job) : Nat := (chanRegion b).len / (b.total + 32)

/-- First byte of the ring slot of a position. -/
def slotAddr (b : Job) : Nat := (chanRegion b).first + b.pos % chanSlots b * (b.total + 32)

/-- Is the ring slot of a position free: every earlier position of the slot is finished? -/
def slotFree (c : Chan) (b : Job) : Bool :=
  (List.range (b.pos / chanSlots b)).all fun k => c.isDone (b.pos - chanSlots b * (k + 1))

/-- Earlier incomplete jobs of the core and address space. -/
def jobsBefore (s : State) (team : Nat) (b : Job) : List (Nat × Job) :=
  (coreJobs s b.core).filter fun e => decide (e.2.id < b.id) && s.ctxOf e.1 == s.ctxOf team

/-- Is a region clear of earlier jobs' writes, and where it is written also of their reads? -/
def regionClear (s : State) (team : Nat) (b : Job) (r : List Region) (wr : Bool) : Bool :=
  (jobsBefore s team b).all fun e =>
    !(regionsMeet false r e.2.wregions || (wr && regionsMeet false r e.2.regions) || (e.2.isChan && !e.2.begun))

/-- An overflow block of a context that no message holds. -/
def freeBlock (s : State) (ctx : Nat) : Option Nat :=
  let used := match s.context? ctx with
    | some c => c.chans.vals.flatMap fun (k : Chan) => k.sent.vals.filterMap id
    | none => []
  firstWhere (fun k => !used.contains k) (List.range (bitsOf (s.cfgWord ctx 5) 11 0))

/-- First byte of an overflow block, a device address (spec/13_loader.md R480). -/
def blockAddr (s : State) (ctx k : Nat) : Nat := bitsOf (s.cfgWord ctx 5) 63 12 * 2 ^ 12 + 65536 * k

/-- A message goes to an overflow block; while there is none the send waits 1,024 clk, and the exhaustion is counted. -/
def sendOverflow (team : Nat) (b : Job) : Run Unit := fun s =>
  let ctx := s.ctxOf team
  match freeBlock s ctx with
  | none =>
    (.ok (), (s.modJob team b.id fun x => { x with at_ := s.clk + 1024 }).modCtx ctx fun c => { c with chanFull := c.chanFull + 1 })
  | some k =>
    ((jobRead team b false (addrsFrom b.a.toNat b.total)).then fun bs =>
      (Run.modify fun s => writeAtHome s none b.core b.id 0 0 s.mem.epoch (atAddr (blockAddr s ctx k) bs)).then fun _ =>
        (Run.modify fun s => modChan s team b fun c => { c with sent := c.sent.insert b.pos (some k) }).then fun _ =>
          unitDone team b b.total id) s

/-- A message goes into its ring slot behind the device's header, whose bytes are free values. -/
def sendRing (team : Nat) (b : Job) : Run Unit := fun s =>
  let f := foldOver (fun (r : List Byte × State) (_ : Nat) => let v := freeWord r.2; (r.1 ++ wordBytes 8 v.1, v.2)) ([], s) (List.range 4)
  ((jobRead team b false (addrsFrom b.a.toNat b.total)).then fun bs =>
    (jobWrite team b.core b.id false ((addrsFrom (slotAddr b) (b.total + 32)).zip (f.1 ++ bs))).then fun _ =>
      (Run.modify fun s => modChan s team b fun c => { c with sent := c.sent.insert b.pos none }).then fun _ =>
        unitDone team b b.total id) f.2

/-- `chan.send` with its position. A message whose receive was cancelled is discarded; a slot that an earlier receive of
the core still covers is passed by for an overflow block (notes/assumptions/30.md). -/
def sendStep (team : Nat) (b : Job) (s : State) : State :=
  let c := chanOf s team b
  let ring := [chanRegion b]
  let before := jobsBefore s team b
  if b.at_ ≠ 0 ∨ ¬ regionClear s team b b.regions false then s
  else if c.abandoned.contains b.pos then
    (modChan s team b fun c => { c.finish b.pos with abandoned := c.abandoned.filter (· != b.pos) }).modJob team b.id fun x =>
      { x with written := x.total, ending := true }
  else if ¬ slotFree c b ∨ before.any fun e => e.2.isChan && e.2.opc == 14 && regionsMeet false ring e.2.regions then
    runJob team b.id (sendOverflow team b) s
  else if before.any fun e => regionsMeet false ring (e.2.wregions ++ e.2.regions) then s
  else runJob team b.id (sendRing team b) s

/-- Is the message of a position still being written? -/
def sendOpen (s : State) (team : Nat) (b : Job) : Bool :=
  s.teams.vals.any fun t => t.ctx == s.ctxOf team && t.jobs.any fun j =>
    j.isChan && j.opc == 13 && j.begun && j.pos == b.pos && j.acc != 0 && chanObject j == chanObject b

/-- `chan.recv` with its position. -/
def recvStep (team : Nat) (b : Job) (s : State) : State :=
  match (chanOf s team b).sent.find? b.pos with
  | none => s
  | some blk =>
    if sendOpen s team b ∨ ¬ regionClear s team b b.wregions true then s
    else if blk.isNone ∧ ¬ regionClear s team b b.regions false then s
    else
      let source : Run (List Byte) := match blk with
        | none => jobRead team b false (addrsFrom (slotAddr b + 32) b.total)
        | some k => fun s =>
          (.ok ((List.range b.total).map fun i => missByte s b.core 0 0 (blockAddr s (s.ctxOf team) k + i)), s)
      runJob team b.id
        (source.then fun bs =>
          (jobWrite team b.core b.id false ((addrsFrom b.b.toNat b.total).zip bs)).then fun _ =>
            (Run.modify fun s => modChan s team b fun c => c.finish b.pos).then fun _ => unitDone team b b.total id)
        s

/-- CHAN_MESSAGE_DELIVERY (R251): the message of the subject's job is written, or received. -/
def chanStep (team : Nat) (b : Job) (s : State) : State :=
  if ¬ b.isChan ∨ ¬ b.begun ∨ b.ending ∨ b.acc ≠ 0 ∨ b.stage ≠ .go ∨ ¬ teamHere s team then s
  else if b.opc = 13 then sendStep team b s
  else recvStep team b s

/-- CHAN_MESSAGE_DELIVERY (R251). -/
def execChanMessageDelivery (s : State) : Host.Outcome State Fault Refusal := onJob chanStep s

/-- CHAN_POOL_RETRY (R251): a send that found the pool empty tries again, 1,024 clk later (DEDUCED, notes/assumptions/91.md). -/
def execChanPoolRetry (s : State) : Host.Outcome State Fault Refusal :=
  onJob
    (fun team b s =>
      if b.isChan ∧ b.begun ∧ b.at_ ≠ 0 ∧ b.at_ ≤ s.clk then
        pushTurns (s.modJob team b.id fun x => { x with at_ := 0 }) [.event .chanMessageDelivery (.pair team b.id)]
      else s)
    s

/-! ## The end of a job (R240, R252, R253) -/

/-- .y of a completed job (R240). -/
def copyY (b : Job) : W64 :=
  if b.opc = 5 then BitVec.ofNat 64 (b.pos2 % 2 ^ 32 * 2 ^ 32 + b.written % 2 ^ 32)
  else if b.opc = 10 then 0
  else if b.opc = 11 then BitVec.ofNat 64 b.pos2
  else if b.isChan ∧ b.status = 0 then BitVec.ofNat 64 b.pos
  else BitVec.ofNat 64 b.written

/-- A job fills its lane's ports; what it wrote is then seen by the warp: an acquire at device scope (R60). -/
def fillJob (team : Nat) (b : Job) (y : W64) (s : State) : State :=
  let w := jobWarp team b
  let s1 := foldOver
    (fun s l =>
      if b.tag = 0 then fillVal s w b.unit b.trig l y (BitVec.ofNat 64 b.status) else fillTag s w b.unit b.trig l b.tag)
    s (lanesOf b.lanes)
  (acquireDiscards s1 b.core 3).modWarp w fun x => x.noteRead s1.nextId

/-- A receive that took a position and got no message abandons it (R251). -/
def abandonPos (team : Nat) (b : Job) (s : State) : State :=
  if b.isChan ∧ b.opc = 14 ∧ b.begun ∧ b.status ≠ 7 ∧ b.written = 0 ∧ b.acc = 0 then
    modChan s team b fun c =>
      if c.sent.has b.pos then c.finish b.pos else { c with abandoned := b.pos :: c.abandoned }
  else s

/-- Fills the lanes of `stream.close` and `cancel` whose jobs have all stopped (R249, R252). -/
def answerStops (team : Nat) (s : State) : State :=
  match s.team? team with
  | none => s
  | some t =>
    foldOver
      (fun s (w : WRef) => match s.warp? w with
        | none => s
        | some x => foldOver
          (fun s (oi : Op × Item) =>
            finishWith s w oi.1 oi.2.lane (if oi.1.opc = 15 then BitVec.ofNat 64 oi.2.extra.length else 0) 0)
          s (x.ops.flatMap fun o =>
              if o.unit = unitCp ∧ (o.opc = 9 ∨ o.opc = 15) then
                (o.items.filter fun i => i.extra.all fun j => (t.job? j).isNone).map fun i => (o, i)
              else []))
      s (t.refs team)

/-- May a job leave: its end is reached, its writes are performed, and its object has counted them? -/
def jobMayLeave (s : State) (team : Nat) (b : Job) : Bool :=
  b.ending && jobSettled s team b.id && (b.bar == 0 || b.final)

/-- Takes a job out of its team. -/
def dropJob (s : State) (team j : Nat) : State :=
  s.modTeam team fun t => { t with jobs := t.jobs.filter fun x => x.id != j }

/-- A stream whose job ends on a fault: its later rows are tagged (R253). -/
def failStream (team : Nat) (b : Job) (s : State) : State :=
  if b.opc = 8 ∧ b.tag ≠ 0 then modStream team b (fun st => { st with failed := some (b.cursor, b.tag) }) s else s

/-- The end of a copy job. -/
def copyComplete (team : Nat) (b : Job) (s : State) : State :=
  if b.unit ≠ unitCp ∨ ¬ jobMayLeave s team b then s
  else
    let s1 := fillJob team b (copyY b) (failStream team b (abandonPos team b s))
    answerStops team (dropJob s1 team b.id)

/-- COPY_JOB_COMPLETE (R60, R240, R252). -/
def execCopyJobComplete (s : State) : Host.Outcome State Fault Refusal := onJob copyComplete s

/-- `poll` answers for its lanes, 4 clk after its commit (R252). -/
def pollPerform (w : WRef) (o : Op) (s : State) : State :=
  if s.clk < o.clk + 4 then s
  else
    foldOver
      (fun s (i : Item) =>
        let n := match s.team? w.team with
          | some t => (taggedJobs t o.id i.a).length
          | none => 0
        let s1 := finishWith s w o i.lane (BitVec.ofNat 64 n) 0
        if n = 0 then (acquireDiscards s1 (s.coreOf w.team) 3).modWarp w fun x => x.noteRead s1.nextId else s1)
      s o.items

end Sys2Proof.Machine
end

