-- ==== Sys2Proof/Machine/FmaUnit.lean ====
section
/-! DEFINITION. fma0 and fma1 (spec/04_lane_units.md R160, R171 to R173), and the power grant of their triggers
(spec/10_team_scheduler.md R376 to R378). -/

namespace Sys2Proof.Machine

/-- A packed operation: each half on its own, the exceptions of both in one set (R171). -/
def packed (f : Nat → Nat → Nat → FRes) (a b c : W64) : FRes :=
  let lo := f (bitsOf a 15 0) (bitsOf b 15 0) (bitsOf c 15 0)
  let hi := f (bitsOf a 31 16) (bitsOf b 31 16) (bitsOf c 31 16)
  { bits := lo.bits + hi.bits * 2 ^ 16, exc := lo.exc ||| hi.exc }

/-- Two f16 products and an f32 addend, rounded once (R171) (DEDUCED, notes/assumptions/34.md). -/
def dot2Bits (v : FEnv) (a b c : Nat) : FRes :=
  let half := fun (x i : Nat) => unpack f16 v.fz16 (x / 2 ^ (16 * i) % 2 ^ 16)
  let z := unpack f32 v.fz32 c
  addTerms f32 v [half a 0, half a 1, half b 0, half b 1, z]
    [prodTerm (half a 0) (half b 0), prodTerm (half a 1) (half b 1), plainTerm z]

/-- The clamp of fma.sat.f32 to [0, 1]; it adds no exception (R171, R173). -/
def clampUnit (r : FRes) : FRes :=
  match unpack f32 false r.bits with
  | .nan _ _ _ => { r with bits := 0 }
  | .inf n => { r with bits := if n then 0 else 0x3F800000 }
  | .fin n m _ => { r with bits := if n || m == 0 then 0 else if 0x3F800000 < r.bits then 0x3F800000 else r.bits }

/-- The grant of a core: the least GRANT of the launches with a resident team on it, 8 for none (R376). -/
def grantOf (s : State) (core : Nat) : Nat :=
  let gs := s.teams.entries.filterMap fun e =>
    if e.2.core = core ∧ e.2.status ≠ .saved then
      match s.ldr.launches.find? e.2.launch with
      | some l => some (if l.grant = 0 then (s.func (s.funcOf l.ctx)).defGrant else l.grant)
      | none => none
    else none
  minOf gs 8

/-- The active FMA pairs of a core (R377). -/
def activePairs (k : Core) : Nat := (k.quads.vals.filter fun q => q.pairActive).length

/-- The active quarter-planes of a core in a clk (R377). -/
def Core.activeQuarters (k : Core) (clk : Nat) : Nat := if clk < k.mxBusy then k.mxQ else 0

/-- May an fma trigger of a quad commit under the core's grant (R378)? -/
def grantOk (s : State) (core quad : Nat) : Bool :=
  let k := s.core core
  (k.quad quad).pairActive ||
    (decide (activePairs k + k.activeQuarters s.clk < grantOf s core) && !k.arrayFirst)

/-- Is an opcode of an fma unit a binary64 one (R160)? -/
def fmaWide (opc : Nat) : Bool := opc == 10 || opc == 11 || opc == 12 || opc == 15 || opc == 16

/-- The latency of an opcode of an fma unit (R171). -/
def fmaLatency (opc : Nat) : Nat := if fmaWide opc then 8 else 4

/-- Does an fma unit accept a trigger: the f64 path of its logical unit free, results in trigger order, the grant (R160, R378) (DEDUCED,
notes/assumptions/93.md)? -/
def fmaAccept (u : Fin 2) (opc : Nat) (s : State) (t : Team) (x : Warp) (_ : List Nat) : Bool :=
  let q := (s.core t.core).quad x.quad
  (!fmaWide opc || decide (q.f64Free.getD u 0 ≤ s.clk)) &&
    (x.fills.all fun f => f.unit != unitFma u || decide (f.due < s.clk + fmaLatency opc)) &&
    grantOk s t.core x.quad

/-- Starts an operation of an fma unit: the pair is active, an f64 operation takes the f64 path for 4 clk. -/
def startFma (u : Fin 2) (opc : Nat) (f : FEnv → W64 → W64 → W64 → FRes) (s : State) (b : Begin) : State :=
  let lat := fmaLatency opc
  let s1 := startFill (unitFma u) opc lat (fun _ x b => b.lanes.map (floatRes x (unitFma u) f b.pre)) s b
  s1.modQuad (s.coreOf b.w.team) b.pre.quad fun q =>
    { q with
      f64Free := if fmaWide opc then modifyAt (fun _ => s.clk + 4) u q.f64Free else q.f64Free
      pairActive := true
      pairUntil := Nat.max q.pairUntil (s.clk + lat + 16) }

/-- An operation of fma0 or fma1 (R171). -/
def fmaOp (u : Fin 2) (opc : Nat) (f : FEnv → W64 → W64 → W64 → FRes) : OpSpec :=
  { laneOp (unitFma u) opc 0 (fun _ _ _ => []) with accept := fmaAccept u opc, start := startFma u opc f }

/-- fma.fma.f32 (R171). -/
def opFmaF32 (u : Fin 2) : OpSpec := fmaOp u 0 fun v a b c => fmaBits f32 v (u32 a) (u32 b) (u32 c)

/-- fma.f32 is issued. -/
def execFmaF32 (u : Fin 2) (t : Trig) (s : State) : Host.Outcome State Fault Refusal := issueOne (opFmaF32 u) t s

/-- fma.add.f32 (R171). -/
def opAddF32 (u : Fin 2) : OpSpec := fmaOp u 1 fun v a b _ => addBits f32 v (u32 a) (u32 b)

/-- add.f32 is issued. -/
def execAddF32 (u : Fin 2) (t : Trig) (s : State) : Host.Outcome State Fault Refusal := issueOne (opAddF32 u) t s

/-- fma.mul.f32 (R171). -/
def opMulF32 (u : Fin 2) : OpSpec := fmaOp u 2 fun v a b _ => mulBits f32 v (u32 a) (u32 b)

/-- mul.f32 is issued. -/
def execMulF32 (u : Fin 2) (t : Trig) (s : State) : Host.Outcome State Fault Refusal := issueOne (opMulF32 u) t s

/-- fma.sub.f32 (R171). -/
def opSubF32 (u : Fin 2) : OpSpec := fmaOp u 3 fun v a b _ => subBits f32 v (u32 a) (u32 b)

/-- sub.f32 is issued. -/
def execSubF32 (u : Fin 2) (t : Trig) (s : State) : Host.Outcome State Fault Refusal := issueOne (opSubF32 u) t s

/-- fma.min.f32 (R171). -/
def opMinF32 (u : Fin 2) : OpSpec := fmaOp u 4 fun v a b _ => minMaxBits f32 v false (u32 a) (u32 b)

/-- min.f32 is issued. -/
def execMinF32 (u : Fin 2) (t : Trig) (s : State) : Host.Outcome State Fault Refusal := issueOne (opMinF32 u) t s

/-- fma.max.f32 (R171). -/
def opMaxF32 (u : Fin 2) : OpSpec := fmaOp u 5 fun v a b _ => minMaxBits f32 v true (u32 a) (u32 b)

/-- max.f32 is issued. -/
def execMaxF32 (u : Fin 2) (t : Trig) (s : State) : Host.Outcome State Fault Refusal := issueOne (opMaxF32 u) t s

/-- fma.fma.f16x2 (R171). -/
def opFmaF16x2 (u : Fin 2) : OpSpec := fmaOp u 6 fun v a b c => packed (fmaBits f16 v) a b c

/-- fma.f16x2 is issued. -/
def execFmaF16x2 (u : Fin 2) (t : Trig) (s : State) : Host.Outcome State Fault Refusal := issueOne (opFmaF16x2 u) t s

/-- fma.add.f16x2 (R171). -/
def opAddF16x2 (u : Fin 2) : OpSpec := fmaOp u 7 fun v a b _ => packed (fun a b _ => addBits f16 v a b) a b 0

/-- add.f16x2 is issued. -/
def execAddF16x2 (u : Fin 2) (t : Trig) (s : State) : Host.Outcome State Fault Refusal := issueOne (opAddF16x2 u) t s

/-- fma.mul.f16x2 (R171). -/
def opMulF16x2 (u : Fin 2) : OpSpec := fmaOp u 8 fun v a b _ => packed (fun a b _ => mulBits f16 v a b) a b 0

/-- mul.f16x2 is issued. -/
def execMulF16x2 (u : Fin 2) (t : Trig) (s : State) : Host.Outcome State Fault Refusal := issueOne (opMulF16x2 u) t s

/-- fma.fma.bf16x2 (R171). -/
def opFmaBf16x2 (u : Fin 2) : OpSpec := fmaOp u 9 fun v a b c => packed (fmaBits bf16 v) a b c

/-- fma.bf16x2 is issued. -/
def execFmaBf16x2 (u : Fin 2) (t : Trig) (s : State) : Host.Outcome State Fault Refusal :=
  issueOne (opFmaBf16x2 u) t s

/-- fma.fma.f64 (R171). -/
def opFmaF64 (u : Fin 2) : OpSpec := fmaOp u 10 fun v a b c => fmaBits f64 v a.toNat b.toNat c.toNat

/-- fma.f64 is issued. -/
def execFmaF64 (u : Fin 2) (t : Trig) (s : State) : Host.Outcome State Fault Refusal := issueOne (opFmaF64 u) t s

/-- fma.add.f64 (R171). -/
def opAddF64 (u : Fin 2) : OpSpec := fmaOp u 11 fun v a b _ => addBits f64 v a.toNat b.toNat

/-- add.f64 is issued. -/
def execAddF64 (u : Fin 2) (t : Trig) (s : State) : Host.Outcome State Fault Refusal := issueOne (opAddF64 u) t s

/-- fma.mul.f64 (R171). -/
def opMulF64 (u : Fin 2) : OpSpec := fmaOp u 12 fun v a b _ => mulBits f64 v a.toNat b.toNat

/-- mul.f64 is issued. -/
def execMulF64 (u : Fin 2) (t : Trig) (s : State) : Host.Outcome State Fault Refusal := issueOne (opMulF64 u) t s

/-- fma.dot2.f16.f32 (R171). -/
def opDot2F16F32 (u : Fin 2) : OpSpec := fmaOp u 13 fun v a b c => dot2Bits v (u32 a) (u32 b) (u32 c)

/-- dot2.f16.f32 is issued. -/
def execDot2F16F32 (u : Fin 2) (t : Trig) (s : State) : Host.Outcome State Fault Refusal :=
  issueOne (opDot2F16F32 u) t s

/-- fma.fma.sat.f32 (R171). -/
def opFmaSatF32 (u : Fin 2) : OpSpec := fmaOp u 14 fun v a b c => clampUnit (fmaBits f32 v (u32 a) (u32 b) (u32 c))

/-- fma.sat.f32 is issued. -/
def execFmaSatF32 (u : Fin 2) (t : Trig) (s : State) : Host.Outcome State Fault Refusal :=
  issueOne (opFmaSatF32 u) t s

/-- fma.min.f64 (R171). -/
def opMinF64 (u : Fin 2) : OpSpec := fmaOp u 15 fun v a b _ => minMaxBits f64 v false a.toNat b.toNat

/-- min.f64 is issued. -/
def execMinF64 (u : Fin 2) (t : Trig) (s : State) : Host.Outcome State Fault Refusal := issueOne (opMinF64 u) t s

/-- fma.max.f64 (R171). -/
def opMaxF64 (u : Fin 2) : OpSpec := fmaOp u 16 fun v a b _ => minMaxBits f64 v true a.toNat b.toNat

/-- max.f64 is issued. -/
def execMaxF64 (u : Fin 2) (t : Trig) (s : State) : Host.Outcome State Fault Refusal := issueOne (opMaxF64 u) t s

/-- The operations of fma0 and fma1, by opcode. -/
def fmaOps (u : Fin 2) : List OpSpec :=
  [opFmaF32 u, opAddF32 u, opMulF32 u, opSubF32 u, opMinF32 u, opMaxF32 u,
    opFmaF16x2 u, opAddF16x2 u, opMulF16x2 u, opFmaBf16x2 u, opFmaF64 u, opAddF64 u,
    opMulF64 u, opDot2F16F32 u, opFmaSatF32 u, opMinF64 u, opMaxF64 u]

end Sys2Proof.Machine
end

