-- ==== Sys2Proof/Machine/MxUnit.lean ====
section
/-! DEFINITION. The mx unit: operands, footprints, checks and submission of its jobs (spec/07_matrix_engine.md R261 to
R267, R273, R274, R278). What the jobs then do is in MxJobs. -/

namespace Sys2Proof.Machine

/-! ## Operand fields (R262, R269, R273) -/

/-- Format of a mode; source and destination in team store. -/
def mxFmt (m : W64) : Nat := bitsOf m 3 2
def mxSrcTs (m : W64) : Bool := !bitOf m 7
def mxDstTs (m : W64) : Bool := !bitOf m 6

/-- Row bytes of a format (R258). -/
def rowBytesOf (fmt : Nat) : Nat := if fmt = 0 then 128 else if fmt = 1 then 64 else 256

/-- First tile row, rows, scale set, tile of a multiply word or tile word. -/
def mxRow0 (c : W64) : Nat := bitsOf c 31 25
def mxRows (c : W64) : Nat := bitsOf c 24 18 + 1
def mxSet (c : W64) : Nat := bitsOf c 17 16
def mxTile (c : W64) : Nat := bitsOf c 2 0

/-- Memory format of a tile word, and its row bytes (R274). -/
def tileFmt (c : W64) : Nat := bitsOf c 13 12
def tileRowBytes (c : W64) : Nat := if tileFmt c = 0 then 512 else if tileFmt c = 1 then 256 else 128

/-- Is an opcode a multiply; a drain that updates; a job that takes a queue entry (R264)? -/
def isMultiply (n : Nat) : Bool := n == 2 || n == 3 || n == 13
def isDrainUpdate (n : Nat) : Bool := n == 6 || n == 7
def takesEntry (n : Nat) : Bool := decide (n ≤ 8) || n == 12 || n == 13

/-- Is an opcode a job: all but `scale.set` and `wait`? -/
def isMxJob (n : Nat) : Bool := n != 9 && n != 10

/-- The length of a drain's or load's region (R274). -/
def tileSpan (b c : W64) : Nat :=
  let s := bitsOf b 31 0
  if tileFmt c = 2 then mxRows c * s + 4 * mxRows c else (mxRows c - 1) * s + tileRowBytes c

/-- The read regions of a job (R266). -/
def mxReads (n : Nat) (a b c m : W64) : List Region :=
  let ts := mxSrcTs m
  let rb := rowBytesOf (mxFmt m)
  let hdr := fun (x : W64) len => if mxFmt m = 2 then [] else [({ ts := ts, first := x.toNat, len := len } : Region)]
  if n = 0 then { ts := ts, first := a.toNat, len := 128 * rb } :: hdr c 512
  else if isMultiply n then { ts := ts, first := a.toNat, len := mxRows c * rb } :: hdr b (4 * mxRows c)
  else if n = 8 then [{ ts := ts, first := a.toNat, len := tileSpan b c }]
  else if isDrainUpdate n then [{ ts := mxDstTs m, first := a.toNat, len := tileSpan b c }]
  else []

/-- The write region of a job (R266). -/
def mxWrites (n : Nat) (a b c m : W64) : List Region :=
  if n = 5 ∨ isDrainUpdate n then [{ ts := mxDstTs m, first := a.toNat, len := tileSpan b c }] else []

/-! ## Checks (R262, R267) -/

/-- Is a mode reserved? -/
def mxModeBad (m : W64) : Bool := bitsOf m 63 8 != 0 || bitsOf m 1 0 != 0 || mxFmt m == 3

/-- Does a tile word, with its stride, fail (R273)? -/
def tileIllegal (n : Nat) (b c : W64) : Bool :=
  let zb := n == 5 && tileFmt c == 2
  bitsOf c 63 32 != 0 || bitsOf c 11 3 != 0 || tileFmt c == 3 || (tileFmt c == 2 && n != 5) ||
    (!zb && (mxSet c != 0 || bitOf c 14)) || (n != 5 && bitOf c 15) || decide (128 < mxRow0 c + mxRows c) ||
    bitsOf b 63 32 != 0 || decide (bitsOf b 31 0 < tileRowBytes c) || bitsOf b 31 0 % 32 != 0

/-- Does an operation fail for a reserved bit or a value outside its range? -/
def mxIllegal (n : Nat) (a b c : W64) : Bool :=
  if n = 0 then bitsOf b 63 2 != 0
  else if n = 1 then a != 0
  else if isMultiply n then bitsOf c 63 32 != 0 || bitsOf c 14 3 != 0 || decide (128 < mxRow0 c + mxRows c)
  else if n = 4 then bitsOf a 63 8 != 0
  else if n = 9 then bitsOf c 63 2 != 0
  else if n = 10 then bitsOf a 63 4 != 0 || decide (10 ≤ bitsOf a 3 0)
  else if n = 11 then bitsOf b 63 10 != 0
  else if n = 12 then bitsOf c 63 10 != 0
  else tileIllegal n b c

/-- Is an address misaligned? A BF16 operand has no headers. -/
def mxMisaligned (n : Nat) (a b c m : W64) : Bool :=
  let hdr := fun (x : W64) => mxFmt m != 2 && x.toNat % 4 != 0
  if n = 0 then a.toNat % 32 != 0 || hdr c
  else if isMultiply n then a.toNat % 32 != 0 || hdr b
  else if 5 ≤ n ∧ n ≤ 8 then a.toNat % 32 != 0
  else false

/-- Does a region lie outside the team's slice? -/
def Region.beyond (t : Team) (r : Region) : Bool :=
  r.ts && (decide (2 ^ 19 ≤ r.first) || decide (t.tsSize < r.first + r.len))

/-- The checks of an mx trigger, on the operands of the lowest performing lane; every performing lane is named
(DEDUCED, notes/assumptions/47.md). -/
def mxCheck (n : Nat) (_ : State) (t : Team) (wr _ : Warp) (ls : List Nat) (_ : W32) : Option (Nat × BitVec 8 × List Nat) :=
  let l0 := minOf ls 0
  let a := wr.port unitMx offA l0
  let b := wr.port unitMx offB l0
  let c := wr.port unitMx offC l0
  let m := wr.port unitMx offM l0
  if mxModeBad m then some (7, codeIllegalOp, ls)
  else if mxIllegal n a b c then some (8, codeIllegalOp, ls)
  else if mxMisaligned n a b c m then some (8, codeMisaligned, ls)
  else if (mxReads n a b c m ++ mxWrites n a b c m).any (Region.beyond t) then some (8, codeTstoreRange, ls)
  else none

/-! ## Acceptance and submission (R263, R264) -/

/-- The queue entries taken on a core. -/
def mxQueued (s : State) (core : Nat) : Nat :=
  ((coreJobs s core).filter fun e => e.2.unit == unitMx && takesEntry e.2.opc).length

/-- Does the engine accept a trigger: one in a clk, with room in its queue? -/
def mxAccept (n : Nat) (s : State) (t : Team) (x : Warp) (_ : List Nat) : Bool :=
  x.engineFree && decide ((s.core t.core).mxAt ≤ s.clk) && (!takesEntry n || decide (mxQueued s t.core < 32))

/-- The scales that a job keeps (R263). -/
def mxScales (t : Team) (clk n : Nat) (b c m : W64) : List (BitVec 8) :=
  let set := if n = 0 then bitsOf b 1 0 else mxSet c
  let named := (n == 0 || isMultiply n) && mxFmt m != 2 || n == 5 && tileFmt c == 2
  if named then (List.range 16).map fun i => t.scaleAt clk set i else List.replicate 16 0

/-- The job of a trigger. -/
def mxJob (n : Nat) (s : State) (t : Team) (x : Warp) (b : Begin) (id : Nat) : Job :=
  let l0 := minOf b.lanes 0
  let pa := x.port unitMx offA l0
  let pb := x.port unitMx offB l0
  let pc := x.port unitMx offC l0
  let m := x.port unitMx offM l0
  { id := id, trig := b.id, warp := b.w.warp, unit := unitMx, opc := n, lane := l0, lanes := maskOf b.lanes, a := pa,
    b := pb, c := pc, mode := m,
    data := if n = 12 then foldOver (fun (d : FMap W64) l => d.insert l (x.port unitMx offA l)) .empty b.lanes else .empty,
    core := t.core, regions := mxReads n pa pb pc m, wregions := mxWrites n pa pb pc m, begun := false, cursor := 0,
    acc := 0, written := 0, counted := 0, total := 0, bar := 0, final := false, stage := .go, epoch := s.mem.epoch,
    status := 0, tag := 0, ending := false, cancel := false, pos := 0, pos2 := 0, held := mxScales t s.clk n pb pc m,
    old := .empty, rows := [], at_ := 0, fetch := .empty }

/-- Marks the engine's trigger of this clk. -/
def takeMxClk (s : State) (w : WRef) : State := s.modCore (s.coreOf w.team) fun k => { k with mxAt := s.clk + 1 }

/-- Submits the job of a trigger. -/
def startMx (n : Nat) (s : State) (b : Begin) : State :=
  let s1 := takeMxClk s b.w
  match s1.team? b.w.team, s1.warp? b.w with
  | some t, some x =>
    let (id, s2) := takeId s1
    s2.setTeam b.w.team { t with jobs := t.jobs ++ [mxJob n s1 t x b id] }
  | _, _ => s1

/-- The operation of `scale.set` or `wait`: one item for each performing lane, with the operands of the lowest. -/
def mxOpOf (n : Nat) (s : State) (x : Warp) (b : Begin) (info : List Nat) : Op :=
  let a := x.port unitMx offA (minOf b.lanes 0)
  { id := b.id, unit := unitMx, opc := n, mode := 0, pc := b.pc, clk := s.clk, info := info,
    items := b.lanes.map fun l => { Item.start l a 0 0 s.mem.epoch with stage := .go } }

/-- `scale.set` writes its set; a configuration word of its bundle comes after it (R278). -/
def startScaleSet (s : State) (b : Begin) : State :=
  let s1 := takeMxClk s b.w
  match s1.team? b.w.team, s1.warp? b.w with
  | some t, some x =>
    let l0 := minOf b.lanes 0
    let set := bitsOf (x.port unitMx offC l0) 1 0
    let byte := fun (v : W64) i => (v >>> (8 * i)).setWidth 8
    let entries := (List.range 16).map fun i =>
      (set * 16 + i, if i < 8 then byte (x.port unitMx offA l0) i else byte (x.port unitMx offB l0) (i - 8))
    (s1.setTeam b.w.team (t.writeScale s.clk entries)).modWarp b.w fun x => { x with ops := x.ops ++ [mxOpOf 9 s x b []] }
  | _, _ => s1

/-- `wait` begins: it notes the wait before it of the same selector (R281). -/
def startMxWait (s : State) (b : Begin) : State :=
  let s1 := takeMxClk s b.w
  match s1.team? b.w.team, s1.warp? b.w with
  | some t, some x =>
    let sel := bitsOf (x.port unitMx offA (minOf b.lanes 0)) 3 0
    (s1.setTeam b.w.team { t with mxWaited := t.mxWaited.insert sel b.id }).modWarp b.w fun x =>
      { x with ops := x.ops ++ [mxOpOf 10 s x b [t.mxWaited.getD sel 0]] }
  | _, _ => s1

/-- An operation of mx. -/
def mxOp (n : Nat) (start : State → Begin → State) : OpSpec :=
  { unit := unitMx, opc := n, reads := readsNone, check := mxCheck n, accept := mxAccept n, setsPc := setsNone, start := start }

/-- mx.ldw (R268). -/
def opMxLdw : OpSpec := mxOp 0 (startMx 0)

/-- ldw is issued. -/
def execMxLdw (t : Trig) (s : State) : Host.Outcome State Fault Refusal := issueOne opMxLdw t s

/-- mx.swap (R268). -/
def opMxSwap : OpSpec := mxOp 1 (startMx 1)

/-- swap is issued. -/
def execMxSwap (t : Trig) (s : State) : Host.Outcome State Fault Refusal := issueOne opMxSwap t s

/-- mx.mma (R270). -/
def opMxMma : OpSpec := mxOp 2 (startMx 2)

/-- mma is issued. -/
def execMxMma (t : Trig) (s : State) : Host.Outcome State Fault Refusal := issueOne opMxMma t s

/-- mx.mma.swap (R270). -/
def opMxMmaSwap : OpSpec := mxOp 3 (startMx 3)

/-- mma.swap is issued. -/
def execMxMmaSwap (t : Trig) (s : State) : Host.Outcome State Fault Refusal := issueOne opMxMmaSwap t s

/-- mx.zero (R272). -/
def opMxZero : OpSpec := mxOp 4 (startMx 4)

/-- zero is issued. -/
def execMxZero (t : Trig) (s : State) : Host.Outcome State Fault Refusal := issueOne opMxZero t s

/-- mx.drain (R275). -/
def opMxDrain : OpSpec := mxOp 5 (startMx 5)

/-- drain is issued. -/
def execMxDrain (t : Trig) (s : State) : Host.Outcome State Fault Refusal := issueOne opMxDrain t s

/-- mx.drain.add (R276). -/
def opMxDrainAdd : OpSpec := mxOp 6 (startMx 6)

/-- drain.add is issued. -/
def execMxDrainAdd (t : Trig) (s : State) : Host.Outcome State Fault Refusal := issueOne opMxDrainAdd t s

/-- mx.drain.max (R276). -/
def opMxDrainMax : OpSpec := mxOp 7 (startMx 7)

/-- drain.max is issued. -/
def execMxDrainMax (t : Trig) (s : State) : Host.Outcome State Fault Refusal := issueOne opMxDrainMax t s

/-- mx.ldacc (R277). -/
def opMxLdacc : OpSpec := mxOp 8 (startMx 8)

/-- ldacc is issued. -/
def execMxLdacc (t : Trig) (s : State) : Host.Outcome State Fault Refusal := issueOne opMxLdacc t s

/-- mx.scale.set (R278). -/
def opMxScaleSet : OpSpec := mxOp 9 startScaleSet

/-- scale.set is issued. -/
def execMxScaleSet (t : Trig) (s : State) : Host.Outcome State Fault Refusal := issueOne opMxScaleSet t s

/-- mx.wait (R281). -/
def opMxWait : OpSpec := mxOp 10 startMxWait

/-- wait is issued. -/
def execMxWait (t : Trig) (s : State) : Host.Outcome State Fault Refusal := issueOne opMxWait t s

/-- mx.rdacc (R277). -/
def opMxRdacc : OpSpec := mxOp 11 (startMx 11)

/-- rdacc is issued. -/
def execMxRdacc (t : Trig) (s : State) : Host.Outcome State Fault Refusal := issueOne opMxRdacc t s

/-- mx.wracc (R277). -/
def opMxWracc : OpSpec := mxOp 12 (startMx 12)

/-- wracc is issued. -/
def execMxWracc (t : Trig) (s : State) : Host.Outcome State Fault Refusal := issueOne opMxWracc t s

/-- mx.mma.t (R270). -/
def opMxMmaT : OpSpec := mxOp 13 (startMx 13)

/-- mma.t is issued. -/
def execMxMmaT (t : Trig) (s : State) : Host.Outcome State Fault Refusal := issueOne opMxMmaT t s

/-- The operations of mx, by opcode. -/
def mxOps : List OpSpec :=
  [opMxLdw, opMxSwap, opMxMma, opMxMmaSwap, opMxZero, opMxDrain, opMxDrainAdd, opMxDrainMax,
    opMxLdacc, opMxScaleSet, opMxWait, opMxRdacc, opMxWracc, opMxMmaT]

end Sys2Proof.Machine
end

