-- ==== Sys2Proof/Machine/MxJobs.lean ====
section
/-! DEFINITION. Matrix jobs as they run: planes, multiplies, tiles, drains, loads, waits, and the power grant of the array
(spec/07_matrix_engine.md R257 to R286, spec/10_team_scheduler.md R376 to R378). -/

namespace Sys2Proof.Machine

/-! ## The engine's data (R257) -/

/-- Changes the matrix data of a core. -/
def State.modMx (s : State) (core : Nat) (f : MxState → MxState) : State := s.modCore core fun k => { k with mx := f k.mx }

/-- The active and the shadow plane. -/
def MxState.act (x : MxState) : Plane := if x.active then x.p1 else x.p0
def MxState.shadow (x : MxState) : Plane := if x.active then x.p0 else x.p1

/-- Changes the shadow plane. -/
def MxState.modShadow (x : MxState) (f : Plane → Plane) : MxState :=
  if x.active then { x with p0 := f x.p0 } else { x with p1 := f x.p1 }

/-- Number of a tile element. -/
def elemKey (tile row col : Nat) : Nat := tile * 16384 + row * 128 + col

/-- The numbers of a tile row's elements. -/
def rowKeys (tile row : Nat) : List Nat := (List.range 128).map (elemKey tile row)

/-- A tile row. -/
def MxState.row (x : MxState) (tile row : Nat) : List W32 := (rowKeys tile row).map fun k => x.tiles.getD k 0

/-- Is some element of a tile row poisoned? -/
def MxState.rowPoisoned (x : MxState) (tile row : Nat) : Bool :=
  !x.poison.isEmpty && (rowKeys tile row).any fun k => x.poison.contains k

/-- Writes elements of a tile. -/
def MxState.put (x : MxState) (l : List (Nat × W32)) : MxState :=
  { x with tiles := foldOver (fun (m : FMap W32) e => m.setD e.1 0 e.2) x.tiles l }

/-- Writes elements of a tile and clears their poison. -/
def MxState.putClean (x : MxState) (l : List (Nat × W32)) : MxState :=
  { x.put l with poison := x.poison.filter fun k => !l.any fun e => e.1 == k }

/-- Is some element of a tile poisoned? -/
def MxState.tilePoisoned (x : MxState) (tile : Nat) : Bool := x.poison.any fun k => k / 16384 == tile

/-- The status word of a tile, with PSN as it stands (R282). -/
def MxState.tileWord (x : MxState) (tile : Nat) : W64 := x.ts.getD tile 0x8000 ||| (if x.tilePoisoned tile then 1 else 0)

/-- The plane word (R281). -/
def MxState.planeWord (x : MxState) : W64 :=
  let bit := fun (b : Bool) (k : Nat) => if b then 2 ^ k else 0
  BitVec.ofNat 64 (bit x.act.poison 0 + bit x.shadow.poison 1 + x.act.fmt * 4 + x.shadow.fmt * 16 + bit x.active 6)

/-! ## Order on the engine's own state (R265) -/

/-- Does a job read or write a tile? -/
def Job.onTile (b : Job) (t : Nat) : Bool :=
  b.unit == unitMx &&
    (if b.opc = 4 then bitOf b.a t
     else if b.opc = 11 then mxTile b.b == t
     else b.opc != 0 && b.opc != 1 && mxTile b.c == t)

/-- Does a job act on the planes? -/
def Job.onPlanes (b : Job) : Bool := b.unit == unitMx && (decide (b.opc ≤ 3) || b.opc == 13)

/-- Does some earlier job of the team that is not complete satisfy `p`? -/
def earlierJob (s : State) (team : Nat) (b : Job) (p : Job → Bool) : Bool :=
  match s.team? team with
  | some t => t.jobs.any fun j => decide (j.id < b.id) && j.unit == unitMx && p j
  | none => false

/-- Has a job's turn come on the planes and its tile? `zero` takes its tiles one by one. -/
def mxTurn (s : State) (team : Nat) (b : Job) : Bool :=
  let tile := if b.opc = 11 then mxTile b.b else mxTile b.c
  if b.opc = 0 then !earlierJob s team b fun j => j.opc == 0 || j.opc == 1 || j.opc == 3
  else if b.opc = 1 then !earlierJob s team b Job.onPlanes
  else if isMultiply b.opc then
    !earlierJob s team b fun j => j.opc == 1 || isMultiply j.opc || j.onTile tile
  else if b.opc = 4 then true
  else !earlierJob s team b fun j => j.onTile tile

/-- A matrix job begins, if nothing holds it. -/
def mxBegin (team : Nat) (b : Job) (s : State) : State :=
  if b.begun ∨ b.ending ∨ b.stage ≠ .go ∨ ¬ teamHere s team ∨ ¬ warpClear s team b ∨ ¬ edgesClear s team b ∨
      ¬ mxTurn s team b then s
  else s.modJob team b.id fun x => { x with begun := true }

/-- JOB_BEGIN (spec/01_engines_together.md R58): a job whose edges are clear begins. -/
def execJobBegin (s : State) : Host.Outcome State Fault Refusal :=
  onJob (fun team b s => if b.unit = unitMx then mxBegin team b s else copyBegin team b s) s

/-! ## The end of a unit of work (R279, R283) -/

/-- Status codes of a matrix job. -/
def mxCancelled : Nat := 1
def mxMismatch : Nat := 2
def mxPoisoned : Nat := 3
def mxFaulted : Nat := 4

/-- A job ends short with a code at a tile row; POISONED and FAULTED also with a trap code (R280). -/
def Job.endsAt (b : Job) (code row : Nat) (tag : BitVec 8) : Job :=
  { b with ending := true, status := row * 256 + code, tag := tag }

/-- The tile row, or storage row of `ldw`, at which a job stands. -/
def Job.atRow (b : Job) : Nat := if b.opc = 0 then b.cursor else if isMultiply b.opc ∨ (5 ≤ b.opc ∧ b.opc ≤ 8) then mxRow0 b.c + b.cursor else 0

/-- The kill of its team reaches a matrix job: a multiply that the array has taken rows of completes, as does a job that has done all its
work; another stops and fills with CANCELLED (R283, R286) (DEDUCED, notes/assumptions/59.md). -/
def Job.killMx (resident : Bool) (b : Job) : Job :=
  if b.ending ∨ (resident ∧ isMultiply b.opc ∧ b.begun ∧ b.cursor ≠ 0 ∧ b.stage = .go) then b
  else { b with ending := true, status := b.atRow * 256 + mxCancelled, stage := .go, tag := 0 }

/-- What a stop does to a matrix job at a row. -/
def stopMx (team : Nat) (b : Job) (row : Nat) (s : State) : JobStop → State
  | .code c => s.modJob team b.id fun x => x.endsAt (if c = codePoison then mxPoisoned else mxFaulted) row c
  | e => stopJob s team b.id e

/-- Runs a part of a matrix job. -/
def runMx (team : Nat) (b : Job) (row : Nat) (f : Run Unit) (s : State) : State :=
  match f s with
  | (.ok _, s1) => s1
  | (.error e, s1) => stopMx team b row s1 e

/-- The cursor passes one more row; what it read is forgotten. -/
def Job.nextRow (b : Job) : Job := { b with cursor := b.cursor + 1, fetch := .empty }

/-- A row's cursor step, as part of a run. -/
def passRow (team : Nat) (b : Job) (f : Job → Job) : Run Unit := .modify fun s => s.modJob team b.id fun x => (f x).nextRow

/-! ## Operands (R258 to R260) -/

/-- The scales of captured bytes. -/
def heldScale (l : List (BitVec 8)) (i : Nat) : Int := (l.getD i 0).toInt

/-- The value of an element code under its header. -/
def elemVal (fmt : Nat) (t : Nat → Int) (hdr code : Nat) : FVal :=
  if fmt = 2 then unpack bf16 false code
  else
    let v := blockValue (fmt == 0) t hdr code
    .fin v.1 v.2.1 v.2.2

/-- The element codes of a row's bytes. -/
def rowCodes (fmt : Nat) (bs : List Byte) : List Nat :=
  (List.range 128).map fun k =>
    if fmt = 0 then (bs.getD k 0).toNat
    else if fmt = 1 then (bs.getD (k / 2) 0).toNat / (if k % 2 = 0 then 1 else 16) % 16
    else (bs.getD (2 * k) 0).toNat + 256 * (bs.getD (2 * k + 1) 0).toNat

/-- Reads a row of an operand: element bytes and headers. -/
def readRow (team : Nat) (b : Job) (elems hdrs : W64) (row : Nat) : Run (List Byte × List Byte) :=
  let fmt := mxFmt b.mode
  let ts := mxSrcTs b.mode
  let addr := fun (a : W64) => operandAddr ts a
  (jobRead team b ts (addrsFrom (addr elems + rowBytesOf fmt * row) (rowBytesOf fmt))).then fun es =>
    if fmt = 2 then .pure (es, [])
    else (jobRead team b ts (addrsFrom (addr hdrs + 4 * row) 4)).then fun hs => .pure (es, hs)

/-! ## Loading weights (R268) -/

/-- A storage row goes into the shadow plane; the first also sets its format and exponents. -/
def Plane.loadRow (p : Plane) (row : Nat) (es hs : List Byte) (fmt : Nat) : Plane :=
  let codes := rowCodes fmt es
  { p with
    elems := foldOver (fun (m : FMap Nat) k => m.setD (row * 128 + k) 0 (codes.getD k 0)) p.elems (List.range 128)
    hdrs := foldOver (fun (m : FMap Byte) j => m.setD (row * 4 + j) 0 (hs.getD j 0)) p.hdrs (List.range 4) }

/-- Sets the format and exponents of the shadow plane. -/
def startPlane (b : Job) (s : State) : State :=
  if b.cursor = 0 then s.modMx b.core fun x => x.modShadow fun p => { p with fmt := mxFmt b.mode, scale := b.held } else s

/-- A row of `ldw`; a poisoned one marks the plane (R279). -/
def ldwRow (team : Nat) (b : Job) (s : State) : State :=
  let s0 := startPlane b s
  if b.cursor = 128 then
    (s0.modMx b.core fun x => x.modShadow fun p => { p with poison := false }).modJob team b.id fun x => { x with ending := true }
  else
    match readRow team b b.a b.c b.cursor s0 with
    | (.ok r, s1) =>
      (s1.modMx b.core fun x => x.modShadow fun p => p.loadRow b.cursor r.1 r.2 (mxFmt b.mode)).modJob team b.id Job.nextRow
    | (.error e, s1) =>
      let s2 := stopMx team b b.cursor s1 e
      if e = .code codePoison then s2.modMx b.core fun x => x.modShadow fun p => { p with poison := true } else s2

/-! ## Multiplies (R269 to R271) -/

/-- Canonical NaNs, nothing flushed, to nearest even. -/
def envCanon : FEnv := { envNear with dn := true }

/-- The exact sum of products rounded once (R271). -/
def dotBits (xs ws : List FVal) : Nat := (addTerms f32 envCanon (xs ++ ws) ((xs.zip ws).map fun p => prodTerm p.1 p.2)).bits

/-- Column `c` of weights, or for `mma.t` storage across columns (R270). -/
def Plane.column (p : Plane) (transposed : Bool) (c : Nat) : List FVal :=
  (List.range 128).map fun k =>
    let st := if transposed then k else c
    let el := if transposed then c else k
    elemVal p.fmt (heldScale p.scale) (p.hdrs.getD (st * 4 + el / 32) 0).toNat (p.elems.getD (st * 128 + el) 0)

/-- The elements of a tile row after a multiply's row. -/
def multiplyRow (q : Plane) (b : Job) (es hs : List Byte) (old : List W32) : List W32 :=
  let t := heldScale b.held
  let xs := mapIdx (fun k code => elemVal (mxFmt b.mode) t (hs.getD (k / 32) 0).toNat code) (rowCodes (mxFmt b.mode) es)
  (List.range 128).map fun c =>
    let d := dotBits xs (q.column (b.opc == 13) c)
    BitVec.ofNat 32 (if bitOf b.c 15 then (addBits f32 envCanon (old.getD c 0).toNat d).bits else d)

/-- The heavy units that a row may take, at most four (R378). -/
def rowUnits (s : State) (core : Nat) : Nat :=
  Nat.min 4 (grantOf s core - activePairs (s.core core))

/-- The array takes heavy units for a row. -/
def takeUnits (s : State) (core q fmt : Nat) : State :=
  let passes := (4 + q - 1) / q
  s.modCore core fun k =>
    { k with mxQ := q, mxBusy := s.clk + passes * (if fmt = 2 then 4 else 1), arrayWait := 0, arrayFirst := false }

/-- May a matrix job go on: its team is on its core and not leaving it, or it is a multiply on the array of a killed team (R286)? -/
def mxGoes (s : State) (team : Nat) (b : Job) : Bool :=
  teamHere s team || (isMultiply b.opc && (s.team? team).any fun t => t.dead && t.status == .resident)

/-- Does the array of a core wait for a heavy unit: a multiply on it could take a row (R378)? -/
def arrayWants (s : State) (core : Nat) : Bool :=
  (coreJobs s core).any fun e =>
    e.2.unit == unitMx && isMultiply e.2.opc && e.2.begun && !e.2.ending && e.2.stage == .go && decide (e.2.cursor < mxRows e.2.c) &&
      mxGoes s e.1 e.2

/-- A core whose array waits for nothing any more (R378). -/
def settleArray (s : State) (core : Nat) : State :=
  if (s.core core).arrayWait = 0 ∨ arrayWants s core then s else s.modCore core fun k => { k with arrayWait := 0, arrayFirst := false }

/-- A multiply applies its next row. -/
def mmaRow (team : Nat) (b : Job) (s : State) : State :=
  let core := b.core
  let q := (s.core core).mx.act
  let tile := mxTile b.c
  let row := mxRow0 b.c + b.cursor
  if b.cursor = 0 ∧ mxFmt b.mode ≠ q.fmt then s.modJob team b.id fun x => x.endsAt mxMismatch row 0
  else if b.cursor = 0 ∧ q.poison then s.modJob team b.id fun x => x.endsAt mxPoisoned row codePoison
  else if s.clk < (s.core core).mxBusy then s
  else if rowUnits s core = 0 then
    s.modCore core fun k => { k with arrayWait := if k.arrayWait = 0 then s.clk + 1 else k.arrayWait }
  else
    match readRow team b b.a b.b b.cursor s with
    | (.error e, s1) => stopMx team b row s1 e
    | (.ok r, s1) =>
      let vals := (rowKeys tile row).zip (multiplyRow q b r.1 r.2 ((s.core core).mx.row tile row))
      ((takeUnits (countEvent s1 core 0x09) core (rowUnits s core) (mxFmt b.mode)).modMx core fun x =>
        if bitOf b.c 15 then x.put vals else x.putClean vals).modJob team b.id Job.nextRow

/-- MX_ROW_APPLY (R270, R378): an activation row of the subject's multiply is applied to its tile row
(DESIGN CHOICE, notes/assumptions/48.md). -/
def execMxRowApply (s : State) : Host.Outcome State Fault Refusal :=
  onJob
    (fun team b s =>
      if b.unit = unitMx ∧ isMultiply b.opc ∧ b.begun ∧ ¬ b.ending ∧ b.stage = .go ∧ mxGoes s team b ∧ b.cursor < mxRows b.c then
        mmaRow team b s
      else s)
    s

/-- ARRAY_WAIT_EXPIRY (R378): the array has waited 64 clk for a heavy unit. -/
def execArrayWaitExpiry (s : State) : Host.Outcome State Fault Refusal :=
  match s.subject with
  | .num c =>
    let k := s.core c
    .next (if k.arrayWait ≠ 0 ∧ k.arrayWait + 63 ≤ s.clk then s.setCore c { k with arrayFirst := true } else s)
  | _ => .next s

/-- FMA_PAIR_IDLE (R377): a pair (core, quad) is inactive 16 clk after its last fill. -/
def execFmaPairIdle (s : State) : Host.Outcome State Fault Refusal :=
  match s.subject with
  | .pair c q =>
    let k := (s.core c).quad q
    .next (if k.pairActive ∧ k.pairUntil ≤ s.clk then s.modQuad c q fun x => { x with pairActive := false } else s)
  | _ => .next s

/-! ## Drains and loads (R274, R275, R277) -/

/-- First byte of a row in memory, and of its headers. -/
def tileAddr (ts : Bool) (b : Job) (i : Nat) : Nat := operandAddr ts b.a + i * bitsOf b.b 31 0
def tileHdrAddr (ts : Bool) (b : Job) (i : Nat) : Nat := operandAddr ts b.a + mxRows b.c * bitsOf b.b 31 0 + 4 * i

/-- The bytes that a drained row becomes, with their addresses, and the count of a ZB8 drain. -/
def drainBytes (b : Job) (i : Nat) (row : List W32) : List (Nat × Byte) × Nat :=
  let a := tileAddr (mxDstTs b.mode) b i
  if tileFmt b.c = 0 then (atAddr a (row.flatMap fun v => bytesOfNat 4 v.toNat), 0)
  else if tileFmt b.c = 1 then
    (atAddr a (row.flatMap fun v => bytesOfNat 2 (convert bf16 envNear (unpack f32 false v.toNat)).bits), 0)
  else
    let qs := (List.range 4).map fun j =>
      quantBlock (heldScale b.held) (bitOf b.c 14) (((row.drop (32 * j)).take 32).map fun v => unpack f32 false v.toNat)
    (atAddr a (qs.flatMap fun q => q.1) ++ atAddr (tileHdrAddr (mxDstTs b.mode) b i) (qs.map fun q => q.2.1),
      foldOver (fun n (q : List Byte × Byte × Nat) => n + q.2.2) 0 qs)

/-- An engine job's data are lost, or come poisoned: it ends as for a poisoned source (spec/06_copy_engine.md R253, R279;
spec/11_fabric.md R405, R417). -/
def jobLoses (team id : Nat) (s : State) : State :=
  match (s.team? team).bind fun t => t.job? id with
  | none => s
  | some b =>
    if b.ending then s
    else if b.unit ≠ unitMx then s.modJob team id fun x => x.fails codePoison
    else
      let s1 := s.modJob team id fun x => x.endsAt mxPoisoned x.atRow codePoison
      if b.opc = 0 then s1.modMx b.core fun x => x.modShadow fun p => { p with poison := true } else s1

/-- A row of `drain`. -/
def drainRow (team : Nat) (b : Job) (s : State) : State :=
  let tile := mxTile b.c
  let row := mxRow0 b.c + b.cursor
  let x := (s.core b.core).mx
  if b.cursor = mxRows b.c then s.modJob team b.id fun x => { x with ending := true }
  else if x.rowPoisoned tile row then s.modJob team b.id fun x => x.endsAt mxPoisoned row codePoison
  else
    let d := drainBytes b b.cursor (x.row tile row)
    runMx team b row
      ((jobWrite team b.core b.id (mxDstTs b.mode) d.1).then fun _ =>
        (Run.modify fun s => if bitOf b.c 15 then s.modMx b.core fun x => x.put ((rowKeys tile row).map fun k => (k, 0)) else s).then fun _ =>
          passRow team b fun x => { x with pos2 := x.pos2 + d.2 })
      s

/-- The elements that a memory row loads, widened exactly. -/
def loadedRow (fmt : Nat) (bs : List Byte) : List W32 :=
  (List.range 128).map fun c =>
    if fmt = 0 then BitVec.ofNat 32 (natOfBytes ((bs.drop (4 * c)).take 4))
    else BitVec.ofNat 32 (natOfBytes ((bs.drop (2 * c)).take 2) * 2 ^ 16)

/-- A row of `ldacc`. -/
def ldaccRow (team : Nat) (b : Job) (s : State) : State :=
  let ts := mxSrcTs b.mode
  let row := mxRow0 b.c + b.cursor
  if b.cursor = mxRows b.c then s.modJob team b.id fun x => { x with ending := true }
  else
    runMx team b row
      ((jobRead team b ts (addrsFrom (tileAddr ts b b.cursor) (tileRowBytes b.c))).then fun bs =>
        (Run.modify fun s => s.modMx b.core fun x =>
            x.putClean ((rowKeys (mxTile b.c) row).zip (loadedRow (tileFmt b.c) bs))).then fun _ =>
          passRow team b id)
      s

/-! ## Updates of tiles in memory (R276) -/

/-- An element's new value: the sum, or the greater. -/
def updateBits (b : Job) (old acc : Nat) : Nat :=
  let f := if tileFmt b.c = 0 then f32 else bf16
  let o := unpack f false old
  let a := unpack f32 false acc
  if b.opc = 6 then (addTerms f envCanon [o, a] [plainTerm o, plainTerm a]).bits
  else (minMaxBits f envCanon true old (if tileFmt b.c = 0 then acc else (convert bf16 envCanon a).bits)).bits

/-- An element at its destination: address, tile row, tile value. -/
structure TileElem where
  addr : Nat
  row : Nat
  acc : W32

/-- The elements of an update job in row-major order. -/
def updateElems (b : Job) (x : MxState) : List TileElem :=
  let w := if tileFmt b.c = 0 then 4 else 2
  (List.range (mxRows b.c)).flatMap fun i =>
    mapIdx (fun c v => { addr := tileAddr (mxDstTs b.mode) b i + w * c, row := mxRow0 b.c + i, acc := v })
      (x.row (mxTile b.c) (mxRow0 b.c + i))

/-- Takes a commit time for each versioned line that an update writes, if all of them find room (spec/08_snapshot_engine.md
R312, R313). -/
def storeVersioned (team id : Nat) (l : List (Nat × Byte)) (s : State) : Bool × State :=
  if l.isEmpty then (true, s)
  else
    let lines := (byLine l).map fun bs =>
      ((bs.head?.getD (0, 0)).1 / 512, foldOver (fun (m : FMap Byte) (x : Nat × Byte) => m.insert (x.1 % 512) x.2) .empty bs)
    let whole : Commit := { warp := none, op := 0, lane := 0, job := some (team, id), lines := ⟨lines⟩, since := none, epoch := s.mem.epoch }
    let r := commitRoom s whole
    if clkFree s ∧ r.1 then
      let s1 := foldOver (fun s (e : Nat × FMap Byte) => takeTime s 0 { whole with lines := FMap.empty.insert e.1 e.2 }) r.2 lines
      (true, s1.modSnap fun k => { k with tookAt := s.clk + lines.length })
    else (false, r.2)

/-- The update ends: OK, or POISONED at the first poisoned element's row. -/
def Job.updated (b : Job) (bad : List TileElem) : Job :=
  match bad with
  | [] => { b with ending := true, cursor := mxRows b.c, at_ := 0 }
  | e :: _ => { b.endsAt mxPoisoned e.row codePoison with cursor := mxRows b.c, at_ := 0 }

/-- Phase 3 in team store. -/
def updateTeam (team : Nat) (b : Job) (es : List TileElem) (s : State) : State :=
  match s.team? team with
  | none => s
  | some t =>
    let w := if tileFmt b.c = 0 then 4 else 2
    let good := es.filter fun e => !t.tsPoisoned e.addr w
    let bad := es.filter fun e => t.tsPoisoned e.addr w
    let t1 := foldOver
      (fun (t : Team) (e : TileElem) => t.tsWrite (atAddr e.addr (bytesOfNat w (updateBits b (natOfBytes (t.tsRead e.addr w)) e.acc.toNat))))
      t good
    (s.setTeam team t1).modJob team b.id fun x => x.updated bad

/-- Phase 3 in global memory, at the homes. -/
def updateGlobal (team : Nat) (b : Job) (es : List TileElem) (m : FMap Place) (s : State) : State :=
  let w := if tileFmt b.c = 0 then 4 else 2
  let isBad := fun (e : TileElem) => poisonedAt s (placeIn m e.addr) w
  let new := (es.filter fun e => !isBad e).flatMap fun e =>
    let p := placeIn m e.addr
    let old := natOfBytes ((List.range w).map fun k =>
      if p.ver then newestByte s (p.pa + k) else s.mem.byteAt p.tgt p.dev (p.pa + k))
    mapIdx (fun k v => ({ p with pa := p.pa + k }, v)) (bytesOfNat w (updateBits b old e.acc.toNat))
  let r := storeVersioned team b.id ((new.filter fun x => x.1.ver).map fun x => (x.1.pa, x.2)) s
  if new.any fun x => !x.1.ver && lineOpen s b.core x.1 then s
  else if r.1 then
    (jobStore true team b.core b.id (new.filter fun x => !x.1.ver) r.2).modJob team b.id fun x => x.updated (es.filter isBad)
  else if b.at_ = 0 then r.2.modJob team b.id fun x => { x with at_ := s.clk }
  else if b.at_ + heapLimit s ≤ s.clk then stopMx team b (mxRow0 b.c) r.2 (.code codeHeapFull)
  else r.2

/-- The three phases of an update job. -/
def updateStep (team : Nat) (b : Job) (s : State) : State :=
  let x := (s.core b.core).mx
  let rows := (List.range (mxRows b.c)).map fun i => mxRow0 b.c + i
  match firstWhere (fun r => x.rowPoisoned (mxTile b.c) r) rows with
  | some r => s.modJob team b.id fun x => x.endsAt mxPoisoned r codePoison
  | none =>
    let es := updateElems b x
    if mxDstTs b.mode then updateTeam team b es s
    else
      match pagePlaces team b.core true (es.map fun e => e.addr).reverse s with
      | (.error e, s1) => stopMx team b (mxRow0 b.c) s1 e
      | (.ok m, s1) => updateGlobal team b es m s1

/-- DRAIN_UPDATE_PERFORM (R276). -/
def execDrainUpdatePerform (s : State) : Host.Outcome State Fault Refusal :=
  onJob
    (fun team b s =>
      if b.unit = unitMx ∧ isDrainUpdate b.opc ∧ b.begun ∧ ¬ b.ending ∧ b.stage = .go ∧ teamHere s team then updateStep team b s
      else s)
    s

/-! ## Tiles and planes at once (R268, R272, R277) -/

/-- `zero` takes each named tile whose turn has come; `pos` marks those done. -/
def zeroStep (team : Nat) (b : Job) (s : State) : State :=
  let due := (List.range 8).filter fun t => bitOf b.a t && !b.pos.testBit t && !earlierJob s team b fun j => j.onTile t
  let s1 := foldOver
    (fun (s : State) t => s.modMx b.core fun x =>
      { x with
        tiles := x.tiles.filter fun k _ => k / 16384 != t, poison := x.poison.filter fun k => k / 16384 != t,
        ts := x.ts.erase t }) s due
  let pos := foldOver (fun n t => n + 2 ^ t) b.pos due
  s1.modJob team b.id fun x => { x with pos := pos, ending := pos == bitsOf b.a 7 0 }

/-- The planes are exchanged. -/
def swapPlanes (b : Job) (s : State) : State := s.modMx b.core fun x => { x with active := !x.active }

/-- `wracc` writes its lanes' columns. -/
def wraccStep (team : Nat) (b : Job) (s : State) : State :=
  let key := elemKey (mxTile b.c) (bitsOf b.c 9 3)
  let vals := b.data.entries.flatMap fun e => [(key (2 * e.1), lo32 e.2), (key (2 * e.1 + 1), hi32 e.2)]
  (s.modMx b.core fun x => x.putClean vals).modJob team b.id fun x => { x with ending := true }

/-- The end of a multiply: `mma.swap` exchanges the planes in its place among the jobs on them. -/
def multiplyEnd (team : Nat) (b : Job) (s : State) : State :=
  if b.cursor < mxRows b.c then s
  else if b.opc = 3 then
    if earlierJob s team b Job.onPlanes then s
    else (swapPlanes b s).modJob team b.id fun x => { x with ending := true }
  else s.modJob team b.id fun x => { x with ending := true }

/-- A job that has begun goes on by one row, or acts at once. -/
def mxProgress (team : Nat) (b : Job) (s : State) : State :=
  if b.opc = 0 then ldwRow team b s
  else if b.opc = 1 then (swapPlanes b s).modJob team b.id fun x => { x with ending := true }
  else if isMultiply b.opc then multiplyEnd team b s
  else if b.opc = 4 then zeroStep team b s
  else if b.opc = 5 then drainRow team b s
  else if b.opc = 8 then ldaccRow team b s
  else if b.opc = 11 then s.modJob team b.id fun x => { x with ending := true }
  else if b.opc = 12 then wraccStep team b s
  else s

/-! ## Completion, status and waits (R280 to R284) -/

/-- The status word that a job ends with. -/
def Job.mxWord (b : Job) : Nat :=
  if b.status ≠ 0 then b.status
  else if b.tag ≠ 0 then b.atRow * 256 + mxFaulted
  else 0x8000

/-- .y of a job that ends without a trap code (R266). -/
def Job.mxY (b : Job) : W64 :=
  if b.opc = 0 ∨ isMultiply b.opc ∨ isDrainUpdate b.opc ∨ b.opc = 8 then BitVec.ofNat 64 b.cursor
  else if b.opc = 5 then BitVec.ofNat 64 (b.pos2 * 2 ^ 32 + b.cursor)
  else 0

/-- The tile status word of a job (R282); `zero` has set those of its tiles. -/
def setTileWord (b : Job) (x : MxState) : MxState :=
  let tile := if b.opc = 11 then mxTile b.b else mxTile b.c
  let w := b.mxWord
  if b.opc = 0 ∨ b.opc = 1 ∨ b.opc = 4 then x
  else { x with ts := x.ts.setD tile 0x8000 (BitVec.ofNat 64 (w % 256 * 2 ^ 24 + b.opc * 2 ^ 16 + w / 256 % 256 * 2 ^ 8)) }

/-- The selectors that hold a job, as a mask (R281). -/
def Job.selectors (b : Job) : Nat :=
  foldOver (fun n t => n + if b.onTile t then 2 ^ t else 0) (512 + if b.onPlanes then 256 else 0) (List.range 8)

/-- What a lane of a completed job receives. -/
def mxFillLane (team : Nat) (b : Job) (x : MxState) (s : State) (l : Nat) : State :=
  let w := jobWarp team b
  let status := BitVec.ofNat 64 b.mxWord
  if b.opc = 11 ∧ b.mxWord = 0x8000 then
    let key := elemKey (mxTile b.b) (bitsOf b.b 9 3)
    if x.poison.contains (key (2 * l)) ∨ x.poison.contains (key (2 * l + 1)) then
      fillAt s w unitMx b.trig l (.tagged codePoison 0) (.value status)
    else
      fillVal s w unitMx b.trig l
        (zext32 (x.tiles.getD (key (2 * l)) 0) ||| (zext32 (x.tiles.getD (key (2 * l + 1)) 0) <<< 32)) status
  else fillAt s w unitMx b.trig l (if b.tag = 0 then .value b.mxY else .tagged b.tag 0) (.value status)

/-- The jobs of a selector that a wait waits for are complete. -/
def waitDone (t : Team) (o : Op) (sel : Nat) : Bool :=
  t.jobs.all fun b => !(b.unit == unitMx && decide (b.trig < o.id) && b.selectors.testBit sel)

/-- The status that a wait reports: of the earliest job in its range that did not end with OK. -/
def waitStatus (t : Team) (o : Op) (sel : Nat) : Nat :=
  let from_ := o.info.getD 0 0
  let l := t.mxFailed.filter fun e => decide (from_ < e.1) && decide (e.1 < o.id) && e.2.1.testBit sel
  match l with
  | [] => 0x8000
  | e :: r => (foldOver (fun (a : Nat × Nat × Nat) b => if b.1 < a.1 then b else a) e r).2.2

/-- A `wait` whose jobs are complete fills: an acquire at device scope (R281). -/
def mxWaitPerform (w : WRef) (o : Op) (s : State) : State :=
  match s.team? w.team with
  | none => s
  | some t =>
    let sel := match o.items with
      | i :: _ => bitsOf i.a 3 0
      | [] => 9
    if waitDone t o sel then
      let x := (s.core t.core).mx
      let y := if sel < 8 then x.tileWord sel else if sel = 8 then x.planeWord else 0
      let s1 := foldOver (fun s (i : Item) => finishWith s w o i.lane y (BitVec.ofNat 64 (waitStatus t o sel))) s o.items
      (acquireDiscards s1 t.core 3).modWarp w fun x => x.noteRead s1.nextId
    else s

/-- `scale.set` fills in the clk after its commit (R278). -/
def scaleSetPerform (w : WRef) (o : Op) (s : State) : State :=
  if s.clk ≤ o.clk then s else foldOver (fun s (i : Item) => finishWith s w o i.lane 0 0x8000) s o.items

/-- `wait` and `scale.set` of a warp. -/
def mxOpPerform (w : WRef) (o : Op) (s : State) : State :=
  if o.unit ≠ unitMx then s else if o.opc = 10 then mxWaitPerform w o s else scaleSetPerform w o s

/-- The waits of a team that are done now fill. -/
def answerWaits (team : Nat) (s : State) : State :=
  match s.team? team with
  | none => s
  | some t =>
    foldOver
      (fun s (w : WRef) => match s.warp? w with
        | none => s
        | some x => foldOver (fun s o => mxWaitPerform w o s) s (x.ops.filter fun o => o.unit == unitMx && o.opc == 10))
      s (t.refs team)

/-- The end of a matrix job. -/
def mxFinish (team : Nat) (b : Job) (s : State) : State :=
  let s1 := if s.onCore team then s.modMx b.core (setTileWord b) else s
  let s2 := foldOver (mxFillLane team b (s.core b.core).mx) s1 (lanesOf b.lanes)
  let s3 := (acquireDiscards s2 b.core 3).modWarp (jobWarp team b) fun x => x.noteRead s2.nextId
  let s4 := if b.mxWord = 0x8000 then s3
    else s3.modTeam team fun t => { t with mxFailed := t.mxFailed ++ [(b.trig, b.selectors, b.mxWord)] }
  answerWaits team (dropJob s4 team b.id)

/-- A matrix job goes on, or completes once its writes have performed and nothing before it on its tile is left. -/
def mxComplete (team : Nat) (b : Job) (s : State) : State :=
  if b.unit ≠ unitMx then s
  else if b.ending then (if jobMayLeave s team b then mxFinish team b s else s)
  else if b.begun ∧ b.stage = .go ∧ mxGoes s team b then mxProgress team b s
  else s

/-- MX_JOB_COMPLETE (R284): the subject's job goes on by a row or an act of its own, and completes when all is done; a
`wait` or `scale.set`, named by its operation, fills. -/
def execMxJobComplete (s : State) : Host.Outcome State Fault Refusal :=
  match s.subject with
  | .op w id _ =>
    match (s.warp? w).bind fun x => x.op? id with
    | some o => .next (mxOpPerform w o s)
    | none => .next s
  | _ => onJob mxComplete s

end Sys2Proof.Machine
end

