-- ==== Sys2Proof/Machine/Fetch.lean ====
section
/-! DEFINITION. Fetching a bundle through the bundle buffer (spec/02_bundles_and_ports.md R105, R106;
spec/03_warp_sequencer.md R113, R114). -/

namespace Sys2Proof.Machine

/-- The key of a line of an image in the bundle buffers. -/
def bufferKey (handle off : Nat) : Nat := handle * 2 ^ 19 + off / 512

/-- The handle of the image in a slot of a context. -/
def handleAt (s : State) (ctx slot : Nat) : Option Nat :=
  match s.context? ctx with
  | some c => c.slots.getD slot none
  | none => none

/-- Where the bundle at an offset of an image stands in memory, or the trap code of its fetch: a translated image under the pages
of its context (spec/05_memory_ports.md R228), any other where the loader placed it (DESIGN CHOICE, notes/assumptions/9.md). -/
def codePlace (s : State) (ctx off : Nat) (i : Image) : Except (BitVec 8) (Nat × Nat × Nat) × State :=
  if i.len < off + 32 then (.error codeTranslation, s)
  else if ¬ i.exec then (.error codeProtection, s)
  else match i.va with
    | none => (.ok (0, 0, i.base + off), s)
    | some va =>
      let r := freeBool s
      (match fetchPlace s ctx (va + off) r.1 with
       | .error e => .error (kindCode e.kind)
       | .ok p => .ok (p.tgt, p.dev, p.pa), r.2)

/-- The bundles that a fetch may give: those of the line's old contents, where the entry holds any, and the new one, which comes
last (R106, notes/assumptions/10.md). -/
def CodeLine.bundles (e : CodeLine) (m : Mem) (tgt dev pa : Nat) : List (List Byte) :=
  let moved := e.tgt != tgt || e.dev != dev || e.pa != pa / 512 * 512
  let olds := if moved then e.olds ++ [m.readAt e.tgt e.dev e.pa 512] else e.olds
  (olds.map fun old => (old.drop (pa % 512)).take 32) ++ [m.readAt tgt dev pa 32]

/-- The 32 bytes of a bundle, or the trap code with which its fetch fails. A line that was written since it was last
invalidated gives any of its old contents or the new one (notes/assumptions/10.md). -/
def fetch (s : State) (core ctx : Nat) (pc : W32) : Except (BitVec 8) (List Byte) × State :=
  let off := pc.toNat % 2 ^ 28
  match handleAt s ctx (pc.toNat / 2 ^ 28) with
  | none => (.error codeTranslation, s)
  | some h =>
    match s.ldr.images.find? h with
    | none => (.error codeTranslation, s)
    | some i =>
      match codePlace s ctx off i with
      | (.error c, s1) => (.error c, s1)
      | (.ok (tgt, dev, pa), s1) =>
        let key := bufferKey h off
        match (s.core core).buffer.find? key with
        | none =>
          (.ok (s.mem.readAt tgt dev pa 32), s1.modCore core fun k =>
            { k with buffer := k.buffer.insert key { tgt := tgt, dev := dev, pa := pa / 512 * 512, olds := [] } })
        | some e =>
          let l := e.bundles s.mem tgt dev pa
          let r := freeBelow s1 l.length
          (.ok (l.getD r.1 []), r.2)

/-- A core drops its buffer entry of the line of a code address (spec/12_supervisor.md R449). -/
def dropLine (s : State) (core ctx : Nat) (a : W32) : State :=
  match handleAt s ctx (a.toNat / 2 ^ 28) with
  | none => s
  | some h => s.modCore core fun k => { k with buffer := k.buffer.erase (bufferKey h (a.toNat % 2 ^ 28)) }

/-- Every core drops its buffer entries of an image. -/
def dropImage (s : State) (handle : Nat) : State :=
  { s with cores := s.cores.mapVals fun _ k => { k with buffer := k.buffer.filter fun key _ => key / 2 ^ 19 != handle } }

end Sys2Proof.Machine
end

