-- ==== Sys2Proof/Machine/SnapUnit.lean ====
section
/-! DEFINITION. The snap unit: transactions, held snapshots, reads as of a time (spec/08_snapshot_engine.md R296 to
R311). -/

namespace Sys2Proof.Machine

/-- The lowest performing lane's .a word, for which a warp operation acts (R298). -/
def snapWord (wr : Warp) (ls : List Nat) : W64 := wr.port unitSnap offA (minOf ls 0)

/-- Is a transaction's begin, commit or abort of the warp in flight? -/
def Warp.snapBusy (x : Warp) : Bool := x.ops.any Op.snapHolds

/-- The first check of R299: a reserved mode bit; then the word of a warp operation, for every performing lane. -/
def snapCheck (bad : Warp → W64 → Bool) (_ : State) (_ : Team) (wr _ : Warp) (ls : List Nat) (_ : W32) :
    Option (Nat × BitVec 8 × List Nat) :=
  orElse (failLanes 7 codeIllegalOp ls fun l => bitsOf (wr.port unitSnap offM l) 63 1 != 0)
    (if bad wr (snapWord wr ls) then some (8, codeIllegalOp, ls) else none)

/-- The unit accepts a trigger unless a begin, commit or abort of the warp is in flight (R300, R304). -/
def snapAccept (_ : State) (_ : Team) (x : Warp) (_ : List Nat) : Bool := !x.snapBusy && x.engineFree

/-- Puts an operation of a unit in flight, one item for each lane with its operands; `mode` is a word of the operation. -/
def startOp (u n : Nat) (stage : Stage) (mode : Warp → Begin → W64) (s : State) (b : Begin) : State :=
  s.modWarp b.w fun x =>
    let o : Op :=
      { id := b.id, unit := u, opc := n, mode := mode x b, pc := b.pc, clk := s.clk, info := [],
        items := b.lanes.map fun l =>
          { Item.start l (x.port u offA l) (x.port u offB l) (x.port u offC l) s.mem.epoch with
            m := x.port u offM l, stage := stage } }
    { x with ops := x.ops ++ [o] }

/-- A warp operation of snap. -/
def snapOp (n : Nat) (bad : Warp → W64 → Bool) : OpSpec :=
  { unit := unitSnap, opc := n, reads := readsNone, check := snapCheck bad, accept := snapAccept, setsPc := setsNone,
    start := startOp unitSnap n .go fun x b => snapWord x b.lanes }

/-- A begin word that raises ILLEGAL-OP (R299): a reserved bit, SLOT without HELD, a transaction open or doomed. -/
def beginBad (x : Warp) (v : W64) : Bool :=
  bitsOf v 63 13 != 0 || (!bitOf v 12 && bitsOf v 11 0 != 0) || (x.txn.isSome && !x.snapBusy)

/-- A word that must be zero. -/
def wordNonzero (_ : Warp) (v : W64) : Bool := v != 0

/-- snap.begin (R300). -/
def opSnapBegin : OpSpec := snapOp 0 beginBad

/-- begin is issued. -/
def execSnapBegin (t : Trig) (s : State) : Host.Outcome State Fault Refusal := issueOne opSnapBegin t s

/-- snap.begin.ro (R300). -/
def opSnapBeginRo : OpSpec := snapOp 1 beginBad

/-- begin.ro is issued. -/
def execSnapBeginRo (t : Trig) (s : State) : Host.Outcome State Fault Refusal := issueOne opSnapBeginRo t s

/-- snap.commit (R304). -/
def opSnapCommit : OpSpec := snapOp 2 wordNonzero

/-- commit is issued. -/
def execSnapCommit (t : Trig) (s : State) : Host.Outcome State Fault Refusal := issueOne opSnapCommit t s

/-- snap.abort (R305). -/
def opSnapAbort : OpSpec := snapOp 3 wordNonzero

/-- abort is issued. -/
def execSnapAbort (t : Trig) (s : State) : Host.Outcome State Fault Refusal := issueOne opSnapAbort t s

/-- snap.now (R295). -/
def opSnapNow : OpSpec := snapOp 4 wordNonzero

/-- now is issued. -/
def execSnapNow (t : Trig) (s : State) : Host.Outcome State Fault Refusal := issueOne opSnapNow t s

/-- snap.hold (R309). -/
def opSnapHold : OpSpec := snapOp 5 fun _ v => bitsOf v 63 17 != 0 || bitsOf v 15 12 != 0

/-- hold is issued. -/
def execSnapHold (t : Trig) (s : State) : Host.Outcome State Fault Refusal := issueOne opSnapHold t s

/-- snap.release (R309). -/
def opSnapRelease : OpSpec := snapOp 6 fun _ v => bitsOf v 63 12 != 0

/-- release is issued. -/
def execSnapRelease (t : Trig) (s : State) : Host.Outcome State Fault Refusal := issueOne opSnapRelease t s

/-- snap.status (R310). -/
def opSnapStatus : OpSpec := snapOp 7 wordNonzero

/-- status is issued. -/
def execSnapStatus (t : Trig) (s : State) : Host.Outcome State Fault Refusal := issueOne opSnapStatus t s

/-- The checks of ld.at, per lane (R299, R311). -/
def ldAtCheck (_ : State) (_ : Team) (wr _ : Warp) (ls : List Nat) (_ : W32) : Option (Nat × BitVec 8 × List Nat) :=
  orElse (failLanes 7 codeIllegalOp ls fun l => bitsOf (wr.port unitSnap offM l) 63 1 != 0)
    (orElse (failLanes 8 codeIllegalOp ls fun l => bitsOf (wr.port unitSnap offB l) 63 56 != 0)
      (failLanes 8 codeMisaligned ls fun l =>
        (wr.port unitSnap offA l).toNat % (if bitOf (wr.port unitSnap offM l) 0 then 8 else 4) != 0))

/-- snap.ld.at (R311). -/
def opSnapLdAt : OpSpec :=
  { unit := unitSnap, opc := 8, reads := readsNone, check := ldAtCheck, accept := snapAccept, setsPc := setsNone,
    start := startOp unitSnap 8 .walk fun _ _ => 0 }

/-- ld.at is issued. -/
def execSnapLdAt (t : Trig) (s : State) : Host.Outcome State Fault Refusal := issueOne opSnapLdAt t s

/-- The operations of snap, by opcode. -/
def snapOps : List OpSpec :=
  [opSnapBegin, opSnapBeginRo, opSnapCommit, opSnapAbort, opSnapNow, opSnapHold, opSnapRelease, opSnapStatus, opSnapLdAt]

/-! ## How a warp operation is performed -/

/-- Fills every lane of a warp operation and ends it; where its response was lost, with POISON (spec/11_fabric.md R417). -/
def endSnap (w : WRef) (o : Op) (y : Nat) (y2 : Nat) (s : State) : State :=
  let first := if o.items.any fun i => i.lost then Elem.tagged codePoison 0 else .value (BitVec.ofNat 64 y)
  s.modWarp w fun x =>
    (foldOver (fun x (i : Item) => x.fill unitSnap o.id i.lane first (.value (BitVec.ofNat 64 y2))) x o.items).dropOp o.id

/-- The lane whose request goes to the held-snapshot table for a warp operation: that of its first item. -/
def Op.speaker (o : Op) : Nat := (o.items.head?.map fun i => i.lane).getD 0

/-- Does a warp operation act on the held-snapshot table: `hold`, `release`, a begin with HELD (R300, R309)? -/
def Op.onHeld (o : Op) : Bool := o.opc == 5 || o.opc == 6 || (decide (o.opc ≤ 1) && bitOf o.mode 12)

/-- The way to the table's home and back: is it done, and the state with the request sent once (spec/11_fabric.md R399, R402). -/
def heldTrip (w : WRef) (o : Op) (s : State) : Bool × State :=
  match o.items.head?.map fun i => i.trip with
  | some 0 => (false, sendRequest s w o.id o.speaker heldHome 4 0)
  | some 1 => (false, s)
  | _ => (true, s)

/-- begin and begin.ro (R299, R300). A warp whose last live lane has retired since opens none (R307). -/
def beginPerform (w : WRef) (o : Op) (s : State) : State :=
  let slot := bitsOf o.mode 11 0
  let open_ := fun (time : Nat) (held : Option Nat) =>
    (endSnap w o time 0 s).modWarp w fun x =>
      if x.liveLanes.isEmpty then x
      else { x with txn := some { id := o.id, time := time, held := held, ro := o.opc == 1, doom := none, lines := .empty } }
  if bitOf o.mode 12 then
    match s.eng.snap.held.find? slot with
    | some h => if h.ctx = s.ctxOf w.team then open_ h.time (some slot) else endSnap w o 0 snapNotHeld s
    | none => endSnap w o 0 snapNotHeld s
  else open_ s.eng.snap.published none

/-- hold (R309). -/
def holdPerform (w : WRef) (x : Warp) (o : Op) (s : State) : State :=
  let slot := bitsOf o.mode 11 0
  let time := if bitOf o.mode 16 then x.txn.map fun t => t.time else some s.eng.snap.published
  if s.eng.snap.held.has slot then endSnap w o 0 snapSlotBusy s
  else
    match time with
    | none => endSnap w o 0 snapNoTxn s
    | some t =>
      (endSnap w o t 0 s).modSnap fun k => { k with held := k.held.insert slot { time := t, ctx := s.ctxOf w.team } }

/-- release (R309). -/
def releasePerform (w : WRef) (o : Op) (s : State) : State :=
  let slot := bitsOf o.mode 11 0
  match s.eng.snap.held.find? slot with
  | some h =>
    if h.ctx = s.ctxOf w.team then (endSnap w o 0 0 s).modSnap fun k => { k with held := k.held.erase slot }
    else endSnap w o 0 snapNotHeld s
  | none => endSnap w o 0 snapNotHeld s

/-- The status word and the write-set line count (R310). -/
def snapStatusWord (s : State) (w : WRef) (x : Warp) : Nat × Nat :=
  match x.txn with
  | some t =>
    match t.doom with
    | some c => (t.time * 256 + c * 16 + 3, 0)
    | none => (t.time * 256 + (if t.ro then 2 else 1), if t.ro then 0 else t.lines.entries.length)
  | none =>
    match s.launchTime w.team with
    | some l => (l * 256 + 4, 0)
    | none => (0, 0)

/-- May an abort be made: the transaction's reads and atomics that do not wait on a fault have performed?
(DEDUCED, notes/assumptions/29.md). -/
def mayAbort (x : Warp) (id : Nat) : Bool :=
  (x.earlier id).all fun o => !(o.inTxn && isMem o.unit) || o.items.all fun i => !o.globalRead i || i.faulted

/-- A warp operation of snap is performed where the commit order is kept (R295, R300, R305, R309, R310). An abort whose team is
being saved waits for nothing (R320). -/
def snapPerform (w : WRef) (x : Warp) (o : Op) (s : State) : State :=
  let now := o.opc == 3 && s.saving w.team
  if ¬ x.unfenced o.id ∧ ¬ now then s
  else if o.onHeld ∧ ¬ (heldTrip w o s).1 then (heldTrip w o s).2
  else if o.opc ≤ 1 then beginPerform w o s
  else if o.opc = 3 then
    match x.txn with
    | none => endSnap w o 0 snapNoTxn s
    | some _ => if mayAbort x o.id ∨ now then (endSnap w o 0 0 s).modWarp w fun x => { x with txn := none } else s
  else if o.opc = 4 then endSnap w o s.eng.snap.published 0 s
  else if o.opc = 5 then holdPerform w x o s
  else if o.opc = 6 then releasePerform w o s
  else if o.opc = 7 then endSnap w o (snapStatusWord s w x).1 (snapStatusWord s w x).2 s
  else s

end Sys2Proof.Machine
end

