-- ==== Sys2Proof/Machine/TellUnit.lean ====
section
/-! DEFINITION. The tell unit: its opcodes, watch entries, commits, drafts, forks, notifications, and each operation at
its slot's home (spec/09_tell_unit.md R325 to R354). -/

namespace Sys2Proof.Machine

/-! ## The opcodes (R329 to R333) -/

/-- Does a lane fail for a reserved operand bit or a value outside its range (R332)? -/
def tellIllegal (n : Nat) (a b c : W64) : Bool :=
  if n = 0 then bitsOf b 63 26 != 0
  else if n = 1 then bitsOf b 63 5 != 0 || decide (16 < bitsOf b 4 0)
  else if n = 3 then bitsOf c 63 5 != 0 || decide (16 < bitsOf c 4 0)
  else if n = 4 then bitsOf b 63 16 != 0
  else if n = 5 then bitsOf b 63 28 != 0
  else if n = 6 then bitsOf a 63 18 != 0 || bitsOf a 17 16 == 3
  else if n = 7 then bitsOf a 63 24 != 0
  else if n = 8 then bitsOf b 63 4 != 0 || decide (9 < bitsOf b 3 0)
  else false

/-- The checks of a tell trigger (R332). -/
def tellCheck (n : Nat) (_ : State) (_ : Team) (wr _ : Warp) (ls : List Nat) (_ : W32) : Option (Nat × BitVec 8 × List Nat) :=
  orElse (modeZero unitTell wr ls)
    (orElse
      (failLanes 8 codeIllegalOp ls fun l =>
        tellIllegal n (wr.port unitTell offA l) (wr.port unitTell offB l) (wr.port unitTell offC l))
      (failLanes 8 codeMisaligned ls fun l => n == 3 && (wr.port unitTell offB l).toNat % 128 != 0))

/-- The operation of a unit whose lanes act at homes: one item for each performing lane, at stage `st`. -/
def homeOpOf (u n : Nat) (st : Stage) (s : State) (x : Warp) (b : Begin) : Op :=
  { id := b.id, unit := u, opc := n, mode := 0, pc := b.pc, clk := s.clk, info := [],
    items := b.lanes.map fun l =>
      { Item.start l (x.port u offA l) (x.port u offB l) (x.port u offC l) s.mem.epoch with stage := st } }

/-- Starts such an operation. -/
def startHome (u n : Nat) (st : Stage) (s : State) (b : Begin) : State :=
  s.modWarp b.w fun x => { x with ops := x.ops ++ [homeOpOf u n st s x b] }

/-- Is a slot granted to a context (R326)? -/
def tellGranted (s : State) (ctx n : Nat) : Bool := (s.context? ctx).any fun c => c.tell.contains n

/-- Starts such an operation, whose items for which `walks` holds translate an address first. -/
def startWalking (u n : Nat) (walks : Item → Bool) (s : State) (b : Begin) : State :=
  s.modWarp b.w fun x =>
    let o := homeOpOf u n .go s x b
    { x with ops := x.ops ++ [{ o with items := o.items.map fun i => if walks i then { i with stage := .walk } else i }] }

/-- Starts a tell operation: an `arm` of a granted slot translates its descriptor first, another reads none (R326, R336). -/
def startTell (n : Nat) (s : State) (b : Begin) : State :=
  startWalking unitTell n (fun i => n == 3 && tellGranted s (s.ctxOf b.w.team) (bitsOf i.a 15 0)) s b

/-- An operation of tell: it counts as a read of .y (R333). -/
def tellOp (n : Nat) : OpSpec :=
  { unit := unitTell, opc := n, reads := fun _ _ => [offY], check := tellCheck n,
    accept := fun _ _ x _ => x.engineFree, setsPc := setsNone, start := startTell n }

/-- tell.commit (R341). -/
def opTellCommit : OpSpec := tellOp 0

/-- commit is issued. -/
def execTellCommit (t : Trig) (s : State) : Host.Outcome State Fault Refusal := issueOne opTellCommit t s

/-- tell.commit with DRAFT = 1 (R343): one opcode with `commit`; the token word of each lane says which. -/
def opTellCommitDraft : OpSpec := tellOp 0

/-- commit of a draft token is issued. -/
def execTellCommitDraft (t : Trig) (s : State) : Host.Outcome State Fault Refusal := issueOne opTellCommitDraft t s

/-- tell.confirm (R344). -/
def opTellConfirm : OpSpec := tellOp 1

/-- confirm is issued. -/
def execTellConfirm (t : Trig) (s : State) : Host.Outcome State Fault Refusal := issueOne opTellConfirm t s

/-- tell.next (R342). -/
def opTellNext : OpSpec := tellOp 2

/-- next is issued. -/
def execTellNext (t : Trig) (s : State) : Host.Outcome State Fault Refusal := issueOne opTellNext t s

/-- tell.arm (R336). -/
def opTellArm : OpSpec := tellOp 3

/-- arm is issued. -/
def execTellArm (t : Trig) (s : State) : Host.Outcome State Fault Refusal := issueOne opTellArm t s

/-- tell.disarm (R337). -/
def opTellDisarm : OpSpec := tellOp 4

/-- disarm is issued. -/
def execTellDisarm (t : Trig) (s : State) : Host.Outcome State Fault Refusal := issueOne opTellDisarm t s

/-- tell.fork (R345). -/
def opTellFork : OpSpec := tellOp 5

/-- fork is issued. -/
def execTellFork (t : Trig) (s : State) : Host.Outcome State Fault Refusal := issueOne opTellFork t s

/-- tell.reset (R350). -/
def opTellReset : OpSpec := tellOp 6

/-- reset is issued. -/
def execTellReset (t : Trig) (s : State) : Host.Outcome State Fault Refusal := issueOne opTellReset t s

/-- tell.notify (R349). -/
def opTellNotify : OpSpec := tellOp 7

/-- notify is issued. -/
def execTellNotify (t : Trig) (s : State) : Host.Outcome State Fault Refusal := issueOne opTellNotify t s

/-- tell.count (R351). -/
def opTellCount : OpSpec := tellOp 8

/-- count is issued. -/
def execTellCount (t : Trig) (s : State) : Host.Outcome State Fault Refusal := issueOne opTellCount t s

/-- The operations of tell, by opcode. -/
def tellOps : List OpSpec :=
  [opTellCommit, opTellConfirm, opTellNext, opTellArm, opTellDisarm, opTellFork, opTellReset, opTellNotify, opTellCount]

/-! ## Descriptors (R334, R335) -/

/-- Word `k` of a descriptor. -/
def descWord (e : List W64) (k : Nat) : W64 := e.getD k 0

/-- Fields of an entry. -/
def entryLen (e : List W64) : Nat := bitsOf (descWord e 0) 3 0
def entryWild (e : List W64) (i : Nat) : Bool := bitOf (descWord e 0) (4 + i)
def entryMf (e : List W64) : Bool := bitOf (descWord e 0) 12
def entryStop (e : List W64) : Bool := bitOf (descWord e 0) 16
def entryFork (e : List W64) : Bool := bitOf (descWord e 0) 17
def entryInject (e : List W64) : Bool := bitOf (descWord e 0) 18
def entryNotify (e : List W64) : Bool := bitOf (descWord e 0) 19
def entryTrap (e : List W64) : Bool := bitOf (descWord e 0) 20
def entryCmask (e : List W64) (k : Nat) : Bool := bitOf (descWord e 0) (24 + k)
def entryNinj (e : List W64) : Nat := bitsOf (descWord e 0) 35 32
def entryNote (e : List W64) : Nat := bitsOf (descWord e 0) 47 40
def entryChild (e : List W64) : Nat := bitsOf (descWord e 1) 15 0
def entryHslot (e : List W64) : Nat := bitsOf (descWord e 1) 27 16

/-- The 4-byte word at byte offset `k` of a descriptor. -/
def descHalf (e : List W64) (k : Nat) : Nat := bitsOf (descWord e (k / 8) >>> (8 * (k % 8))) 31 0

/-- Pattern position `i`, and injected token `i`. -/
def entryPattern (e : List W64) (i : Nat) : Nat := descHalf e (16 + 4 * i)
def entryInjected (e : List W64) (i : Nat) : Nat := descHalf e (48 + 4 * i)

/-- Is an entry descriptor bad (R334)? -/
def entryBad (e : List W64) : Bool :=
  let w0 := descWord e 0
  let w1 := descWord e 1
  bitsOf w0 63 48 != 0 || bitsOf w0 39 36 != 0 || bitsOf w0 31 28 != 0 || bitsOf w0 23 21 != 0 || bitsOf w0 15 13 != 0 ||
    bitsOf w1 63 28 != 0 || [10, 11, 12, 13, 14, 15].any (fun k => descWord e k != 0) ||
    entryLen e == 0 || decide (8 < entryLen e) ||
    (List.range 8).any (fun i =>
      decide (2 ^ 24 ≤ entryPattern e i) || decide (2 ^ 24 ≤ entryInjected e i) ||
        (decide (entryLen e ≤ i) && (entryWild e i || entryPattern e i != 0)) ||
        (decide (entryNinj e ≤ i) && entryInjected e i != 0)) ||
    (if entryInject e then entryNinj e == 0 || decide (8 < entryNinj e) else entryNinj e != 0) ||
    (!entryFork e && w1 != 0)

/-- Is a counter block bad (R335)? -/
def countersBad (e : List W64) : Bool :=
  [8, 9, 10, 11, 12, 13, 14, 15].any (fun k => descWord e k != 0) ||
    [0, 1, 2, 3].any fun k =>
      let w := descWord e (2 * k)
      bitsOf w 63 48 != 0 || bitsOf w 39 34 != 0 || bitsOf w 33 32 == 3 || bitsOf (descWord e (2 * k + 1)) 63 32 != 0

/-- The counters that a block sets. -/
def countersOf (e : List W64) : List TellCounter :=
  [0, 1, 2, 3].map fun k =>
    let w := descWord e (2 * k)
    { value := lo32 (descWord e (2 * k + 1)), thr := lo32 w, act := BitVec.ofNat 2 (bitsOf w 33 32), note := BitVec.ofNat 8 (bitsOf w 47 40) }

/-! ## Resolution (R338, R339) -/

/-- Does an entry match history `h`, whose last token is the committed one (R338)? -/
def entryMatches (e : List W64) (h : List (BitVec 24)) (forced : Bool) : Bool :=
  let n := entryLen e
  decide (n ≤ h.length) && (entryMf e || !forced) &&
    (List.range n).all fun i => entryWild e i || entryPattern e i == (h.getD (h.length - n + i) 0).toNat

/-- The last eight tokens. -/
def lastEight (l : List (BitVec 24)) : List (BitVec 24) := l.drop (l.length - 8)

/-- An action word (R340). -/
structure ActionWord where
  merged : Nat
  qlen : Nat
  xcnt : Nat
  child : Nat
  note : Nat
  entry : Nat
  applied : Bool
  cstop : Bool
  forced : Bool
  final : Bool
  forkfail : Bool
  degraded : Bool
  pending : Bool
  trap : Bool
  notify : Bool
  inject : Bool
  fork : Bool
  stop : Bool
  deriving DecidableEq, Repr

/-- An action word of which nothing is set. -/
def ActionWord.none : ActionWord :=
  { merged := 0, qlen := 0, xcnt := 0, child := 0, note := 0, entry := 0, applied := false, cstop := false, forced := false,
    final := false, forkfail := false, degraded := false, pending := false, trap := false, notify := false,
    inject := false, fork := false, stop := false }

/-- The word of its fields. -/
def ActionWord.word (w : ActionWord) : W64 :=
  let bit := fun (b : Bool) (k : Nat) => if b then 2 ^ k else 0
  BitVec.ofNat 64
    (w.merged * 2 ^ 56 + w.qlen * 2 ^ 52 + w.xcnt * 2 ^ 48 + w.child * 2 ^ 32 + w.note * 2 ^ 24 + w.entry * 2 ^ 20 +
      bit w.applied 19 + bit w.cstop 18 + bit w.forced 9 + bit w.final 8 + bit w.forkfail 7 + bit w.degraded 6 +
      bit w.pending 5 + bit w.trap 4 + bit w.notify 3 + bit w.inject 2 + bit w.fork 1 + bit w.stop 0)

/-- Does a word change the course of the sequence, so that a merge ends there (R344)? -/
def ActionWord.course (w : ActionWord) : Bool := w.stop || w.fork || w.forkfail || w.inject || w.degraded || w.trap

/-- What a commit comes to: the slot with the token appended and counted, the slot with every effect on itself, its action
word, and the fork to be made (child and held slot). -/
structure Resolved where
  appended : TellSlot
  slot : TellSlot
  word : ActionWord
  fork : Option (Nat × Nat)

/-- The bits of a list of numbers. -/
def bitSum (l : List Nat) : Nat := foldOver (fun n k => n + 2 ^ k) 0 l

/-- The OR of bytes. -/
def orAll (l : List Nat) : Nat := foldOver Nat.lor 0 l

/-- `resolve` of R339 on a slot. `forkOk` says whether a fork to a child with a held slot can be made. -/
def resolve (t : TellSlot) (token : BitVec 24) (forced final : Bool) (forkOk : Nat → Nat → Bool) : Resolved :=
  let h := t.history ++ [token]
  let m := t.entries.entries.filter fun e => entryMatches e.2 h forced
  let bump := fun k (c : TellCounter) =>
    foldOver (fun (v : W32) (e : Nat × List W64) => if entryCmask e.2 k then (if v = 0xFFFFFFFF then v else v + 1) else v) c.value m
  let cs := mapIdx (fun k (c : TellCounter) => { c with value := bump k c }) t.counters
  let x := (List.range 4).filter fun k => match t.counters[k]?, cs[k]? with
    | some c, some d => d.thr != 0 && decide (c.value.toNat < d.thr.toNat) && decide (d.thr.toNat ≤ d.value.toNat)
    | _, _ => false
  let act := fun k => match cs[k]? with
    | some c => c.act.toNat
    | none => 0
  let noteOf := fun k => match cs[k]? with
    | some c => c.note.toNat
    | none => 0
  let ap : TellSlot := { t with history := lastEight h, step := t.step + 1, counters := cs }
  let loud := m.filter fun e => entryNotify e.2
  let loudX := x.filter fun k => act k == 1
  let w0 : ActionWord :=
    { ActionWord.none with
      forced := forced, xcnt := bitSum x, notify := !loud.isEmpty || !loudX.isEmpty,
      note := orAll (loud.map (fun e => entryNote e.2) ++ loudX.map noteOf) }
  let stops := m.filter fun e => entryStop e.2
  if final ∨ ¬ stops.isEmpty ∨ x.any fun k => act k == 2 then
    let w1 := { w0 with stop := true, final := final, qlen := t.queue.length }
    match stops with
    | e :: _ =>
      { appended := ap, slot := { ap with mode := .stopped, last := BitVec.ofNat 8 e.1 },
        word := { w1 with applied := true, entry := e.1 }, fork := none }
    | [] =>
      { appended := ap, slot := { ap with mode := .stopped, last := if final then 0x11 else 0x10 },
        word := { w1 with cstop := !final }, fork := none }
  else
    match m.filter fun e => entryFork e.2 || entryInject e.2 || entryTrap e.2 with
    | [] => { appended := ap, slot := ap, word := { w0 with qlen := t.queue.length }, fork := none }
    | e :: _ =>
      let d := e.2
      let w1 := { w0 with applied := true, entry := e.1 }
      let ok := entryFork d && forkOk (entryChild d) (entryHslot d)
      let w2 := if ¬ entryFork d then w1
        else if ok then { w1 with fork := true, child := entryChild d }
        else { w1 with forkfail := true, child := entryChild d, notify := true, note := Nat.lor w1.note (entryNote d) }
      let fits := decide (t.queue.length + entryNinj d ≤ 8)
      let w3 := if ¬ entryInject d then w2
        else if fits then { w2 with inject := true }
        else { w2 with degraded := true, notify := true, note := Nat.lor w2.note (entryNote d) }
      let q := if entryInject d && fits then
          t.queue ++ (List.range (entryNinj d)).map fun i => BitVec.ofNat 24 (entryInjected d i)
        else t.queue
      let s1 : TellSlot := { ap with queue := q }
      { appended := ap,
        slot := if entryTrap d then { s1 with mode := .trapped, last := BitVec.ofNat 8 e.1 } else s1,
        word := { w3 with trap := entryTrap d, qlen := q.length },
        fork := if ok then some (entryChild d, entryHslot d) else none }

/-! ## Slots, forks, records -/

/-- Slot `n`. -/
def State.slot (s : State) (n : Nat) : TellSlot := s.eng.tell.getD n TellSlot.start

/-- Puts slot `n`. -/
def State.setSlot (s : State) (n : Nat) (t : TellSlot) : State :=
  s.modEng fun e => { e with tell := e.tell.setD n TellSlot.start t }

/-- Can a fork be made (R345)? -/
def forkOk (s : State) (ctx child h : Nat) : Bool :=
  tellGranted s ctx child && (s.slot child).mode == .free && !s.eng.snap.held.has h

/-- Makes a fork of a parent's state (R345). -/
def makeFork (s : State) (ctx parent : Nat) (state : TellSlot) (child h : Nat) : State :=
  let f := s.eng.snap.published
  let s1 := s.modSnap fun k => { k with held := k.held.insert h { time := f, ctx := ctx } }
  s1.setSlot child
    { state with
      mode := .live, drafts := [], parent := some parent, forkTime := f, hold := some h, last := 0xFF, word := 0 }

/-- Words of a notification record (R348). -/
def noteWords (slot note cause flags : Nat) (token : BitVec 24) (step : W32) (i size : Nat) : List W64 :=
  [BitVec.ofNat 64 (slot * 2 ^ 48 + note * 2 ^ 40 + cause * 2 ^ 32 + flags * 2 ^ 24 + token.toNat),
   BitVec.ofNat 64 (step.toNat * 2 ^ 32 + (i / size + 1) % 2)]

/-- Writes a notification record, or counts its drop; answers its number, if written. The record is everywhere at once: before the
operation fills, and before the slot's next one (R348; spec/13_loader.md R480). -/
def notifyRecord (s : State) (ctx slot note cause flags : Nat) (token : BitVec 24) (step : W32) : Option Nat × State :=
  match s.context? ctx with
  | none => (none, s)
  | some c =>
    let base := bitsOf (s.cfgWord ctx 1) 63 12 * 2 ^ 12
    let size := 2 ^ bitsOf (s.cfgWord ctx 1) 3 0
    let ci := (s.mem.word (bitsOf (s.cfgWord ctx 2) 63 3 * 8)).toNat
    if base = 0 ∨ ci + size ≤ c.nrPos then (none, s.modCtx ctx fun c => { c with nrDrops := c.nrDrops + 1 })
    else
      let bytes := (noteWords slot note cause flags token step c.nrPos size).flatMap (wordBytes 8)
      (some c.nrPos,
        (writeEverywhere s none (atAddr (base + 16 * (c.nrPos % size)) bytes)).modCtx ctx fun c =>
          { c with nrPos := c.nrPos + 1 })

/-- A final commit takes effect: the slot, its fork, its record (R339). -/
def applyCommit (s : State) (ctx n : Nat) (t : TellSlot) (token : BitVec 24) (forced final : Bool) : ActionWord × State :=
  let r := resolve t token forced final (forkOk s ctx)
  let s1 := match r.fork with
    | some f => makeFork s ctx n { r.appended with queue := t.queue } f.1 f.2
    | none => s
  let s2 := s1.setSlot n { r.slot with word := r.word.word }
  let cause := if r.word.applied then r.word.entry else 0xFF
  let s3 := if r.word.notify then
      (notifyRecord s2 ctx n r.word.note cause (bitsOf r.word.word 7 0) token r.slot.step).2
    else s2
  (r.word, s3)

/-! ## Drafts (R343, R344) -/

/-- The slot as the drafts of its window leave it, provisionally (DEDUCED, notes/assumptions/51.md). -/
def provisional (t : TellSlot) (ok : Nat → Nat → Bool) : TellSlot :=
  foldOver
    (fun (p : TellSlot) (d : Draft) =>
      let a := (resolve p d.token false d.final ok).appended
      { p with history := a.history, step := a.step, counters := a.counters })
    t t.drafts

/-- A draft is appended: the word resolved on the provisional state, marked PENDING. -/
def appendDraft (s : State) (ctx n : Nat) (t : TellSlot) (token : BitVec 24) (final : Bool) : W64 × State :=
  let r := resolve (provisional t (forkOk s ctx)) token false final (forkOk s ctx)
  let w := { r.word with pending := true, qlen := t.queue.length }
  (w.word, s.setSlot n { t with drafts := t.drafts ++ [{ token := token, forced := false, final := final, word := w.word }] })

/-- What a merge gathers. -/
structure Merge where
  st : State
  m : Nat
  note : Nat
  xcnt : Nat
  notify : Bool
  last : ActionWord
  stopped : Bool

/-- One draft is merged, unless the merge has ended. -/
def mergeDraft (ctx n : Nat) (a : Merge) (d : Draft) : Merge :=
  if a.stopped then a
  else
    let r := applyCommit a.st ctx n (a.st.slot n) d.token false d.final
    { st := r.2, m := a.m + 1, note := Nat.lor a.note r.1.note, xcnt := Nat.lor a.xcnt r.1.xcnt,
      notify := a.notify || r.1.notify, last := r.1, stopped := r.1.course }

/-- `confirm` on a live slot: its action word and whether a trap arose (R344, R347). -/
def confirmSlot (s : State) (ctx n count : Nat) : W64 × Bool × State :=
  let t := s.slot n
  let a := foldOver (mergeDraft ctx n)
    { st := s.setSlot n { t with drafts := [] }, m := 0, note := 0, xcnt := 0, notify := false, last := .none, stopped := false }
    (t.drafts.take count)
  let u := a.st.slot n
  let base := if a.m = 0 then ActionWord.none else { a.last with note := a.note, xcnt := a.xcnt, notify := a.notify }
  let w := { base with merged := a.m, qlen := u.queue.length }
  (w.word, w.trap, if a.m = 0 then a.st else a.st.setSlot n { u with word := w.word })

/-! ## Operations at the home (R330) -/

/-- The status codes (R352). -/
def tellOk : Nat := 0
def tellNotLive : Nat := 1
def tellStopped : Nat := 2
def tellTrapped : Nat := 3
def tellDraftsOpen : Nat := 4
def tellWindowFull : Nat := 5
def tellForcedPending : Nat := 6
def tellChildBusy : Nat := 7
def tellHoldBusy : Nat := 8
def tellBadEntry : Nat := 9
def tellRingFull : Nat := 10
def tellEmpty : Nat := 11

/-- The outcome of an operation: .y, .y2, whether .y is a WATCH tag. -/
structure TellOut where
  y : W64
  status : Nat
  watch : Bool

/-- A rejected operation, or one without a value. -/
def TellOut.code (n : Nat) : TellOut := { y := 0, status := n, watch := false }

/-- The status of a slot that rejects commits; none for a live one. -/
def tellRejects (t : TellSlot) : Option Nat :=
  match t.mode with
  | .free => some tellNotLive
  | .stopped => some tellStopped
  | .trapped => some tellTrapped
  | .live => none

/-- `commit` (R341, R343). -/
def tellCommit (s : State) (ctx n : Nat) (b : W64) : TellOut × State :=
  let t := s.slot n
  let token := BitVec.ofNat 24 (bitsOf b 23 0)
  let final := bitOf b 25
  match tellRejects t with
  | some c => (.code c, s)
  | none =>
    if bitOf b 24 then
      if ¬ t.queue.isEmpty then (.code tellForcedPending, s)
      else if 16 ≤ t.drafts.length then (.code tellWindowFull, s)
      else
        let r := appendDraft s ctx n t token final
        ({ y := r.1, status := 0, watch := false }, r.2)
    else if ¬ t.drafts.isEmpty then (.code tellDraftsOpen, s)
    else
      let r := match t.queue with
        | h :: q => applyCommit s ctx n { t with queue := q } h true final
        | [] => applyCommit s ctx n t token false final
      ({ y := r.1.word, status := 0, watch := r.1.trap }, r.2)

/-- `fork` by a program (R345). -/
def tellFork (s : State) (ctx n : Nat) (b : W64) : TellOut × State :=
  let t := s.slot n
  let c := bitsOf b 15 0
  let h := bitsOf b 27 16
  if t.mode = .free then (.code tellNotLive, s)
  else if t.mode = .trapped then (.code tellTrapped, s)
  else if ¬ t.drafts.isEmpty then (.code tellDraftsOpen, s)
  else if (s.slot c).mode ≠ .free then (.code tellChildBusy, s)
  else if s.eng.snap.held.has h then (.code tellHoldBusy, s)
  else ({ y := BitVec.ofNat 64 s.eng.snap.published, status := 0, watch := false }, makeFork s ctx n t c h)

/-- Releases the held slot of a slot, if it still holds the fork time for the context (R350). -/
def releaseHold (s : State) (ctx : Nat) (t : TellSlot) : State :=
  match t.hold with
  | some h =>
    match s.eng.snap.held.find? h with
    | some x => if x.time = t.forkTime ∧ x.ctx = ctx then s.modSnap fun k => { k with held := k.held.erase h } else s
    | none => s
  | none => s

/-- `reset` (R350). -/
def tellReset (s : State) (ctx n mode : Nat) : State :=
  let t := s.slot n
  if mode = 2 then
    s.setSlot n { t with drafts := [], mode := if t.mode = .stopped ∨ t.mode = .trapped then .live else t.mode }
  else (releaseHold s ctx t).setSlot n (if mode = 1 then .cleared else .start)

/-- The status word of a slot (R351). -/
def tellStatusWord (t : TellSlot) : Nat :=
  let st := match t.mode with
    | .free => 0
    | .live => 1
    | .stopped => 2
    | .trapped => 3
  t.last.toNat * 2 ^ 32 + bitSum t.entries.keys * 2 ^ 16 + t.queue.length * 2 ^ 12 + t.drafts.length * 2 ^ 7 + st

/-- `count` (R351). -/
def tellCount (t : TellSlot) (sel : Nat) : Nat :=
  if sel < 4 then (match t.counters[sel]? with
    | some c => c.value.toNat
    | none => 0)
  else if sel = 4 then t.step.toNat
  else if sel = 5 then tellStatusWord t
  else if sel = 6 then (match t.parent with
    | some p => 2 ^ 16 + p
    | none => 0)
  else if sel = 7 then t.forkTime
  else if sel = 8 then (match t.hold with
    | some h => 2 ^ 12 + h
    | none => 0)
  else t.word.toNat

/-- `next` (R342). -/
def tellNext (t : TellSlot) : TellOut :=
  match t.queue with
  | [] => .code tellEmpty
  | h :: _ => { y := BitVec.ofNat 64 (h.toNat + 2 ^ 24 + t.queue.length * 2 ^ 25), status := 0, watch := false }

/-- `arm` with its descriptor (R336). -/
def tellArm (s : State) (n target : Nat) (desc : List W64) : TellOut × State :=
  let t := s.slot n
  if t.mode = .free then (.code tellNotLive, s)
  else if ¬ t.drafts.isEmpty then (.code tellDraftsOpen, s)
  else if target < 16 then
    if entryBad desc then (.code tellBadEntry, s)
    else (.code 0, s.setSlot n { t with entries := t.entries.insert target desc })
  else if countersBad desc then (.code tellBadEntry, s)
  else (.code 0, s.setSlot n { t with counters := countersOf desc })

/-- `disarm` (R337). -/
def tellDisarm (s : State) (n : Nat) (mask : W64) : TellOut × State :=
  let t := s.slot n
  if t.mode = .free then (.code tellNotLive, s)
  else if ¬ t.drafts.isEmpty then (.code tellDraftsOpen, s)
  else (.code 0, s.setSlot n { t with entries := t.entries.filter fun k _ => !bitOf mask k })

/-- `notify` (R349). -/
def tellNotify (s : State) (ctx n note : Nat) : TellOut × State :=
  let t := s.slot n
  if t.mode = .free then (.code tellNotLive, s)
  else
    let r := notifyRecord s ctx n note 0xFE 0 0 t.step
    match r.1 with
    | some i => ({ y := BitVec.ofNat 64 i, status := 0, watch := false }, r.2)
    | none => (.code tellRingFull, r.2)

/-- One lane's operation at the home of its slot. -/
def tellAtHome (s : State) (ctx opc : Nat) (i : Item) : TellOut × State :=
  let n := bitsOf i.a 15 0
  if opc = 0 then tellCommit s ctx n i.b
  else if opc = 1 then
    match tellRejects (s.slot n) with
    | some c => (.code c, s)
    | none =>
      let r := confirmSlot s ctx n (bitsOf i.b 4 0)
      ({ y := r.1, status := 0, watch := r.2.1 }, r.2.2)
  else if opc = 2 then (if (s.slot n).mode = .free then (.code tellNotLive, s) else (tellNext (s.slot n), s))
  else if opc = 3 then tellArm s n (bitsOf i.c 4 0) (i.extra.map (BitVec.ofNat 64))
  else if opc = 4 then tellDisarm s n i.b
  else if opc = 5 then tellFork s ctx n i.b
  else if opc = 6 then (.code 0, tellReset s ctx n (bitsOf i.a 17 16))
  else if opc = 7 then tellNotify s ctx n (bitsOf i.a 23 16)
  else ({ y := BitVec.ofNat 64 (tellCount (s.slot n) (bitsOf i.b 3 0)), status := 0, watch := false }, s)

/-- The slots that a lane's operation touches: its own, the child of a fork, and the children of its slot's forking
entries (R354). -/
def tellTouches (s : State) (opc : Nat) (i : Item) : List Nat :=
  let n := bitsOf i.a 15 0
  n :: (if opc = 5 then [bitsOf i.b 15 0]
    else if opc ≤ 1 then ((s.slot n).entries.vals.filter entryFork).map entryChild
    else [])

/-- Must a lane wait for a lower lane of its trigger that touches a slot of it, an `arm` that waits on a fault too (R354 item 2, R355)
(DEDUCED, notes/assumptions/25.md)? -/
def tellBehind (s : State) (o : Op) (i : Item) : Bool :=
  o.items.any fun j => decide (j.lane < i.lane) &&
    (tellTouches s o.opc j).any fun n => (tellTouches s o.opc i).contains n

/-- Sends the lane's request to a home with class 4 (spec/11_fabric.md R402), once. -/
def homeOnce (p : Pick) (dst : Nat × Nat) (s : State) : State :=
  if p.item.trip = 0 then sendRequest s p.w p.op.id p.item.lane dst 4 0 else s

/-- A byte as a plain load of a core reads it: from the core's copy, or below (R206, R215). -/
def coreByte (s : State) (core : Nat) (q : Place) (k : Nat) : Byte :=
  let g := q.gaddr + k
  match s.l1Sector core (g / 32) with
  | some x => if x.nc then missByte s core q.tgt q.dev (q.pa + k) else x.bytes.getD (g % 32) 0
  | none => missByte s core q.tgt q.dev (q.pa + k)

/-- The descriptor of `arm` is read, as one plain read of the lane (R336). -/
def armRead (p : Pick) (s : State) : State :=
  match p.item.place with
  | none => s.modWarp p.w fun x => x.modOp p.op.id fun o => o.modItem p.item.lane fun i => { i with stage := .walk }
  | some q =>
    let got := fun (bs : List Byte) (s : State) =>
      (afterRead s p).modWarp p.w fun x => x.modOp p.op.id fun o => o.modItem p.item.lane fun i =>
        { i with extra := (List.range 16).map fun k => natOfBytes ((bs.drop (8 * k)).take 8), trip := 0 }
    if ¬ mayRead p.warp p.op then s
    else
      let view := viewBytes s p.w p.warp p.op q 128
      let bad := match view with
        | some _ => viewPoisoned s p.w p.warp p.op q 128
        | none => loadPoisoned s p q 128
      match forward p.warp p.op.id (p.item.b.toNat % 2 ^ 57) 128 q with
      | .waits => s
      | .bytes bs => if view.isNone && bad then failItem s p.w p.op p.item codePoison else got bs s
      | .none =>
        if p.item.trip ≠ 2 then requestOnce p q 0 s
        else if bad then failItem s p.w p.op p.item codePoison
        else answered p q s (got (view.getD ((List.range 128).map (coreByte s (s.coreOf p.w.team) q))))

/-- One lane of a tell operation: a release waits as a fence does at device scope (R353); then the operation is performed
at its slot's home and fills. -/
def tellLane (p : Pick) (s : State) : State :=
  let ctx := s.ctxOf p.w.team
  let o := p.op
  let i := p.item
  let n := bitsOf i.a 15 0
  if i.stage ≠ .go ∨ ¬ p.warp.unfenced o.id ∨ tellBehind s o i then s
  else if o.opc = 3 ∧ i.extra.isEmpty ∧ tellGranted s ctx n then armRead p s
  else if (o.opc ≤ 1 ∨ o.opc = 5) ∧ ¬ fenceReady s p.w o.id 3 then s
  else if i.trip ≠ 2 then homeOnce p (homeEndpoint (n % 256)) s
  else if ¬ tellGranted s ctx n ∨ (o.opc = 5 ∧ ¬ tellGranted s ctx (bitsOf i.b 15 0)) then failItem s p.w o i codeProtection
  else
    let r := tellAtHome s ctx o.opc i
    (fillAt r.2 p.w unitTell o.id i.lane
      (if i.lost then .tagged codePoison 0 else if r.1.watch then .tagged codeWatch 0 else .value r.1.y)
      (.value (BitVec.ofNat 64 r.1.status))).modWarp p.w fun x => x.endItem o.id i.lane

end Sys2Proof.Machine
end

