-- ==== Sys2Proof/Machine/TalonAce.lean ====
section
/-! DEFINITION. The Talon deques and the Ace bound registers: opcodes, operations at their homes, the broadcast of changes
and the release of waiting lanes (spec/10_team_scheduler.md R379 to R397). -/

namespace Sys2Proof.Machine

/-! ## The opcodes of tq (R381 to R386) -/

/-- Fields of the range word of `steal.any` (R384). -/
def rangeFirst (a : W64) : Nat := bitsOf a 11 0
def rangeCount (a : W64) : Nat := bitsOf a 28 16

/-- Does a lane fail for a reserved operand bit or a value outside its range (R386)? -/
def tqIllegal (n : Nat) (a c : W64) : Bool :=
  if n = 3 then
    bitsOf a 15 12 != 0 || bitsOf a 63 29 != 0 || rangeCount a == 0 || decide (4096 < rangeCount a)
  else bitsOf a 63 12 != 0 || (n == 5 && (bitsOf c 63 28 != 0 || bitsOf c 27 0 % 512 != 0))

/-- The checks of a tq trigger (R386). -/
def tqCheck (n : Nat) (_ : State) (_ : Team) (wr _ : Warp) (ls : List Nat) (_ : W32) : Option (Nat × BitVec 8 × List Nat) :=
  orElse (modeZero unitTq wr ls)
    (orElse (failLanes 8 codeIllegalOp ls fun l => tqIllegal n (wr.port unitTq offA l) (wr.port unitTq offC l))
      (failLanes 8 codeMisaligned ls fun l => n == 5 && bitsOf (wr.port unitTq offB l) 56 0 % 4096 != 0))

/-- The operation that a tq trigger starts: an `init` that takes a segment translates its pages first (R383). -/
def startTq (n : Nat) (s : State) (b : Begin) : State :=
  startWalking unitTq n (fun i => n == 5 && bitsOf i.c 27 0 != 0) s b

/-- An operation of tq: it counts as a read of .y (R385). -/
def tqOp (n : Nat) : OpSpec :=
  { unit := unitTq, opc := n, reads := fun _ _ => [offY], check := tqCheck n, accept := fun _ _ x _ => x.engineFree,
    setsPc := setsNone, start := startTq n }

/-- tq.push (R382). -/
def opTqPush : OpSpec := tqOp 0

/-- push is issued. -/
def execTqPush (t : Trig) (s : State) : Host.Outcome State Fault Refusal := issueOne opTqPush t s

/-- tq.pop (R382). -/
def opTqPop : OpSpec := tqOp 1

/-- pop is issued. -/
def execTqPop (t : Trig) (s : State) : Host.Outcome State Fault Refusal := issueOne opTqPop t s

/-- tq.steal (R382). -/
def opTqSteal : OpSpec := tqOp 2

/-- steal is issued. -/
def execTqSteal (t : Trig) (s : State) : Host.Outcome State Fault Refusal := issueOne opTqSteal t s

/-- tq.steal.any (R384). -/
def opTqStealAny : OpSpec := tqOp 3

/-- steal.any is issued. -/
def execTqStealAny (t : Trig) (s : State) : Host.Outcome State Fault Refusal := issueOne opTqStealAny t s

/-- tq.size (R382). -/
def opTqSize : OpSpec := tqOp 4

/-- size is issued. -/
def execTqSize (t : Trig) (s : State) : Host.Outcome State Fault Refusal := issueOne opTqSize t s

/-- tq.init (R383). -/
def opTqInit : OpSpec := tqOp 5

/-- init is issued. -/
def execTqInit (t : Trig) (s : State) : Host.Outcome State Fault Refusal := issueOne opTqInit t s

/-- The operations of tq, by opcode. -/
def tqOps : List OpSpec := [opTqPush, opTqPop, opTqSteal, opTqStealAny, opTqSize, opTqInit]

/-! ## A deque at its home (R379 to R387) -/

/-- The status codes (R386). -/
def tqOk : Nat := 0
def tqEmpty : Nat := 1
def tqFull : Nat := 2
def tqNotInit : Nat := 3

/-- Puts deque `d`. -/
def State.setDeque (s : State) (d : Nat) (q : Deque) : State := s.modEng fun e => { e with deques := e.deques.insert d q }

/-- The poisoned sectors of the segment of a deque. -/
def Deque.hurt (s : State) (q : Deque) : Nat := (s.mem.poison.filter fun sec => q.pages.contains (sec * 32 / 4096)).length

/-- Is the item that a deque's operation takes lost to poison? With more than CAP items the bottom one stands at the home, with
more than 256 the top one in the segment; the rest of the layout is free (R380, R386) (DESIGN CHOICE, notes/assumptions/24.md). -/
def Deque.loses (s : State) (q : Deque) (bottom : Bool) : Bool × State :=
  if q.hurt s = 0 ∨ (bottom ∧ q.cap < q.items.length) then (false, s)
  else if ¬ bottom ∧ 256 < q.items.length ∧ q.hurt s = 128 * q.pages.length then (true, s)
  else freeBool s

/-- Where a deque may hold items in its segment, the device writes words of it as it likes, without an event (R380)
(DESIGN CHOICE, notes/assumptions/24.md). -/
def Deque.moves (q : Deque) (s : State) : State :=
  if q.cap = 0 ∨ q.items.isEmpty then s
  else
    let n := freeBelow s (q.cap + 1)
    foldOver
      (fun s _ =>
        let at_ := freeBelow s q.cap
        let v := freeWord at_.2
        let a := q.pages.getD (at_.1 / 512) 0 * 4096 + at_.1 % 512 * 8
        let l := atAddr a (wordBytes 8 v.1)
        (keepOldCode v.2 0 0 l).modMem fun m => m.writeList l)
      n.2 (List.range n.1)

/-- What an operation comes to: the value, or a POISON tag in its place, the status, and whether an item was taken. -/
structure TqOut where
  y : W64
  y2 : Nat
  poison : Bool
  took : Bool
  deriving DecidableEq, Repr

/-- An outcome without an item. -/
def TqOut.plain (y y2 : Nat) : TqOut := { y := BitVec.ofNat 64 y, y2 := y2, poison := false, took := false }

/-- Takes the bottom or the top item of a deque that has one. An item that the device may hold in a poisoned sector is lost
(R386; notes/assumptions/24.md). -/
def takeFrom (s : State) (d : Nat) (q : Deque) (bottom : Bool) : TqOut × State :=
  let item := if bottom then q.items.getLast?.getD 0 else q.items.headD 0
  let rest := if bottom then q.items.dropLast else q.items.drop 1
  let r := q.loses s bottom
  ({ y := item, y2 := 0, poison := r.1, took := !r.1 }, q.moves (r.2.setDeque d { q with items := rest }))

/-- `push` (R382) (DEDUCED, notes/assumptions/89.md). -/
def tqPush (s : State) (d : Nat) (b : W64) : TqOut × State :=
  match s.eng.deques.find? d with
  | none => (.plain 0 tqNotInit, s)
  | some q =>
    if 256 + q.cap ≤ q.items.length then (.plain q.items.length tqFull, s)
    else
      let q1 := { q with items := q.items ++ [b] }
      (.plain (q1.items.length) 0, q1.moves (s.setDeque d q1))

/-- `pop` and `steal` (R382). -/
def tqTake (s : State) (d : Nat) (bottom : Bool) : TqOut × State :=
  match s.eng.deques.find? d with
  | none => (.plain 0 tqNotInit, s)
  | some q => if q.items.isEmpty then (.plain 0 tqEmpty, s) else takeFrom s d q bottom

/-- `size` (R382). -/
def tqSize (s : State) (d : Nat) : TqOut × State :=
  match s.eng.deques.find? d with
  | none => (.plain 0 tqNotInit, s)
  | some q => (.plain q.items.length 0, s)

/-- `init`, its pages translated (R383). -/
def tqInit (s : State) (ctx d : Nat) (i : Item) : TqOut × State :=
  let old := match s.eng.deques.find? d with
    | some q => q.items.length
    | none => 0
  let cap := bitsOf i.c 27 0
  if cap = 0 then (.plain old 0, s.modEng fun e => { e with deques := e.deques.erase d })
  else
    (.plain old 0,
      s.setDeque d { items := [], cap := cap, seg := i.b.toNat % 2 ^ 57, ctx := ctx, pages := i.extra })

/-- Is a deque granted to a context (R379)? -/
def tqGranted (s : State) (ctx d : Nat) : Bool := (s.context? ctx).any fun c => c.deques.contains d

/-! ## The lanes of an operation -/

/-- The probes of `steal.any` that a lane has made. -/
def Item.probes (i : Item) : Nat := i.extra.headD 0

/-- The numbers of the probes of a lane's `steal.any` still to be made, of deques granted to the context (R384). -/
def probesLeft (s : State) (ctx : Nat) (i : Item) : List Nat :=
  (List.range (rangeCount i.a)).filter fun k => decide (i.probes ≤ k) && tqGranted s ctx ((rangeFirst i.a + k) % 4096)

/-- The deques that a lane's operation still touches. -/
def tqTouches (s : State) (ctx opc : Nat) (i : Item) : List Nat :=
  if opc = 3 then (probesLeft s ctx i).map fun k => (rangeFirst i.a + k) % 4096 else [bitsOf i.a 11 0]

/-- Must a lane wait for a lower lane of its trigger that touches deque `d` (R385)? -/
def tqBehind (s : State) (ctx : Nat) (o : Op) (i : Item) (d : Nat) : Bool :=
  o.items.any fun j => decide (j.lane < i.lane) && (tqTouches s ctx o.opc j).contains d

/-- A lane's operation fills; one that returns an item acquires at device scope (R387). `y2` is its status word. -/
def tqFill (p : Pick) (r : TqOut) (y2 : Nat) (s : State) : State :=
  if r.poison then failItem s p.w p.op p.item codePoison
  else
    let s1 := if r.took then
        (acquireDiscards s (s.coreOf p.w.team) 3).modWarp p.w fun x => x.noteRead s.nextId
      else s
    finishWith s1 p.w p.op p.item.lane r.y (BitVec.ofNat 64 y2)

/-- The next probe of a lane's `steal.any` (R384). -/
def stealAnyLane (p : Pick) (s : State) : State :=
  let ctx := s.ctxOf p.w.team
  match probesLeft s ctx p.item with
  | [] => tqFill p (.plain 0 tqEmpty) tqEmpty s
  | k :: _ =>
    let d := (rangeFirst p.item.a + k) % 4096
    if tqBehind s ctx p.op p.item d then s
    else if p.item.trip ≠ 2 then homeOnce p (homeEndpoint (d % 256)) s
    else
      let r := tqTake s d false
      if r.1.took ∨ r.1.poison then tqFill p r.1 (d * 2 ^ 16) r.2
      else r.2.modWarp p.w fun x => x.modOp p.op.id fun o => o.modItem p.item.lane fun i =>
        { i with extra := [k + 1], trip := 0 }

/-- One lane of a tq operation: a push waits as a fence does at device scope (R387); then the operation takes effect at its
deque's home and fills. -/
def tqLane (p : Pick) (s : State) : State :=
  let ctx := s.ctxOf p.w.team
  let o := p.op
  let i := p.item
  let d := bitsOf i.a 11 0
  if i.stage ≠ .go ∨ ¬ p.warp.unfenced o.id then s
  else if o.opc = 3 then stealAnyLane p s
  else if tqBehind s ctx o i d then s
  else if o.opc = 0 ∧ ¬ fenceReady s p.w o.id 3 then s
  else if i.trip ≠ 2 then homeOnce p (homeEndpoint (d % 256)) s
  else if ¬ tqGranted s ctx d then failItem s p.w o i codeProtection
  else
    let r := if o.opc = 0 then tqPush s d i.b
      else if o.opc = 1 then tqTake s d true
      else if o.opc = 2 then tqTake s d false
      else if o.opc = 4 then tqSize s d
      else tqInit s ctx d i
    tqFill p r.1 r.1.y2 r.2

/-! ## The opcodes of ace (R390, R391) -/

/-- The direction bit, the device bit and the number of a selector (R390). -/
def selDir (a : W64) : Bool := bitOf a 8
def selDev (a : W64) : Bool := bitOf a 6
def selIndex (a : W64) : Nat := bitsOf a 5 0

/-- The checks of an ace trigger (R390, R391). -/
def aceCheck (_ : State) (_ : Team) (wr _ : Warp) (ls : List Nat) (_ : W32) : Option (Nat × BitVec 8 × List Nat) :=
  orElse (modeZero unitAce wr ls)
    (failLanes 8 codeIllegalOp ls fun l =>
      let a := wr.port unitAce offA l
      bitsOf a 63 9 != 0 || bitOf a 7 || (!selDev a && decide (15 < selIndex a)))

/-- Starts an ace operation; `waitlt` parks its lanes (R394). -/
def startAce (n : Nat) (s : State) (b : Begin) : State :=
  s.modWarp b.w fun x =>
    let x1 := { x with ops := x.ops ++ [homeOpOf unitAce n .go s x b] }
    if n = 4 then foldOver (fun x l => x.modLane l fun y => { y with wait := some (.bound b.id) }) x1 b.lanes else x1

/-- An operation of ace. -/
def aceOp (n : Nat) : OpSpec :=
  { unit := unitAce, opc := n, reads := readsNone, check := aceCheck,
    accept := fun _ _ x _ => x.ops.all fun o => !o.isSync, setsPc := setsNone, start := startAce n }

/-- ace.min (R391). -/
def opAceMin : OpSpec := aceOp 0

/-- min is issued. -/
def execAceMin (t : Trig) (s : State) : Host.Outcome State Fault Refusal := issueOne opAceMin t s

/-- ace.max (R391). -/
def opAceMax : OpSpec := aceOp 1

/-- max is issued. -/
def execAceMax (t : Trig) (s : State) : Host.Outcome State Fault Refusal := issueOne opAceMax t s

/-- ace.rd (R391, R393). -/
def opAceRd : OpSpec := aceOp 2

/-- rd is issued. -/
def execAceRd (t : Trig) (s : State) : Host.Outcome State Fault Refusal := issueOne opAceRd t s

/-- ace.set (R391). -/
def opAceSet : OpSpec := aceOp 3

/-- set is issued. -/
def execAceSet (t : Trig) (s : State) : Host.Outcome State Fault Refusal := issueOne opAceSet t s

/-- ace.waitlt (R391, R394). -/
def opAceWaitlt : OpSpec := aceOp 4

/-- waitlt is issued. -/
def execAceWaitlt (t : Trig) (s : State) : Host.Outcome State Fault Refusal := issueOne opAceWaitlt t s

/-- The operations of ace, by opcode. -/
def aceOps : List OpSpec := [opAceMin, opAceMax, opAceRd, opAceSet, opAceWaitlt]

/-! ## Registers and their copies (R388 to R394) -/

/-- The number of a register as a core names it: cluster × 16 + index, or 1,024 + index for a device register. -/
def aceKey (core : Nat) (a : W64) : Nat := if selDev a then 1024 + selIndex a else clusterOf core * 16 + selIndex a

/-- Register `k` at its home. -/
def State.aceReg (s : State) (k : Nat) : AceReg := s.eng.aces.getD k AceReg.start

/-- A copy before any change has reached it. -/
def AceCopy.start : AceCopy := { val := AceReg.start.val, dir := false, seqno := 0 }

/-- A core's copy of register `k`. -/
def Core.aceCopy (c : Core) (k : Nat) : AceCopy := c.aceCopies.getD k AceCopy.start

/-- The cores that hold a copy of register `k`. -/
def aceCores (k : Nat) : List Nat :=
  if 1024 ≤ k then List.range Config.cores
  else (List.range Config.coresPerCluster).map fun i => k / 16 * Config.coresPerCluster + i

/-- The clk within which a change reaches every copy (R392). -/
def aceBound (k : Nat) : Nat := if 1024 ≤ k then 400 else 24

/-- Does a copy lie strictly beyond `v` in the register's direction (R394)? -/
def beyond (c : AceCopy) (v : W64) : Bool := if c.dir then decide (v.toInt < c.val.toInt) else decide (c.val.toInt < v.toInt)

/-- Releases a lane that waits at a bound, with the value of its core's copy. -/
def releaseBound (s : State) (w : WRef) (o : Op) (i : Item) (v : W64) : State :=
  (fillVal s w unitAce o.id i.lane v 0).modWarp w fun x => (x.release i.lane).endItem o.id i.lane

/-- The lanes on a core that wait on register `k`. -/
def boundWaiters (s : State) (core k : Nat) : List (WRef × Op × Item) :=
  s.teams.entries.flatMap fun e =>
    if e.2.core = core ∧ e.2.status = .resident then
      (e.2.refs e.1).flatMap fun w => match s.warp? w with
        | none => []
        | some x => x.ops.flatMap fun o =>
          if o.unit = unitAce ∧ o.opc = 4 then
            (o.items.filter fun i => i.stage == .armed && aceKey core i.a == k).map fun i => (w, o, i)
          else []
    else []

/-- A core's copy of register `k` takes a change, and the lanes that wait on it are tested (R392, R394). -/
def putCopy (k : Nat) (r : AceCopy) (s : State) (core : Nat) : State :=
  let s1 := s.modCore core fun c => { c with aceCopies := c.aceCopies.insert k r }
  foldOver (fun s (a : WRef × Op × Item) => if beyond r a.2.2.b then releaseBound s a.1 a.2.1 a.2.2 r.val else s) s1
    (boundWaiters s1 core k)

/-- The changes of register `k` on their way to a core, up to number `n`, in order: their numbers rise as they are sent. -/
def aceWaiting (s : State) (core k n : Nat) : List (Nat × AceMsg) :=
  s.eng.aceMsgs.entries.filter fun e => e.2.core == core && e.2.reg == k && decide (e.2.seqno ≤ n)

/-- A change reaches its core's copy. -/
def aceArrives (s : State) (e : Nat × AceMsg) : State :=
  putCopy e.2.reg { val := e.2.val, dir := e.2.dir, seqno := e.2.seqno }
    (s.modEng fun g => { g with aceMsgs := g.aceMsgs.erase e.1 }) e.2.core

/-- A core's copy applies the changes up to number `n` in their order (R392). -/
def aceCatchUp (s : State) (core k n : Nat) : State := foldOver aceArrives s (aceWaiting s core k n)

/-- A team comes back on another core: the copies there take the changes that its old core's copies have had, so that what its
warps read does not move back (R393; notes/assumptions/97.md). -/
def aceFollow (s : State) (old core : Nat) : State :=
  foldOver (fun s (e : Nat × AceCopy) => if (aceCores e.1).contains core then aceCatchUp s core e.1 e.2.seqno else s) s
    (s.core old).aceCopies.entries

/-- Register `k` changes at its home: the copies of the cores in `now` change at once, after the changes on their way to
them; the others' changes are sent (R392). -/
def aceChange (s : State) (now : List Nat) (k : Nat) (val : W64) (dir : Bool) : State :=
  let n := (s.aceReg k).seqno + 1
  let s1 := s.modEng fun e => { e with aces := e.aces.insert k { val := val, dir := dir, seqno := n } }
  foldOver
    (fun s c =>
      if now.contains c then putCopy k { val := val, dir := dir, seqno := n } (aceCatchUp s c k n) c
      else
        let (id, s1) := takeId s
        let m : AceMsg := { core := c, reg := k, val := val, dir := dir, seqno := n, due := s.clk + aceBound k }
        s1.modEng fun e => { e with aceMsgs := e.aceMsgs.insert id m })
    s1 (aceCores k)

/-- Register `k` as an acquisition, a grant or a revoke leaves it, in every copy (R389). -/
def aceClear (s : State) (k : Nat) : State := aceChange s (aceCores k) k AceReg.start.val false

/-- ACE_BROADCAST_APPLY (R392, R394): the subject's change reaches its core's copy, in the order of the changes. -/
def execAceBroadcastApply (s : State) : Host.Outcome State Fault Refusal :=
  match s.subject with
  | .num id =>
    match s.eng.aceMsgs.find? id with
    | some m =>
      if s.eng.aceMsgs.vals.all fun n => n.core != m.core || n.reg != m.reg || decide (m.seqno ≤ n.seqno) then
        .next (aceArrives s (id, m))
      else .next s
    | none => .next s
  | _ => .next s

/-- May a team name the register of a selector: a device register granted to its context, or a register of its cluster that
its launch holds (R389)? -/
def acePermit (s : State) (w : WRef) (a : W64) : Bool :=
  match s.team? w.team with
  | none => false
  | some t =>
    if selDev a then (s.context? t.ctx).any fun c => c.aces.contains (selIndex a)
    else s.eng.aceOwner.find? (clusterOf t.core) == some t.launch

/-- `min` and `max` at the home (R391): the value after and the status. -/
def aceUpdate (s : State) (core k : Nat) (up : Bool) (v : W64) : W64 × Nat × State :=
  let r := s.aceReg k
  if r.dir ≠ up then (r.val, 2, s)
  else if (if up then decide (r.val.toInt < v.toInt) else decide (v.toInt < r.val.toInt)) then (v, 0, aceChange s [core] k v up)
  else (r.val, 1, s)

/-- One lane of an ace operation (R391) (DEDUCED, notes/assumptions/54.md). -/
def aceLane (p : Pick) (s : State) : State :=
  let core := s.coreOf p.w.team
  let i := p.item
  let k := aceKey core i.a
  let copy := (s.core core).aceCopy k
  if ¬ acePermit s p.w i.a then failItem s p.w p.op i codeProtection
  else if p.op.opc = 2 then finishWith s p.w p.op i.lane copy.val 0
  else if p.op.opc = 4 then
    if beyond copy i.b then releaseBound s p.w p.op i copy.val
    else s.modWarp p.w fun x => x.modOp p.op.id fun o => o.modItem i.lane fun i => { i with stage := .armed }
  else if i.trip ≠ 2 then homeOnce p (if selDev i.a then aceHome else (routerOfCore core, 4)) s
  else if p.op.opc = 3 then
    finishWith (aceChange s [core] k i.b (selDir i.a)) p.w p.op i.lane i.b 0
  else
    let r := aceUpdate s core k (p.op.opc == 1) i.b
    finishWith r.2.2 p.w p.op i.lane r.1 (BitVec.ofNat 64 r.2.1)

end Sys2Proof.Machine
end

