-- ==== Sys2Proof/Machine/HomeOps.lean ====
section
/-! DEFINITION. `bar.wait` at the home of its object (spec/06_copy_engine.md R250). -/

namespace Sys2Proof.Machine

/-- One lane of `bar.wait` at the object's home, where it is made or tested again. -/
def barWaitStep (p : Pick) (s : State) : State :=
  match p.item.place with
  | none => s
  | some q =>
    let ready := p.item.stage == .armed || (p.item.stage == .go && p.warp.unfenced p.op.id)
    if ¬ ready ∨ (s.team? p.w.team).all (fun t => t.status != .resident) then s
    else if p.item.trip ≠ 2 then requestOnce p q 0 s
    else barWaitLane p q s

end Sys2Proof.Machine
end

