-- ==== Sys2Proof/Machine/SupUnit.lean ====
section
/-! DEFINITION. The sup unit: control and status registers, the return from a handler, marks, counters, halts, trap records,
code invalidation and sync (spec/12_supervisor.md R440 to R453, R464). -/

namespace Sys2Proof.Machine

/-! ## Checks (R442) -/

/-- The numbers of the CSRs (R443). -/
def csrNumbers : List Nat :=
  [0x000, 0x010, 0x011, 0x018, 0x019, 0x01A, 0x01B, 0x020, 0x021, 0x022, 0x023, 0x028, 0x030, 0x031, 0x032,
   0x038, 0x039, 0x03A, 0x03B, 0x03C, 0x03D, 0x03E, 0x03F, 0x040, 0x041]

/-- Is a counter selector defined (R446)? -/
def counterDefined (a : W64) : Bool :=
  let c := bitsOf a 15 12
  let idx := bitsOf a 2 0
  let rest := bitsOf a 11 3
  bitsOf a 63 16 == 0 &&
    (if c = 0 then decide (bitsOf a 11 9 ≤ 5) && bitsOf a 7 5 == 0 && decide (bitsOf a 4 0 ≤ 17)
     else if c = 1 then rest == 0
     else if c = 2 then rest == 0 && decide (idx ≤ 5)
     else if c = 3 then rest == 0 && decide (idx ≤ 3)
     else if c = 4 then rest == 0 && decide (idx ≤ 4)
     else false)

/-- Does a lane of a sup operation fail with ILLEGAL-OP (R442)? (DEDUCED, notes/assumptions/81.md). -/
def supIllegal (n : Nat) (wr : Warp) (a : W64) : Bool :=
  if n = 0 then bitsOf a 63 12 != 0 || !csrNumbers.contains (bitsOf a 11 0)
  else if n = 1 then bitsOf a 11 0 != 0
  else if n = 2 then wr.handlers.isEmpty || bitsOf a 63 2 != 0 || bitsOf a 1 0 == 3
  else if n = 4 then !counterDefined a
  else if n = 5 then bitsOf a 63 1 != 0
  else if n = 6 then bitsOf a 63 5 != 0 || decide (7 ≤ bitsOf a 3 0)
  else if n = 7 then bitsOf a 63 32 != 0
  else false

/-- The checks of a sup trigger. -/
def supCheck (n : Nat) (_ : State) (_ : Team) (wr _ : Warp) (ls : List Nat) (_ : W32) : Option (Nat × BitVec 8 × List Nat) :=
  let a := fun l => wr.port unitSup offA l
  orElse (modeZero unitSup wr ls)
    (orElse (failLanes 8 codeIllegalOp ls fun l => supIllegal n wr (a l))
      (failLanes 8 codeMisaligned ls fun l => n == 7 && bitsOf (a l) 4 0 != 0))

/-! ## Control and status registers (R443) -/

/-- A service timeout or wait limit of a context: two to the power of a field of word 4 of its configuration (R437, R459;
spec/13_loader.md R480). -/
def limitOf (s : State) (ctx hi lo : Nat) : Nat := 2 ^ bitsOf (s.cfgWord ctx 4) hi lo

/-- STO0, STO1, STO2 and MWL. -/
def sto0 (s : State) (ctx : Nat) : Nat := limitOf s ctx 31 27
def sto1 (s : State) (ctx : Nat) : Nat := limitOf s ctx 26 22
def sto2 (s : State) (ctx : Nat) : Nat := limitOf s ctx 21 16
def mwl (s : State) (ctx : Nat) : Nat := limitOf s ctx 15 10

/-- What a context holds in a CSR of its own. -/
def csrOfContext (s : State) (ctx n : Nat) : W64 :=
  let num := fun (k : Nat) => BitVec.ofNat 64 k
  if n = 0x018 then num (sto0 s ctx)
  else if n = 0x019 then num (sto1 s ctx)
  else if n = 0x01A then num (sto2 s ctx)
  else if n = 0x01B then num (mwl s ctx)
  else if n = 0x020 ∨ n = 0x021 then num ctx
  else if n = 0x022 then (if s.funcOf ctx = 64 then 0 else num (64 + s.funcOf ctx))
  else if n = 0x023 then
    match s.context? ctx with
    | some c => num ((if bitOf (s.cfgWord ctx 4) 1 then 2 else 0) + if c.debugQueue.isSome then 1 else 0)
    | none => 0
  else if n = 0x030 then num (bitsOf (s.cfgWord ctx 3) 63 12 * 2 ^ 12)
  else if n = 0x031 then num (2 ^ bitsOf (s.cfgWord ctx 3) 4 0)
  else
    match s.context? ctx with
    | some c => num c.trPos
    | none => 0

/-- The value of a CSR for a warp, at a bundle address. -/
def readCsr (s : State) (w : WRef) (x : Warp) (pc : W32) (n : Nat) : W64 :=
  let ctx := s.ctxOf w.team
  if n = 0x000 then x.wctl
  else if n = 0x010 then zext32 (tvec s ctx pc 0)
  else if n = 0x011 then zext32 (tvec s ctx pc 1)
  else if n = 0x028 then BitVec.ofNat 64 (s.core (s.coreOf w.team)).permits
  else if 0x038 ≤ n ∧ n ≤ 0x03F then (s.func (s.funcOf ctx)).evsel.getD (n - 0x038) 0
  else if n = 0x040 ∨ n = 0x041 then
    match s.launchOf w.team with
    | some l => if n = 0x040 then l.data else l.arg
    | none => 0
  else csrOfContext s ctx n

/-! ## Counters (R446) -/

/-- The value of a counter for a lane. -/
def readCounter (s : State) (w : WRef) (x : Warp) (l : Nat) (a : W64) : W64 :=
  let ctx := s.ctxOf w.team
  let core := s.coreOf w.team
  let c := bitsOf a 15 12
  let idx := bitsOf a 2 0
  if c = 0 then
    let key := (bitsOf a 11 9 * 18 + bitsOf a 4 0) * 2 + bitsOf a 8 8
    zext32 ((x.half (x.halfOf l)).counters.getD key 0)
  else if c = 1 then ((s.core core).pmcs.getD idx 0).setWidth 64
  else if c = 2 then (if s.funcOf ctx = 64 then (s.mem.errors.getD idx 0).setWidth 64 else 0)
  else if c = 3 then
    if s.funcOf ctx = 64 then
      (if idx = 0 then (s.eng.fab.deflections.getD (routerOfCore core) 0).setWidth 64
       else if idx = 1 then s.eng.fab.lostCount.setWidth 64
       else if idx = 2 then s.eng.fab.overflowCount.setWidth 64
       else s.eng.fab.replayCount.setWidth 64)
    else 0
  else
    match s.context? ctx with
    | none => 0
    | some k =>
      (if idx = 0 then x.committed else if idx = 1 then k.trDrops else if idx = 2 then k.nrDrops
       else if idx = 3 then k.chanFull else k.fqRetries).setWidth 64

/-! ## The trap record (R444) -/

/-- The handler whose record bit 4 of a selector names. -/
def recordHolder (x : Warp) (warpRung : Bool) : Option Handler :=
  if warpRung then firstWhere (fun h => h.rung == 0) x.handlers else x.handlers.head?

/-- An item of a trap record, as a lane reads it. -/
def recordItem (h : Handler) (l k : Nat) : W64 :=
  let r := h.trap
  if k = 0 then BitVec.ofNat 64 (r.code.toNat * 2 ^ 16 + r.rung * 2 ^ 8 + r.cls)
  else if k = 1 then r.faultMask.setWidth 64
  else if k = 2 then r.laneMask
  else if k = 3 then zext32 (h.tpc.getD l 0)
  else if k = 4 then r.detail.getD l 0
  else if k = 5 then BitVec.ofNat 64 (r.clk % 2 ^ 48)
  else BitVec.ofNat 64 r.timeoutRung

/-! ## Halts (R463, R464) -/

/-- The warps of a group of resident and saved teams. -/
def groupWarps (s : State) (p : Nat → Team → Bool) : List WRef :=
  s.teams.entries.flatMap fun e => if p e.1 e.2 then e.2.refs e.1 else []

/-- A request to halt a group: its common edge lies at least 64 clk ahead. Answers the halt's id (DEDUCED, notes/assumptions/53.md). -/
def requestHalt (s : State) (ctx : Nat) (warps : List WRef) (issuer : Option WRef) : Nat × State :=
  let (id, s1) := takeId s
  let g : HaltGroup :=
    { ctx := ctx, scope := 0, launch := 0, warps := warps, edge := s.clk + 64 + Config.freeNat s1.freeCtr, halted := false, issuer := issuer }
  (id, { s1 with freeCtr := s1.freeCtr + 1 }.modLdr fun l => { l with halts := l.halts.insert id g })

/-- `halt` of a warp: the group's halt is requested and reported, where the context has a debugger. -/
def haltBy (s : State) (w : WRef) (pc : W32) (a : W64) : W64 × State :=
  let ctx := s.ctxOf w.team
  match (s.context? ctx).bind fun c => c.debugQueue with
  | none => (1, s)
  | some q =>
    let r := requestHalt s ctx (if bitOf a 0 then groupWarps s fun t _ => t == w.team else [w]) (some w)
    (0, r.2.modLdr fun l => { l with debugReports := l.debugReports ++ [(q, r.1, pc)] })

/-! ## The start of an operation -/

/-- The item of a lane whose fill is known: it comes in the clk after the commit. -/
def knownItem (s : State) (l : Nat) (y y2 : W64) : Item :=
  { Item.start l 0 0 0 s.mem.epoch with stage := .go, extra := [y.toNat, y2.toNat] }

/-- Starts a sup operation whose lanes fill with known values. -/
def supKnown (n : Nat) (s : State) (b : Begin) (res : Nat → W64 × W64) : State :=
  s.modWarp b.w fun x =>
    { x with
      ops := x.ops ++
        [{ id := b.id, unit := unitSup, opc := n, mode := 0, pc := b.pc, clk := s.clk, info := [],
           items := b.lanes.map fun l => knownItem s l (res l).1 (res l).2 }] }

/-- A trace record of a warp at a bundle. -/
def traceWarp (s : State) (w : WRef) (type : Nat) (value : W64) (pc : W32) : TraceOut × State :=
  match s.team? w.team, s.warp? w with
  | some t, some x =>
    trace s
      { ctx := t.ctx, type := type, code := 0, team := t.index, core := t.core, quad := x.quad, slot := x.slot, value := value, pc := pc }
  | _, _ => (.off, s)

/-- Starts csr.rd, csr.wr, mark, cnt.rd, halt or fault.rd: its effect is made and its fill known (R441). -/
def startKnown (n : Nat) (s : State) (b : Begin) : State :=
  match s.warp? b.w with
  | none => s
  | some x =>
    let a := fun l => x.port unitSup offA l
    let l0 := b.lanes.headD 0
    if n = 0 then supKnown n s b fun l => (readCsr s b.w x b.pc (bitsOf (a l) 11 0), 0)
    else if n = 1 then
      let v := x.port unitSup offB (lastD b.lanes 0)
      (supKnown n s b fun _ => (x.wctl, 0)).modWarp b.w fun y => { y with schk := bitOf v 1 }
    else if n = 3 then
      let r := traceWarp s b.w 0x01 (a l0) b.pc
      supKnown n r.2 b fun _ => match r.1 with
        | .off => (0, 3)
        | .dropped i => (BitVec.ofNat 64 i, 4)
        | .written i => (BitVec.ofNat 64 i, 0)
    else if n = 4 then supKnown n s b fun l => (readCounter s b.w x l (a l), 0)
    else if n = 5 then
      let r := haltBy s b.w b.pc (a l0)
      supKnown n r.2 b fun _ => (0, r.1)
    else
      supKnown n s b fun l => match recordHolder x (bitOf (a l) 4) with
        | some h => (recordItem h l (bitsOf (a l) 3 0), 0)
        | none => (0, 2)

/-- An operation of sup that waits; the others' fills are known. -/
def supOp (n : Nat) : OpSpec :=
  { unit := unitSup, opc := n, reads := readsNone, check := supCheck n, accept := fun _ _ x _ => x.ops.all fun o => !o.isSync,
    setsPc := setsNone,
    start := if n = 2 ∨ n = 7 ∨ n = 8 then startHome unitSup n .go else startKnown n }

/-- sup.csr.rd (R443). -/
def opSupCsrRd : OpSpec := supOp 0

/-- csr.rd is issued. -/
def execSupCsrRd (t : Trig) (s : State) : Host.Outcome State Fault Refusal := issueOne opSupCsrRd t s

/-- sup.csr.wr (R443). -/
def opSupCsrWr : OpSpec := supOp 1

/-- csr.wr is issued. -/
def execSupCsrWr (t : Trig) (s : State) : Host.Outcome State Fault Refusal := issueOne opSupCsrWr t s

/-- sup.tret (R445). -/
def opSupTret : OpSpec := supOp 2

/-- tret is issued. -/
def execSupTret (t : Trig) (s : State) : Host.Outcome State Fault Refusal := issueOne opSupTret t s

/-- sup.mark (R453). -/
def opSupMark : OpSpec := supOp 3

/-- mark is issued. -/
def execSupMark (t : Trig) (s : State) : Host.Outcome State Fault Refusal := issueOne opSupMark t s

/-- sup.cnt.rd (R446). -/
def opSupCntRd : OpSpec := supOp 4

/-- cnt.rd is issued. -/
def execSupCntRd (t : Trig) (s : State) : Host.Outcome State Fault Refusal := issueOne opSupCntRd t s

/-- sup.halt (R464). -/
def opSupHalt : OpSpec := supOp 5

/-- halt is issued. -/
def execSupHalt (t : Trig) (s : State) : Host.Outcome State Fault Refusal := issueOne opSupHalt t s

/-- sup.fault.rd (R444). -/
def opSupFaultRd : OpSpec := supOp 6

/-- fault.rd is issued. -/
def execSupFaultRd (t : Trig) (s : State) : Host.Outcome State Fault Refusal := issueOne opSupFaultRd t s

/-- sup.icinval (R449). -/
def opSupIcinval : OpSpec := supOp 7

/-- icinval is issued. -/
def execSupIcinval (t : Trig) (s : State) : Host.Outcome State Fault Refusal := issueOne opSupIcinval t s

/-- sup.sync (R450). -/
def opSupSync : OpSpec := supOp 8

/-- sync is issued. -/
def execSupSync (t : Trig) (s : State) : Host.Outcome State Fault Refusal := issueOne opSupSync t s

/-- The operations of sup, by opcode. -/
def supOps : List OpSpec :=
  [opSupCsrRd, opSupCsrWr, opSupTret, opSupMark, opSupCntRd, opSupHalt, opSupFaultRd, opSupIcinval, opSupSync]

/-! ## How the waiting operations end -/

/-- The banked units' elements that the handler's own operations left, but for `tret`'s: unit, offset, lane, element
(DEDUCED, notes/assumptions/88.md). -/
def handlerElems (x : Warp) (id : Nat) : List (Nat × Nat × Nat × Elem) :=
  bankedUnits.flatMap fun u =>
    let p := x.unit u
    let mine := fun l => u == unitSup && p.last.find? l == some id
    ((p.y.entries.map fun e => (u, offY, e.1, e.2)) ++ (p.y2.entries.map fun e => (u, offY2, e.1, e.2))).filter fun e =>
      !mine e.2.2.1

/-- `tret` ends its handler once the operations that the handler triggered on the banked units have filled; a tag among
them is raised instead (R445). -/
def tretPerform (w : WRef) (x : Warp) (o : Op) (s : State) : State :=
  let es := handlerElems x o.id
  if s.clk ≤ o.clk ∨ es.any fun e => !e.2.2.2.filled then s
  else
    let s1 := s.modWarp w fun x => x.dropOp o.id
    match es.filter fun e => e.2.2.2.tag != 0 with
    | e :: r =>
      let code := e.2.2.2.tag
      let same := (e :: r).filter fun f => f.2.2.2.tag == code
      let lanes := laneNums.filter fun l => same.any fun f => f.2.2.1 == l
      takeTrap s1 w
        { TrapReq.pre code 6 0 lanes o.pc with
          reads := same.map fun f => { unit := f.1, off := f.2.1, lane := f.2.2.1, idx := 0 },
          detail := foldOver
            (fun (d : FMap W64) l => d.insert l (tagDetail x code
              ((same.filter fun f => f.2.2.1 == l).map fun f => { unit := f.1, off := f.2.1, lane := l, idx := 0 }))) .empty lanes }
    | [] =>
      let a := (o.items.head?.map fun i => i.a).getD 0
      let s2 := (traceWarp s1 w 0x03 a o.pc).2
      returnTrap s2 w (bitsOf a 1 0)

/-- Have a warp's writes before number `id` performed at device scope (R449)? -/
def writesDone (s : State) (w : WRef) (x : Warp) (id : Nat) : Bool :=
  ((x.earlier id).all fun o => !(isMem o.unit && (isStore o.opc || isAtomic o.opc))) &&
    (x.sq.all fun q => decide (id ≤ q)) &&
    s.mem.writes.entries.all fun e =>
      !(e.2.warp == some w && decide (e.2.op < id)) || writeWithin s (s.coreOf w.team) 3 e.1 e.2

/-- `icinval` drops its lanes' lines once the warp's earlier writes have performed (R449). -/
def icinvalPerform (w : WRef) (x : Warp) (o : Op) (s : State) : State :=
  if ¬ writesDone s w x o.id then s
  else
    foldOver
      (fun s (i : Item) => finishWith (dropLine s (s.coreOf w.team) (s.ctxOf w.team) (lo32 i.a)) w o i.lane 0 0) s o.items

/-- `sync` fills when the warp's jobs before it have completed and its stores are out, and then fences at device scope (R450;
spec/01_engines_together.md R63). -/
def syncPerform (w : WRef) (o : Op) (s : State) : State :=
  match s.team? w.team with
  | none => s
  | some t =>
    if (t.jobs.any fun b => b.warp == w.warp && decide (b.trig < o.id)) ∨ ¬ fenceReady s w o.id 3 then s
    else if lostBefore s w o.id then failLost s w o
    else
      let s1 := acquireDiscards s t.core 3
      foldOver (fun s (i : Item) => finishWith s w o i.lane 0 0) s1 o.items

/-- The fill of known values, in the clk after the commit (R441). -/
def knownPerform (w : WRef) (o : Op) (s : State) : State :=
  if s.clk ≤ o.clk then s
  else
    foldOver
      (fun s (i : Item) => finishWith s w o i.lane (BitVec.ofNat 64 (i.extra.headD 0)) (BitVec.ofNat 64 (i.extra.getD 1 0))) s
      o.items

/-- A sup operation goes on. -/
def supPerform (p : Pick) (s : State) : State :=
  if p.op.opc = 2 then tretPerform p.w p.warp p.op s
  else if p.op.opc = 7 then icinvalPerform p.w p.warp p.op s
  else if p.op.opc = 8 then syncPerform p.w p.op s
  else knownPerform p.w p.op s

/-- The operation that the subject's lane belongs to acts at its home. -/
def homeLane (p : Pick) (s : State) : State :=
  if p.op.unit = unitSnap then
    (if p.op.opc = 2 ∨ p.op.opc = 8 then s else snapPerform p.w p.warp p.op s)
  else if p.op.unit = unitTell then tellLane p s
  else if p.op.unit = unitTq then tqLane p s
  else if p.op.unit = unitAce then aceLane p s
  else if p.op.unit = unitSup then supPerform p s
  else if p.op.unit = unitCp then
    (if p.op.opc = 12 then barWaitStep p s else if p.op.opc = 16 then pollPerform p.w p.op s else s)
  else s

/-- HOME_OPERATION_PERFORM (spec/09_tell_unit.md R354; spec/10_team_scheduler.md R385): an operation of tell, tq or ace is performed at
its home; so are those of snap, of barrier objects and `poll`, and the operations of sup end. -/
def execHomeOperationPerform (s : State) : Host.Outcome State Fault Refusal := onItem homeLane s

end Sys2Proof.Machine
end

