-- ==== Sys2Proof/Machine/Walker.lean ====
section
/-! DEFINITION. The walker: team indices, which core fits a team, starts, resumes, and the requests that make room
(spec/10_team_scheduler.md R366 to R374, R389; spec/12_supervisor.md R448, R458). -/

namespace Sys2Proof.Machine

/-! ## Team indices (R366) -/

/-- Mixed-radix digits of `n`, the least significant first. -/
def digitsLow (n : Nat) : List Nat → List Nat
  | [] => []
  | e :: r => n % e :: digitsLow (n / e) r

/-- The product of extents. -/
def product : List Nat → Nat
  | [] => 1
  | e :: r => e * product r

/-- The digits with the last level least significant. -/
def rowDigits (n : Nat) (es : List Nat) : List Nat := (digitsLow n es.reverse).reverse

/-- The digits of the serpentine order. -/
def serpentine (n : Nat) (es : List Nat) : List Nat :=
  mapIdx
    (fun k d =>
      let q := n / product (es.drop k)
      if q % 2 = 0 then d else es.getD k 1 - 1 - d)
    (rowDigits n es)

/-- The bits of a Morton code from the lowest: bit number and level. -/
def mortonBits (es : List Nat) : List (Nat × Nat) :=
  (List.range 32).flatMap fun j =>
    ((List.range es.length).reverse.filter fun k => decide (j < sigBits (es.getD k 1 - 1))).map fun k => (j, k)

/-- The tuple that a Morton code decodes to. -/
def mortonDecode (m : Nat) (es : List Nat) : List Nat :=
  let set := (mapIdx (fun t (b : Nat × Nat) => (m.testBit t, b)) (mortonBits es)).filter Prod.fst
  mapIdx (fun k _ => foldOver (fun n (x : Bool × Nat × Nat) => if x.2.2 = k then n + 2 ^ x.2.1 else n) 0 set) es

/-- The `n`-th decoded tuple within the extents, from code `m` on. -/
def mortonFind (es : List Nat) (n m : Nat) : Nat → List Nat
  | 0 => []
  | fuel + 1 =>
    let d := mortonDecode m es
    if (mapIdx (fun k x => decide (x < es.getD k 1)) d).all id then
      (if n = 0 then d else mortonFind es (n - 1) (m + 1) fuel)
    else mortonFind es n (m + 1) fuel

/-- The nest index of team `n`: i0 to i3, unused levels 0. -/
def nestIndex (order n : Nat) (es : List Nat) : List Nat :=
  let d := if order = 0 then rowDigits n es
    else if order = 1 then digitsLow n es
    else if order = 2 then serpentine n es
    else mortonFind es n 0 (2 ^ (mortonBits es).length)
  (List.range 4).map fun k => d.getD k 0

/-! ## What fits (R368) -/

/-- The teams that take up resources of a core, but for `ex`. -/
def occupants (s : State) (core : Nat) (ex : List Nat) : List (Nat × Team) :=
  s.teams.entries.filter fun e => e.2.core == core && e.2.status != .saved && !ex.contains e.1

/-- The warps of a team in order: role, number within the role, budget. -/
def roleWarps (roles : List (Nat × Nat)) : List (Nat × Nat × Nat) :=
  (mapIdx (fun k (r : Nat × Nat) => (List.range r.1).map fun i => (k, i, r.2)) roles).flatten

/-- The budgets of warps on a quad: of a team to be placed, and of resident ones. -/
def quadNeeds (ws : List (Nat × Nat × Nat)) (q : Nat) : List Nat :=
  ((mapIdx (fun i (w : Nat × Nat × Nat) => (i, w.2.2)) ws).filter fun x => x.1 % 4 == q).map Prod.snd

/-- The warps on a quad of a core. -/
def quadWarps (l : List (Nat × Team)) (q : Nat) : List Warp := (l.flatMap fun e => e.2.warps).filter fun x => x.quad == q

/-- Do slots and budgets of every quad suffice? -/
def quadsFit (l : List (Nat × Team)) (roles : List (Nat × Nat)) : Bool :=
  let ws := roleWarps roles
  (List.range 4).all fun q =>
    let need := quadNeeds ws q
    let have_ := quadWarps l q
    decide (have_.length + need.length ≤ Config.warpSlots) &&
      decide (sumOf (have_.map fun x => x.budget) + sumOf need ≤ Config.quadRegs)

/-- The lowest free team-store range of a size. -/
def tsPlace (l : List (Nat × Team)) (size : Nat) : Option Nat :=
  let rs := (l.map fun e => (e.2.tsBase, e.2.tsSize)).filter fun r => r.2 != 0
  let free := (0 :: rs.map fun r => r.1 + r.2).filter fun b =>
    decide (b + size ≤ 2 ^ 19) && rs.all fun r => decide (b + size ≤ r.1) || decide (r.1 + r.2 ≤ b)
  match free with
  | [] => none
  | b :: r => if size = 0 then some 0 else some (foldOver Nat.min b r)

/-- The launch of a team. -/
def launchAt (s : State) (t : Team) : Option Launch := s.ldr.launches.find? t.launch

/-- Does a core fit a team of launch `j`, with the teams of `ex` gone? (DESIGN CHOICE, notes/assumptions/27.md). -/
def fits (s : State) (j : Nat) (l : Launch) (core : Nat) (ex : List Nat) : Bool :=
  let here := occupants s core ex
  let cluster := (List.range 4).flatMap fun i => occupants s (clusterOf core * 4 + i) ex
  quadsFit here l.roles && (tsPlace here (l.tsu * 4096)).isSome && (!l.matrix || here.all fun e => !e.2.owner) &&
    (cluster.all fun e => (launchAt s e.2).any fun k => k.fuse == l.fuse) &&
    (!l.acec || match s.eng.aceOwner.find? (clusterOf core) with
      | none => true
      | some k => k == j)

/-- The throttle level of the router that serves a core. -/
def injLevel (s : State) (core : Nat) : Nat := (s.router (routerOfCore core)).level

/-- The partition's cores in order, from the one after `last`. -/
def searchOrder (cores : List Nat) (last : Option Nat) : List Nat :=
  match last with
  | none => cores
  | some c => (cores.filter fun k => decide (c < k)) ++ cores.filter fun k => decide (k ≤ c)

/-- The core that the walker chooses, if one fits (R369). -/
def chooseCore (s : State) (j : Nat) (l : Launch) : Option Nat :=
  let cores := (s.func (s.funcOf l.ctx)).cores.filter fun c => fits s j l c []
  let low := minOf (cores.map (injLevel s)) 0
  (searchOrder (cores.filter fun c => injLevel s c == low) l.lastCore).head?

/-! ## Whom to place (R370, R374) -/

/-- The least number from `n` on that a list lacks. -/
def leastFree (l : List Nat) (n : Nat) : Nat → Nat
  | 0 => n
  | k + 1 => if l.contains n then leastFree l (n + 1) k else n

/-- The lowest unfinished team of a launch. -/
def lowestUnfinished (l : Launch) : Nat := leastFree l.retired 0 (l.retired.length + 1)

/-- Something to place: the launch, a saved team or none for the next one, its index. -/
structure Candidate where
  launch : Nat
  team : Option Nat
  index : Nat
  deriving DecidableEq, Repr

/-- May teams of a launch be placed: it is not over, its edges are satisfied, its context not stopped? -/
def placeable (s : State) (l : Launch) : Bool :=
  (match l.state with
    | .ended _ => false
    | _ => true) &&
    !s.ldr.workStopped && l.killed.isNone && (l.edges.all fun e => e.done) && (s.context? l.ctx).any fun c => !c.stopped

/-- Has every write of a team's warps been acknowledged? -/
def teamSettled (s : State) (team : Nat) : Bool :=
  s.mem.writes.vals.all fun m => m.lost || match m.warp with
    | some w => w.team != team
    | none => true

/-- May a saved team come back: one saved for its monitor waits only once one of them is satisfied (spec/05_memory_ports.md
R214)? -/
def returns (s : State) (team : Nat) (t : Team) : Bool :=
  t.status == .saved && !t.dead && (!t.swapped || t.wake) && teamSettled s team

/-- The candidates of a launch: its saved teams, and its next team. -/
def candidatesOf (s : State) (j : Nat) (l : Launch) : List Candidate :=
  if ¬ placeable s l then []
  else
    ((s.teams.entries.filter fun e => e.2.launch == j && returns s e.1 e.2).map fun e =>
      { launch := j, team := some e.1, index := e.2.index }) ++
    (if l.next < l.total then [{ launch := j, team := none, index := l.next }] else [])

/-- The place of a candidate in the order of R370, as numbers to be compared from the left (DEDUCED, notes/assumptions/55.md). -/
def rankOf (s : State) (c : Candidate) : List Nat :=
  match s.ldr.launches.find? c.launch with
  | some l => [if c.index = lowestUnfinished l then 0 else 1, 7 - l.prio, c.launch, if c.team.isSome then 0 else 1, c.index]
  | none => []

/-- Does a list of numbers come before another? -/
def comesBefore : List Nat → List Nat → Bool
  | a :: r, b :: t => decide (a < b) || (a == b && comesBefore r t)
  | _, _ => false

/-- Puts a candidate into a list that is in order. -/
def insertCand (s : State) (c : Candidate) : List Candidate → List Candidate
  | [] => [c]
  | x :: r => if comesBefore (rankOf s c) (rankOf s x) then c :: x :: r else x :: insertCand s c r

/-- The candidates of a function in the order in which they are served. -/
def candidates (s : State) (f : Nat) : List Candidate :=
  let l := s.ldr.launches.entries.flatMap fun e => if s.funcOf e.2.ctx = f then candidatesOf s e.1 e.2 else []
  foldOver (fun r c => insertCand s c r) [] l

/-! ## Starting a team (R371) -/

/-- The start value of a lane. -/
def startLane (pc : W32) (nest : List Nat) (role num w l : Nat) : Lane :=
  let v : List (Nat × Nat) := (mapIdx (fun k x => (k, x)) nest) ++ [(4, role), (5, num), (6, 64 * w + l)]
  { pc := pc, age := 0, live := true, wait := none, owes := none, nfr := 0, rstack := [],
    regs := foldOver (fun (m : FMap W32) (e : Nat × Nat) => m.setD e.1 0 (BitVec.ofNat 32 e.2)) .empty v }

/-- The least warp slot of a quad that is not taken. -/
def freeSlot (taken : List Nat) : Nat := leastFree taken 0 16

/-- Are all units of a core's quads apart (spec/02_bundles_and_ports.md R94)? -/
def unshared (s : State) (core : Nat) : Bool := s.ldr.grade.pairs.all fun e => e.1 / 4 != core || e.2 == 0

/-- A warp at team start (spec/01_engines_together.md R29). -/
def startWarp (s : State) (l : Launch) (i : Image) (core n w slot : Nat) (r : Nat × Nat × Nat) : Warp :=
  let entry := BitVec.ofNat 32 (i.slot % 16 * 2 ^ 28) ||| bundleAddr (l.entries.getD r.1 0)
  let nest := nestIndex l.order n l.extents
  { role := r.1, roleNum := r.2.1, quad := w % 4, slot := slot, budget := r.2.2,
    lanes := laneNums.map fun k => startLane entry nest r.1 r.2.1 w k,
    guards := List.replicate 15 0, halves := List.replicate 2 { levels := [], counters := .empty },
    sticky := 0, excNow := 0, excClk := 0, sched := i.step == Config.steppingId && unshared s core, schk := i.schk, w32 := i.w32,
    boost := false, prio := l.prio, ports := .empty, poison := [], streams := .empty, fills := [], ops := [], sq := [], txn := none,
    lastRead := 0, delayTo := 0, yieldTo := 0, replayTo := 0, replayPc := none, backoffTo := 0, entryTo := 0, marker := [], backoff := 0,
    readyWait := 0, lastHalf := 1, handlers := [], split := none, halted := none, held := [], owesPermit := false, committed := 0 }

/-- The warps of a team, each in the lowest free slot of its quad. -/
def startWarps (s : State) (l : Launch) (i : Image) (core n : Nat) (taken : List (Nat × Nat)) (w : Nat) :
    List (Nat × Nat × Nat) → List Warp
  | [] => []
  | r :: rest =>
    let q := w % 4
    let slot := freeSlot ((taken.filter fun x => x.1 == q).map Prod.snd)
    startWarp s l i core n w slot r :: startWarps s l i core n ((q, slot) :: taken) (w + 1) rest

/-- The slots taken on a core. -/
def takenSlots (l : List (Nat × Team)) : List (Nat × Nat) := (l.flatMap fun e => e.2.warps).map fun x => (x.quad, x.slot)

/-- A core begins to run a context of a function: a world switch where it ran another (spec/12_supervisor.md R448). -/
def worldSwitch (s : State) (core f : Nat) : State :=
  let k := s.core core
  if k.func = f then s
  else
    let s1 := s.modFunc k.func fun g => { g with pmcs := g.pmcs.insert core k.pmcs }
    s1.modCore core fun k => { k with func := f, pmcs := (s1.func f).pmcs.getD core (List.replicate 8 0) }

/-- A launch acquires a cluster's bound registers, if it has not (R389). -/
def acquireCluster (s : State) (j : Nat) (l : Launch) (core : Nat) : State :=
  let c := clusterOf core
  if ¬ l.acec ∨ s.eng.aceOwner.find? c = some j then s
  else
    let s1 := foldOver (fun s i => aceClear s (c * 16 + i)) s (List.range 16)
    s1.modEng fun e => { e with aceOwner := e.aceOwner.insert c j }

/-- The clusters whose registers a launch still holds through a team there, or one saved from there. -/
def heldClusters (s : State) (j : Nat) : List Nat :=
  (s.teams.vals.filter fun t => t.launch == j).map fun t => clusterOf t.core

/-- A launch gives up the registers of clusters that it has left (R389). -/
def leaveClusters (s : State) (j : Nat) : State :=
  let stays := heldClusters s j
  s.modEng fun e => { e with aceOwner := e.aceOwner.filter fun c k => k != j || stays.contains c }

/-- A trace record of a team. -/
def traceTeam (s : State) (t : Team) (type : Nat) (value : Nat) : State :=
  (trace s
    { ctx := t.ctx, type := type, code := 0, team := t.index, core := t.core, quad := 0, slot := 0,
      value := BitVec.ofNat 64 value, pc := 0 }).2

/-- A team that starts joins the halted groups of its launch or context (spec/12_supervisor.md R463). -/
def joinHalts (s : State) (team : Nat) (t : Team) : State :=
  let covers := fun (g : HaltGroup) => (g.scope == 2 && g.launch == t.launch) || (g.scope == 3 && g.ctx == t.ctx)
  let gs := s.ldr.halts.vals.filter covers
  if gs.isEmpty then s
  else
    let s1 := s.modLdr fun d =>
      { d with halts := d.halts.mapVals fun _ g => if covers g then { g with warps := g.warps ++ t.refs team } else g }
    if gs.any fun g => g.halted then
      s1.modTeam team fun t => { t with warps := t.warps.map fun x => { x with halted := some s.clk } }
    else s1

/-- A cluster runs fused or unfused teams: where that changes, its L1s begin empty (spec/05_memory_ports.md R219; notes/assumptions/27.md). -/
def setFusion (s : State) (core : Nat) (fuse : Bool) : State :=
  let first := clusterOf core * 4
  if (s.core first).fused = fuse then s
  else foldOver (fun s i => s.modCore (first + i) fun k => { k with l1 := .empty, fused := fuse }) s (List.range 4)

/-- The next team of a launch starts on a core, in one step (R371). -/
def startTeam (s : State) (j : Nat) (l : Launch) (core : Nat) : State :=
  match s.ldr.images.find? l.image with
  | none => s
  | some i =>
    let here := occupants s core []
    let s1 := acquireCluster (discardNc (setFusion (worldSwitch s core (s.funcOf l.ctx)) core l.fuse) core) j l core
    let (id, s2) := takeId s1
    let t : Team :=
      { launch := j, index := l.next, ctx := l.ctx, core := core, status := .resident,
        warps := startWarps s l i core l.next (takenSlots here) 0 (roleWarps l.roles),
        tsBase := (tsPlace here (l.tsu * 4096)).getD 0, tsSize := l.tsu * 4096, tstore := .empty, tsPoison := [], arb := [],
        bars := .empty, scale := .empty, scalePrev := .empty, scaleClk := 0, pins := .empty, mx := none, owner := l.matrix,
        jobs := [], lastIssue := s.clk, lastCommit := s.clk, barWait := 0, monWait := 0, savedAt := 0, readyAt := s.clk + 1, wake := false,
        swapped := false, dead := false, startedAt := s.clk, mxFailed := [], mxWaited := .empty }
    let s3 := joinHalts (traceTeam (s2.setTeam id t) t 0x08 j) id t
    s3.modLdr fun d =>
      { d with
        launches := d.launches.insert j
          { l with
            state := .running, next := l.next + 1, lastCore := some core,
            snapTime := if l.snap && l.snapTime.isNone then some s.eng.snap.published else l.snapTime } }

/-! ## Resuming a team (spec/12_supervisor.md R458) -/

/-- A time of a saved warp, moved by the clk for which it stood. -/
def movedTime (delta t : Nat) : Nat := if t = 0 then 0 else t + delta

/-- The end of a handler-entry delay: of a trap in the last clk before the save all 8 clk are left, as the example of R458 has it
(DEDUCED, notes/assumptions/87.md). -/
def movedEntry (delta savedAt t : Nat) : Nat := if t = savedAt + 7 then t + delta + 1 else movedTime delta t

/-- A translation that waits on a fault is tried again after the resume (spec/05_memory_ports.md R233). -/
def Stage.onceMore : Stage → Stage
  | .paged _ => .walk
  | .retry _ => .walk
  | st => st

/-- A warp comes back: its remaining latencies, delays and holds run from now; in a handler it needs a permit. -/
def resumeWarp (delta savedAt slot : Nat) (x : Warp) : Warp :=
  { x with
    slot := slot, ops := x.ops.map fun o => { o with items := o.items.map fun i => { i with stage := i.stage.onceMore } },
    fills := x.fills.map fun f => { f with due := f.due + delta },
    delayTo := movedTime delta x.delayTo, yieldTo := movedTime delta x.yieldTo, entryTo := movedEntry delta savedAt x.entryTo,
    replayTo := movedTime delta x.replayTo, backoffTo := movedTime delta x.backoffTo, split := none,
    halted := x.halted.map fun e => e + delta,
    owesPermit := !x.handlers.isEmpty }

/-- Resumed warps in the lowest free slots. -/
def resumeWarps (delta savedAt : Nat) (taken : List (Nat × Nat)) : List Warp → List Warp
  | [] => []
  | x :: rest =>
    let slot := freeSlot ((taken.filter fun y => y.1 == x.quad).map Prod.snd)
    resumeWarp delta savedAt slot x :: resumeWarps delta savedAt ((x.quad, slot) :: taken) rest

/-- The turns in which the waits of a resumed team are tested again: monitors, barrier objects, bounds. -/
def waitTurns (team : Nat) (t : Team) : List Turn :=
  (mapIdx
    (fun i (x : Warp) => x.ops.flatMap fun o =>
      (o.items.filter fun it => it.stage == .armed).filterMap fun it =>
        let sub := Subject.op { team := team, warp := i } o.id it.lane
        if isMem o.unit && o.opc == 26 then some (Turn.event .monitorRetest sub)
        else if o.unit = unitAce ∨ (o.unit = unitCp ∧ o.opc = 12) then some (.event .homeOperationPerform sub)
        else none)
    t.warps).flatten

/-- A warp in a handler takes a permit, or backs off (R438). -/
def takePermit (s : State) (w : WRef) : State :=
  let core := s.coreOf w.team
  match s.warp? w with
  | some x =>
    if ¬ x.owesPermit ∨ s.clk < x.backoffTo then s
    else if (s.core core).permits = 0 then backOff s w
    else (s.modCore core fun k => { k with permits := k.permits - 1 }).modWarp w fun x => { x with owesPermit := false, backoff := 64 }
  | none => s

/-- The warps of a team in the order in which permits go to them: by quad, then slot. -/
def permitOrder (t : Team) (team : Nat) : List WRef :=
  (List.range 64).flatMap fun k => (t.refs team).filter fun w => match t.warps[w.warp]? with
    | some x => x.quad * 16 + x.slot == k
    | none => false

/-- Does a message bring a team something that it waits for? -/
def Message.forTeam (m : Message) (team : Nat) : Bool :=
  match m.purpose with
  | .reply w _ _ => w.team == team
  | .data t _ _ => t == team
  | _ => false

/-- The slots that were saved with a team count their time anew at its resume (spec/11_fabric.md R416, R417). -/
def renewSlots (s : State) (team : Nat) : State :=
  s.modEng fun e =>
    { e with
      fab := { e.fab with
        messages := e.fab.messages.mapVals fun _ m => if m.forTeam team then { m with firstAt := m.firstAt.map fun _ => s.clk } else m } }

/-- A saved team comes back on a core (R458): on another one, what it has seen of memory and of Ace registers holds there too
(spec/01_engines_together.md R50; spec/10_team_scheduler.md R393; notes/assumptions/97.md). -/
def resumeTeam (s : State) (team j : Nat) (l : Launch) (t : Team) (core : Nat) : State :=
  let here := occupants s core []
  let s0 := setFusion (worldSwitch s core (s.funcOf l.ctx)) core l.fuse
  let s1 := acquireCluster (if core = t.core then s0 else aceFollow (bringViews s0 t.core core l.fuse) t.core core) j l core
  let delta := s.clk + 1 - t.savedAt
  let t1 : Team :=
    { t with
      core := core, status := .resident, tsBase := (tsPlace here t.tsSize).getD 0, swapped := false, wake := false,
      readyAt := s.clk + 1, lastIssue := s.clk, lastCommit := s.clk, mx := none,
      warps := resumeWarps delta t.savedAt (takenSlots here) t.warps, jobs := t.jobs.map fun b => { b with core := core, stage := b.stage.onceMore } }
  let s2 := (s1.setTeam team t1).modCore core fun k =>
    { k with
      mx := match t.mx with
        | some x => x
        | none => k.mx }
  let s3 := renewSlots (leaveClusters s2 j) team
  let s4 := foldOver takePermit s3 (permitOrder t1 team)
  pushTurns (traceTeam s4 t1 0x05 core) (waitTurns team t1)

/-! ## Making room (R372) -/

/-- May a team be displaced for a launch of priority `p`: of a lower priority, not its launch's lowest unfinished team? -/
def displaceable (s : State) (p : Nat) (t : Team) : Bool :=
  t.status == .resident && (launchAt s t).any fun l => decide (l.prio < p) && t.index != lowestUnfinished l

/-- Does team `a` go before `b`: lower priority first, then the one started later? -/
def displacedBefore (s : State) (a b : Team) : Bool :=
  let p := fun (t : Team) => match launchAt s t with
    | some l => l.prio
    | none => 0
  decide (p a < p b) || (p a == p b && decide (b.startedAt < a.startedAt))

/-- Puts a team into a list that is in order. -/
def insertVictim (s : State) (e : Nat × Team) : List (Nat × Team) → List (Nat × Team)
  | [] => [e]
  | x :: r => if displacedBefore s e.2 x.2 then e :: x :: r else x :: insertVictim s e r

/-- The first teams of a list whose going makes the core fit. -/
def victimsFrom (s : State) (j : Nat) (l : Launch) (core : Nat) (gone : List Nat) : List (Nat × Team) → Option (List Nat)
  | [] => if fits s j l core gone then some gone else none
  | e :: r => if fits s j l core gone then some gone else victimsFrom s j l core (gone ++ [e.1]) r

/-- The teams to be displaced on a core for a team of launch `j`. -/
def victims (s : State) (j : Nat) (l : Launch) (core : Nat) : Option (List Nat) :=
  victimsFrom s j l core []
    (foldOver (fun r e => insertVictim s e r) [] ((occupants s core []).filter fun e => displaceable s l.prio e.2))

/-- The walker may ask for room for a candidate that fits no core: on one core, by its own choice. -/
def askForRoom (s : State) (c : Candidate) : State :=
  match s.ldr.launches.find? c.launch with
  | none => s
  | some l =>
    let ways := (s.func (s.funcOf l.ctx)).cores.filterMap fun k => match victims s c.launch l k with
      | some (v :: vs) => some (k, v :: vs)
      | _ => none
    if ways.isEmpty then s
    else
      let b := freeBool s
      if ¬ b.1 then b.2
      else
        let r := freeBelow b.2 ways.length
        match ways[r.1]? with
        | some x => pushTurns r.2 [.event .preemptionRequest (.teams x.1 x.2 0)]
        | none => r.2

/-- Serves the candidates in order: the first that fits is placed; one that fits no core may ask for room. -/
def serve (s : State) : List Candidate → State
  | [] => s
  | c :: rest =>
    match s.ldr.launches.find? c.launch with
    | none => serve s rest
    | some l =>
      match chooseCore s c.launch l with
      | none => serve (askForRoom s c) rest
      | some core =>
        match c.team with
        | none => startTeam s c.launch l core
        | some team =>
          match s.team? team with
          | some t => resumeTeam s team c.launch l t core
          | none => s

/-- TEAM_PLACEMENT (R369, R371; spec/12_supervisor.md R458): the walker serves the function that the subject names. -/
def execTeamPlacement (s : State) : Host.Outcome State Fault Refusal :=
  match s.subject with
  | .num f => .next (serve s (candidates s f))
  | _ => .next s

end Sys2Proof.Machine
end

