-- ==== Sys2Proof/Machine/Preempt.lean ====
section
/-! DEFINITION. Pre-emption, the end of a save, the end of a team and of its launch, and the swap for monitor waits
(spec/12_supervisor.md R455 to R459, R462; spec/01_engines_together.md R22, R64; spec/10_team_scheduler.md R362, R364). -/

namespace Sys2Proof.Machine

/-! ## The freeze (R455, R457) -/

/-- The named teams that a core can freeze now. -/
def freezable (s : State) (core : Nat) (ids : List Nat) : List Nat :=
  ids.filter fun id => (s.team? id).any fun t => t.core == core && t.status == .resident && !t.dead

/-- A team is frozen: nothing of it commits from the next clk on. -/
def freezeTeam (source : Nat) (s : State) (id : Nat) : State :=
  match s.team? id with
  | none => s
  | some t => traceTeam (s.setTeam id { t with status := .saving, savedAt := s.clk + 1 }) t 0x04 source

/-- A core begins a save of teams. -/
def beginSave (s : State) (core : Nat) (ids : List Nat) (source : Nat) : State :=
  (foldOver (freezeTeam source) s ids).modCore core fun k => { k with save := ids }

/-- PREEMPTION_REQUEST (R455, R457): teams of a core are to be saved; while a save runs there, the request waits. -/
def execPreemptionRequest (s : State) : Host.Outcome State Fault Refusal :=
  match s.subject with
  | .teams core l source =>
    let ids := freezable s core l
    if ids.isEmpty then .next s
    else if (s.core core).save.isEmpty then .next (beginSave s core ids source)
    else .next (s.modCore core fun k => { k with saveQueue := k.saveQueue ++ [(ids, source)] })
  | _ => .next s

/-- The warps of a team give up their permits (R438). -/
def returnPermits (s : State) (team : Nat) : State :=
  match s.team? team with
  | none => s
  | some t =>
    let n := (t.warps.filter Warp.holdsPermit).length
    if n = 0 then s
    else
      (s.modCore t.core fun k => { k with permits := k.permits + n }).setTeam team
        { t with warps := t.warps.map fun x => if x.handlers.isEmpty then x else { x with owesPermit := true } }

/-! ## The end of a save (R455, R456, R320, R355, R383) -/

/-- May an operation in flight be saved as it stands: it has not begun at its home, or is never waited for? -/
def opStays (x : Warp) (o : Op) : Bool :=
  if o.unit = unitSnap then
    if o.opc = 2 then o.info != [1]
    else if o.opc = 3 then false
    else if o.opc = 8 then o.items.all Item.faulted
    else !x.unfenced o.id
  else if o.unit = unitTell ∨ o.unit = unitTq ∨ o.unit = unitAce then
    o.items.all fun i => i.stage == .armed || (i.trip == 0 && !(o.unit == unitTq && o.opc == 3 && decide (0 < i.probes)))
  else if o.unit = unitSup then o.opc == 2 || o.opc == 7 || o.opc == 8
  else if o.unit = unitCp then o.opc != 16
  else if o.unit = unitMx then o.opc == 10
  else true

/-- Can the head of a warp's store queue not leave? -/
def queueStays (s : State) (w : WRef) (x : Warp) : Bool :=
  match x.sq with
  | [] => true
  | id :: _ =>
    match x.op? id with
    | none => true
    | some o => !o.info.isEmpty || (!mayLeave s w x o && o.globalItems.all fun i => i.stage != .walk)

/-- Can none of a team's stores pass the arbiter? -/
def arbStays (s : State) (team : Nat) (t : Team) : Bool :=
  t.arb.all fun a => match t.warps[a.warp]? with
    | some x =>
      match x.op? a.op with
      | some o => !mayPass s { team := team, warp := a.warp } t x o
      | none => true
    | none => true

/-- Is a commit of a team? -/
def Commit.ofTeam (c : Commit) (team : Nat) : Bool :=
  (c.warp.any fun w => w.team == team) || c.job.any fun j => j.1 == team

/-- Do only commits of a team that find no version room wait, and is none on its way? -/
def commitsStay (s : State) (team : Nat) : Bool :=
  (s.eng.snap.waiting.entries.all fun e => !e.2.ofTeam team || e.2.since.isSome || commitBehind s e.1 e.2) &&
    s.eng.snap.taken.all fun k => !k.commit.ofTeam team

/-- Does a job stand at its cursor, its bytes counted, or wait for version room (spec/06_copy_engine.md R254)? -/
def jobStays (s : State) (team : Nat) (b : Job) : Bool :=
  b.unit != unitCp ||
    ((b.acc == 0 || s.eng.snap.waiting.vals.any fun c => c.job == some (team, b.id)) &&
      ((barDue b).isNone || b.stage != .go || b.at_ != 0))

/-- May a frozen team leave its core? (DESIGN CHOICE, notes/assumptions/23.md). -/
def saveReady (s : State) (team : Nat) : Bool :=
  match s.team? team with
  | none => true
  | some t =>
    decide (t.savedAt ≤ s.clk) &&
      ((t.refs team).all fun w => match s.warp? w with
        | some x =>
          (x.fills.all fun f => fixedLatency f.unit f.opc) && x.ops.all (opStays x) && queueStays s w x
        | none => true) &&
      arbStays s team t && commitsStay s team && t.jobs.all (jobStays s team)

/-- An operation as it is saved: a write that waited for version room waits at its place again after the resume (R320). -/
def saveOp (o : Op) : Op :=
  if isMem o.unit && (isStore o.opc || isAtomic o.opc) then
    { o with
      info := [],
      items := o.items.map fun i => if i.stage = .armed then { i with stage := .go } else i }
  else o

/-- A `snap.commit` that has no time yet fails, and every other open transaction is doomed (R320) (DEDUCED, notes/assumptions/58.md). -/
def saveTxn (x : Warp) : Warp :=
  let x1 := foldOver
    (fun x (o : Op) =>
      if o.unit = unitSnap ∧ o.opc = 2 then
        let code := if x.txn.isSome then snapPreempted else snapNoTxn
        let y := foldOver
          (fun x (i : Item) => x.fill unitSnap o.id i.lane (.value 0) (.value (BitVec.ofNat 64 code))) x o.items
        { y.dropOp o.id with txn := none }
      else x)
    x x.ops
  x1.doomTxn snapPreempted

/-- A team leaves its core, saved. -/
def saveTeam (s : State) (team : Nat) : State :=
  match s.team? team with
  | none => s
  | some t =>
    let warps := t.warps.map fun x => saveTxn { x with ops := x.ops.map saveOp }
    let s1 := s.setTeam team
      { t with status := .saved, warps := warps, mx := if t.owner then some (s.core t.core).mx else none }
    let s2 := s1.modSnap fun k =>
      { k with waiting := k.waiting.filter fun _ c => !(c.warp.any fun w => w.team == team) }
    if t.owner then s2.modCore t.core fun k => { k with mx := .start } else s2

/-! ## Kill (R462) -/

/-- What is left of a warp of a killed team: its operations are discarded. -/
def killWarp (x : Warp) : Warp :=
  { x with ops := [], sq := [], fills := [], held := [], txn := none, streams := .empty, marker := [] }

/-- A team is killed: frozen without saving, its jobs cancelled (spec/06_copy_engine.md R255, spec/07_matrix_engine.md R286). A save that has
begun ends first (R454, R457) (DEDUCED, notes/assumptions/59.md). -/
def killTeam (s : State) (team : Nat) : State :=
  match s.team? team with
  | none => s
  | some t =>
    if t.dead then s
    else if t.status = .saving then
      s.modCore t.core fun k => { k with saveKill := team :: k.saveKill }
    else
      let s1 := if t.status = .resident then returnPermits s team else s
      let s2 := s1.modTeam team fun t =>
        { t with
          dead := true, arb := [], warps := t.warps.map killWarp,
          jobs := t.jobs.map fun b => if b.unit = unitCp then b.cancels else b.killMx (t.status == .resident) }
      let s3 := s2.modSnap fun k =>
        { k with waiting := k.waiting.filter fun _ c => !(c.warp.any fun w => w.team == team) }
      { s3 with agenda := s3.agenda ++ [.event .teamRetire (.num team)] }

/-- Begins the first waiting request that still names a team of the core. -/
def nextSave (s : State) (core : Nat) : List (List Nat × Nat) → State
  | [] => s.modCore core fun k => { k with save := [], saveQueue := [] }
  | r :: rest =>
    let ids := freezable s core r.1
    if ids.isEmpty then nextSave s core rest
    else (beginSave s core ids r.2).modCore core fun k => { k with saveQueue := rest }

/-- SAVE_END (R455 to R457): the teams leave the core, those killed meanwhile are discarded, and a waiting request begins. -/
def execSaveEnd (s : State) : Host.Outcome State Fault Refusal :=
  match s.subject with
  | .num core =>
    let k := s.core core
    if k.save.isEmpty ∨ ¬ k.save.all (saveReady s) then .next s
    else
      let s1 := foldOver saveTeam (foldOver returnPermits s k.save) k.save
      let s2 := foldOver killTeam (s1.modCore core fun k => { k with saveKill := [] }) k.saveKill
      .next (nextSave s2 core k.saveQueue)
  | _ => .next s

/-! ## The end of a launch (R362, R364; spec/01_engines_together.md R64) -/

/-- Where a region of a context lies outside the device: global addresses with lengths, one for each page. -/
def remoteSpans (s : State) (ctx base len : Nat) : List (Nat × Nat) :=
  (List.range ((base % 4096 + len + 4095) / 4096)).filterMap fun i =>
    let page := base / 4096 + i
    let first := Nat.max base (page * 4096)
    match walkPage s ctx first false with
    | .ok p => if p.tgt = 0 then none else some (p.gaddr, Nat.min (base + len) ((page + 1) * 4096) - first)
    | .error _ => none

/-- Drops the remote copies of the regions that edges list, on the whole device (R64; notes/assumptions/56.md). -/
def dropRegions (ctx : Nat) (s : State) (es : List Edge) : State :=
  let spans := es.flatMap fun e => remoteSpans s ctx e.base e.len
  let inside := fun (g n : Nat) => spans.any fun x => overlap x.1 x.2 g n
  { s with cores := s.cores.mapVals fun _ k => { k with l1 := k.l1.filter fun sec x => !(x.remote && inside (32 * sec) 32) } }.modMem fun m =>
    { m with remote := m.remote.filter fun key _ => !inside (key / 4 * 512) 512 }

/-- A launch ends with a status: its command is done, and the edges from it are satisfied (DEDUCED, notes/assumptions/56.md). -/
def endLaunch (s : State) (j status : Nat) : State :=
  let s1 := s.modLdr fun d =>
    { d with
      launches := d.launches.mapVals fun k l =>
        { l with
          state := if k = j then .ended status else l.state,
          edges := l.edges.map fun e => if e.pred = j then { e with done := true } else e },
      journal := d.journal.modify j fun c => { c with state := .done status } }
  foldOver (fun s (l : Launch) => dropRegions l.ctx s (l.edges.filter fun e => e.pred == j)) s1 s.ldr.launches.vals

/-- A launch without teams left ends, if it was killed or has retired them all. -/
def finishLaunch (s : State) (j : Nat) : State :=
  match s.ldr.launches.find? j with
  | none => s
  | some l =>
    match l.state with
    | .ended _ => s
    | _ =>
      if s.teams.vals.any fun t => t.launch == j then s
      else
        match l.killed with
        | some st => endLaunch s j st
        | none => if l.retired.length = l.total then endLaunch s j 0 else s

/-! ## The end of a team (R22, R462) -/

/-- Does a team that retires wait for an operation: what it does outlives the team? -/
def mustFinish (o : Op) : Bool :=
  (isMem o.unit && (isStore o.opc || isAtomic o.opc || o.opc == 34) && o.items.any fun i => !i.faulted) ||
    (o.unit == unitSnap && o.opc != 8) || o.unit == unitTell || o.unit == unitTq ||
    (o.unit == unitAce && (o.opc == 0 || o.opc == 1 || o.opc == 3)) || (o.unit == unitSup && o.opc == 7)

/-- May a team leave: killed and without jobs, or retired with nothing left to be done? (DEDUCED, notes/assumptions/62.md). -/
def mayRetire (s : State) (team : Nat) (t : Team) : Bool :=
  t.jobs.isEmpty &&
    if t.dead then t.status != .saving
    else
      t.status == .resident && t.arb.isEmpty && teamSettled s team &&
        t.warps.all fun x => x.liveLanes.isEmpty && x.sq.isEmpty && x.ops.all fun o => !mustFinish o

/-- What a team held goes: permits, the matrix engine, its traps, its place in halted groups. -/
def dropTeam (s : State) (team : Nat) (t : Team) : State :=
  let s1 := if t.status = .resident then returnPermits s team else s
  let s2 := if t.owner ∧ t.status ≠ .saved then s1.modCore t.core fun k => { k with mx := .start } else s1
  { s2 with teams := s2.teams.erase team }.modLdr fun d =>
    { d with
      contexts := d.contexts.mapVals fun _ c => { c with traps := c.traps.filter fun x => x.warp.team != team },
      halts := (d.halts.mapVals fun _ g => { g with warps := g.warps.filter fun w => w.team != team }).filter fun _ g =>
        g.issuer.isNone || !g.warps.isEmpty }

/-- TEAM_RETIRE (R22, R64, R462): a team's resources return to its core; its launch may end. -/
def execTeamRetire (s : State) : Host.Outcome State Fault Refusal :=
  match s.subject with
  | .num team =>
    match s.team? team with
    | some t =>
      if mayRetire s team t then
        let s1 := leaveClusters (dropTeam (traceTeam s t 0x09 t.launch) team t) t.launch
        let s2 := if t.dead then s1
          else s1.modLdr fun d =>
            { d with launches := d.launches.modify t.launch fun l => { l with retired := l.retired ++ [t.index] } }
        .next (finishLaunch s2 t.launch)
      else .next s
    | none => .next s
  | _ => .next s

/-! ## The swap for monitor waits (R459; spec/05_memory_ports.md R214; spec/10_team_scheduler.md R373) -/

/-- Does some candidate of the walker fit no core, for which a team may go? -/
def roomWanted (s : State) (t : Team) : Bool :=
  (candidates s (s.funcOf t.ctx)).any fun c => match s.ldr.launches.find? c.launch with
    | some l => (chooseCore s c.launch l).isNone && (c.launch != t.launch || t.index != lowestUnfinished l)
    | none => false

/-- MONITOR_SWAP_OUT (R459): a team whose warps have been in monitor waits for MWL clk is saved, where the walker has a team
that fits no core. -/
def execMonitorSwapOut (s : State) : Host.Outcome State Fault Refusal :=
  match s.subject with
  | .num team =>
    match s.team? team with
    | some t =>
      if t.status = .resident ∧ ¬ t.dead ∧ mwl s t.ctx ≤ t.monWait ∧ (s.core t.core).save.isEmpty ∧ roomWanted s t then
        .next (beginSave (s.setTeam team { t with swapped := true, wake := false }) t.core [team] 0)
      else .next s
    | none => .next s
  | _ => .next s

end Sys2Proof.Machine
end

