-- ==== Sys2Proof/Machine/SeqUnit.lean ====
section
/-! DEFINITION. The seq unit: transfers, the return stack, loops, barriers, formats, yields (spec/03_warp_sequencer.md
R117 to R147), and the steps that end holds and waits of the sequencer. -/

namespace Sys2Proof.Machine

/-- Fills seq.y of a lane; .y2 is zero (R117, R118). -/
def seqFill (x : Warp) (id l : Nat) (v : W64) : Warp := x.fill unitSeq id l (.value v) (.value 0)

/-- The trigger value of a lane, in .a. -/
def seqArg (x : Warp) (l : Nat) : W64 := x.port unitSeq offA l

/-- Lanes whose PC a trigger sets: its performing lanes. -/
def setsOwn (_ : Warp) (ls _ : List Nat) : List Nat := ls

/-- An operation of seq: its checks after class 7, its effect on the warp. -/
def seqOp (opc : Nat) (check : State → Team → Warp → List Nat → W32 → Option (Nat × BitVec 8 × List Nat))
    (setsPc : Warp → List Nat → List Nat → List Nat) (start : State → Begin → State) : OpSpec :=
  { unit := unitSeq, opc := opc, reads := readsNone,
    check := fun s t wr _ ls pc => orElse (modeZero unitSeq wr ls) (check s t wr ls pc), accept := acceptAll,
    setsPc := setsPc, start := start }

/-- An effect on each performing lane of the warp alone. -/
def eachLane (f : Begin → Nat → Warp → Warp) (s : State) (b : Begin) : State :=
  s.modWarp b.w fun x => foldOver (fun x l => f b l x) x b.lanes

/-- No check. -/
def checkNone (_ : State) (_ : Team) (_ : Warp) (_ : List Nat) (_ : W32) : Option (Nat × BitVec 8 × List Nat) := none

/-! ## Branches, calls and the return stack (R121 to R128) -/

/-- The target of a transfer: absolute, or relative (R121). -/
def transferTo (rel : Bool) (pc : W32) (v : W64) : W32 :=
  if rel then pcAdd pc (s32 v) else slotBase pc ||| (lo32 v &&& 0x0FFFFFFF)

/-- Is a code address off a bundle boundary? -/
def misaligned (a : W32) : Bool := a &&& 31 != 0

/-- The checks of a transfer (R120, R121). -/
def transferCheck (rel call : Bool) (_ : State) (_ : Team) (x : Warp) (ls : List Nat) (pc : W32) :
    Option (Nat × BitVec 8 × List Nat) :=
  orElse (failLanes 8 codeMisaligned ls fun l => misaligned (transferTo rel pc (seqArg x l)))
    (if call then failLanes 8 codeReturnFull ls fun l => (x.lane l).rstack.length == 8 else none)

/-- Pushes a return-stack entry. -/
def Lane.push (x : Lane) (a : W32) : Lane := { x with rstack := { addr := a, slot := (a >>> 28).setWidth 4 } :: x.rstack }

/-- The content of a popped entry as rspop and ret give it (R125, R127). -/
def entryWord (e : RetEntry) : W64 := zext32 e.addr ||| ((e.slot.setWidth 64) <<< 32)

/-- A lane's transfer. -/
def transferLane (rel call : Bool) (b : Begin) (l : Nat) (x : Warp) : Warp :=
  let t := transferTo rel b.pc (seqArg x l)
  let ret := nextPc b.pc
  let x1 := x.modLane l fun y => let y := if call then y.push ret else y
    { y with pc := t }
  seqFill x1 b.id l (if call then zext32 ret else 0)

/-- A transfer. -/
def transferOp (opc : Nat) (rel call : Bool) : OpSpec :=
  seqOp opc (transferCheck rel call) setsOwn (eachLane (transferLane rel call))

/-- seq.br (R121). -/
def opSeqBr : OpSpec := transferOp 0 false false

/-- br is issued. -/
def execSeqBr (t : Trig) (s : State) : Host.Outcome State Fault Refusal := issueOne opSeqBr t s

/-- seq.brr (R121). -/
def opSeqBrr : OpSpec := transferOp 1 true false

/-- brr is issued. -/
def execSeqBrr (t : Trig) (s : State) : Host.Outcome State Fault Refusal := issueOne opSeqBrr t s

/-- seq.call (R121). -/
def opSeqCall : OpSpec := transferOp 2 false true

/-- call is issued. -/
def execSeqCall (t : Trig) (s : State) : Host.Outcome State Fault Refusal := issueOne opSeqCall t s

/-- seq.callr (R121). -/
def opSeqCallr : OpSpec := transferOp 3 true true

/-- callr is issued. -/
def execSeqCallr (t : Trig) (s : State) : Host.Outcome State Fault Refusal := issueOne opSeqCallr t s

/-- Lanes at depth 0 (R125, R127). -/
def emptyCheck (_ : State) (_ : Team) (x : Warp) (ls : List Nat) (_ : W32) : Option (Nat × BitVec 8 × List Nat) :=
  failLanes 8 codeReturnEmpty ls fun l => (x.lane l).rstack.isEmpty

/-- A lane pops its top entry into seq.y; `jump` where it goes there (R125, R127). -/
def popLane (jump : Bool) (b : Begin) (l : Nat) (x : Warp) : Warp :=
  match (x.lane l).rstack with
  | [] => x
  | e :: r => seqFill (x.modLane l fun y => { y with rstack := r, pc := if jump then e.addr else y.pc }) b.id l (entryWord e)

/-- seq.ret (R125). -/
def opSeqRet : OpSpec := seqOp 4 emptyCheck setsOwn (eachLane (popLane true))

/-- ret is issued. -/
def execSeqRet (t : Trig) (s : State) : Host.Outcome State Fault Refusal := issueOne opSeqRet t s

/-- The checks of rspush (R126). -/
def pushCheck (_ : State) (_ : Team) (x : Warp) (ls : List Nat) (_ : W32) : Option (Nat × BitVec 8 × List Nat) :=
  orElse (failLanes 8 codeMisaligned ls fun l => misaligned (lo32 (seqArg x l)))
    (failLanes 8 codeReturnFull ls fun l => (x.lane l).rstack.length == 8)

/-- seq.rspush (R126). -/
def opSeqRspush : OpSpec :=
  seqOp 14 pushCheck setsNone
    (eachLane fun b l x => seqFill (x.modLane l fun y => y.push (lo32 (seqArg x l))) b.id l 0)

/-- rspush is issued. -/
def execSeqRspush (t : Trig) (s : State) : Host.Outcome State Fault Refusal := issueOne opSeqRspush t s

/-- seq.rspop (R127). -/
def opSeqRspop : OpSpec := seqOp 15 emptyCheck setsNone (eachLane (popLane false))

/-- rspop is issued. -/
def execSeqRspop (t : Trig) (s : State) : Host.Outcome State Fault Refusal := issueOne opSeqRspop t s

/-! ## Loops (R129 to R133) -/

/-- Fields of a loop control word (R129). -/
def loopLen (w : W64) : Nat := bitsOf w 15 0
def loopLvl (w : W64) : Nat := bitsOf w 18 16

/-- The address that follows the body. -/
def loopExit (pc : W32) (w : W64) : W32 := pcAdd pc (32 * (loopLen w + 1))

/-- Does a performing lane fail the ILLEGAL-OP checks of seq.loop (R130)? -/
def loopBad (x : Warp) (pc : W32) (l : Nat) : Bool :=
  let w := x.port unitSeq offB l
  let lv := (x.half (x.halfOf l)).levels
  bitsOf w 31 19 != 0 || decide (6 ≤ loopLvl w) || loopLen w == 0 || loopLvl w != lv.length ||
    lv.any (fun v => !v.members.getLsbD l) ||
    decide ((loopExit pc w).toNat % 2 ^ 28 < pc.toNat % 2 ^ 28)

/-- The operands that must be the same in all performing lanes of a half: T, S, W (R130). -/
def loopArgs (x : Warp) (l : Nat) : W32 × W32 × W64 :=
  (lo32 (x.port unitSeq offC l), lo32 (x.port unitSeq offA l), x.port unitSeq offB l)

/-- The checks of seq.loop (R130, R153). -/
def loopCheck (_ : State) (_ : Team) (x : Warp) (ls : List Nat) (pc : W32) : Option (Nat × BitVec 8 × List Nat) :=
  orElse (failLanes 8 codeIllegalOp ls (loopBad x pc))
    (failLanes 8 codeNonuniform ls fun l => loopArgs x l != loopArgs x (minOf (x.sameHalf ls l) l))

/-- The counters of a level cleared, as its opening does (R130). -/
def clearCounters (k : Nat) (m : FMap W32) : FMap W32 := m.filter fun i _ => i / 36 != k

/-- Opens a level for the performing lanes `p` of a half, or passes it by where T = 0 (R130). -/
def openLoop (b : Begin) (p : List Nat) (x : Warp) : Warp :=
  match p with
  | [] => x
  | l0 :: _ =>
    let w := x.port unitSeq offB l0
    let k := loopLvl w
    let start := nextPc b.pc
    let exit := loopExit b.pc w
    let trip := lo32 (x.port unitSeq offC l0)
    if trip = 0 then
      foldOver (fun x l => seqFill (x.modLane l fun y => { y with pc := exit }) b.id l 0xFF) x p
    else
      let lv : LoopLevel :=
        { members := maskOf p, ix := lo32 (x.port unitSeq offA l0), trip := trip, trip0 := trip, stride := hi32 w,
          start := start, stop := pcAdd b.pc (32 * loopLen w), exit := exit }
      let x1 := x.modHalf (x.halfOf l0) fun h =>
        { levels := h.levels.take k ++ [lv], counters := clearCounters k h.counters }
      foldOver (fun x l => seqFill (x.modLane l fun y => { y with pc := start }) b.id l (BitVec.ofNat 64 k)) x1 p

/-- seq.loop on the warp: active lanes that do not perform it skip the body by their own control word (R130). -/
def startLoop (s : State) (b : Begin) : State :=
  s.modWarp b.w fun x =>
    let skip := b.active.filter fun l => !b.lanes.contains l
    let x1 := foldOver
      (fun x l => x.modLane l fun y => { y with pc := loopExit b.pc (x.port unitSeq offB l) }) x skip
    if x.w32 then
      openLoop b (b.lanes.filter fun l => decide (32 ≤ l)) (openLoop b (b.lanes.filter fun l => decide (l < 32)) x1)
    else openLoop b b.lanes x1

/-- seq.loop (R129, R130). -/
def opSeqLoop : OpSpec := seqOp 5 loopCheck (fun _ _ active => active) startLoop

/-- loop is issued. -/
def execSeqLoop (t : Trig) (s : State) : Host.Outcome State Fault Refusal := issueOne opSeqLoop t s

/-- The checks of brk and cont (R133). -/
def levelCheck (_ : State) (_ : Team) (x : Warp) (ls : List Nat) (_ : W32) : Option (Nat × BitVec 8 × List Nat) :=
  failLanes 8 codeIllegalOp ls fun l =>
    decide (8 ≤ (seqArg x l).toNat) || !x.member (seqArg x l).toNat l

/-- A lane breaks out of a level (R133). -/
def brkLane (b : Begin) (l : Nat) (x : Warp) : Warp :=
  let k := (seqArg x l).toNat
  match (x.half (x.halfOf l)).levels[k]? with
  | none => x
  | some v => seqFill ((x.leaveLevel l k).modLane l fun y => { y with pc := v.exit }) b.id l 0

/-- A lane goes on to the next iteration of a level (R133). -/
def contLane (b : Begin) (l : Nat) (x : Warp) : Warp :=
  let k := (seqArg x l).toNat
  seqFill ((x.leaveLevel l (k + 1)).completeLane 6 l k) b.id l 0

/-- seq.brk (R133). -/
def opSeqBrk : OpSpec := seqOp 6 levelCheck setsOwn (eachLane brkLane)

/-- brk is issued. -/
def execSeqBrk (t : Trig) (s : State) : Host.Outcome State Fault Refusal := issueOne opSeqBrk t s

/-- seq.cont (R133). -/
def opSeqCont : OpSpec := seqOp 7 levelCheck setsOwn (eachLane contLane)

/-- cont is issued. -/
def execSeqCont (t : Trig) (s : State) : Host.Outcome State Fault Refusal := issueOne opSeqCont t s

/-! ## Barriers (R136 to R141) -/

/-- Barrier `k` of a team. -/
def Team.bar (t : Team) (k : Nat) : Bar :=
  t.bars.getD k { phase := 0, mask := 0, arrived := [], warps := [], stores := [] }

/-- Changes barrier `k`. -/
def Team.modBar (t : Team) (k : Nat) (f : Bar → Bar) : Team := { t with bars := t.bars.insert k (f (t.bar k)) }

/-- The roles that the team declares: those that have a warp (R18). -/
def Team.roleMask (t : Team) : BitVec 4 :=
  foldOver (fun (m : BitVec 4) (x : Warp) => m ||| BitVec.ofNat 4 (2 ^ x.role)) 0 t.warps

/-- ROLES of a barrier word, expanded (R136). -/
def barRoles (t : Team) (v : W64) : BitVec 4 := if bitsOf v 7 4 = 0 then t.roleMask else BitVec.ofNat 4 (bitsOf v 7 4)

/-- The cases of R137, in their order. -/
def barCheck (_ : State) (t : Team) (x : Warp) (ls : List Nat) (_ : W32) : Option (Nat × BitVec 8 × List Nat) :=
  let word := fun l => bitsOf (seqArg x l) 31 0
  let roles := fun l => barRoles t (seqArg x l)
  let differ := ls.any fun l => word l != word (minOf ls 0)
  orElse (failLanes 8 codeIllegalOp ls fun l => bitsOf (seqArg x l) 31 8 != 0)
    (orElse
      (failLanes 8 codeIllegalOp ls fun l => roles l &&& ~~~t.roleMask != 0 || !(roles l).getLsbD x.role)
      (orElse (if differ then some (8, codeIllegalOp, ls) else none)
        (failLanes 8 codeIllegalOp ls fun l =>
          (t.bar (bitsOf (seqArg x l) 3 0)).mask != 0 && (t.bar (bitsOf (seqArg x l) 3 0)).mask != roles l)))

/-- The key of a lane among arrivals. -/
def arrivalKey (warp l : Nat) : Nat := warp * 64 + l

/-- The turn in which a barrier's phase is looked at. -/
def barTurn (team k : Nat) : Turn := .event .barrierPhaseComplete (.pair team k)

/-- A lane arrives at barrier `k` (R138). -/
def arriveLane (isBar : Bool) (wn k : Nat) (roles : BitVec 4) (id l : Nat) (t : Team) : Team :=
  let b := t.bar k
  let modW := fun (f : Warp → Warp) (t : Team) => { t with warps := modifyAt f wn t.warps }
  if b.arrived.contains (arrivalKey wn l) then
    modW (fun x => x.modLane l fun y => { y with wait := some (.again k isBar id) }) t
  else
    let t1 := t.modBar k fun b =>
      { b with mask := if b.mask = 0 then roles else b.mask, arrived := b.arrived ++ [arrivalKey wn l] }
    if isBar then modW (fun x => x.modLane l fun y => { y with wait := some (.barrier k id) }) t1
    else modW (fun x => seqFill x id l (zext32 b.phase)) t1

/-- seq.bar and seq.bar.arrive (R138). -/
def startBar (isBar : Bool) (s : State) (b : Begin) : State :=
  match s.team? b.w.team, s.warp? b.w, b.lanes with
  | some t, some x, l0 :: _ =>
    let v := seqArg x l0
    let k := bitsOf v 3 0
    let s1 := s.setTeam b.w.team (foldOver (fun t l => arriveLane isBar b.w.warp k (barRoles t v) b.id l t) t b.lanes)
    pushTurns s1 [barTurn b.w.team k]
  | _, _, _ => s

/-- seq.bar (R138). -/
def opSeqBar : OpSpec := seqOp 10 barCheck setsNone (startBar true)

/-- bar is issued. -/
def execSeqBar (t : Trig) (s : State) : Host.Outcome State Fault Refusal := issueOne opSeqBar t s

/-- seq.bar.arrive (R138, R140). -/
def opSeqBarArrive : OpSpec := seqOp 11 barCheck setsNone (startBar false)

/-- bar.arrive is issued. -/
def execSeqBarArrive (t : Trig) (s : State) : Host.Outcome State Fault Refusal := issueOne opSeqBarArrive t s

/-- Has a warp arrived: every live lane has its arrival bit (R139)? -/
def warpArrived (b : Bar) (wn : Nat) (x : Warp) : Bool := x.liveLanes.all fun l => b.arrived.contains (arrivalKey wn l)

/-- Notes the warps whose arrival is completed now, with the team-store stores they have committed (R139). -/
def noteArrivals (k : Nat) (t : Team) : Team :=
  let b := t.bar k
  let done := (List.range t.warps.length).filter fun i => match t.warps[i]? with
    | some x => !x.liveLanes.isEmpty && warpArrived b i x && !b.warps.contains i
    | none => false
  t.modBar k fun b =>
    { b with
      warps := b.warps ++ done,
      stores := b.stores ++ (t.arb.filter fun w => done.contains w.warp).map fun w => w.op }

/-- Has every warp of the phase's roles with a live lane arrived, and have the stores of all that arrived passed, of those whose lanes have retired
since too (R61, R139) (DEDUCED, notes/assumptions/93.md)? -/
def phaseDone (k : Nat) (t : Team) : Bool :=
  let b := t.bar k
  b.mask != 0 &&
    (List.range t.warps.length).all (fun i => match t.warps[i]? with
      | some x => !b.mask.getLsbD x.role || x.liveLanes.isEmpty || warpArrived b i x
      | none => true) &&
    !(t.arb.any fun w => b.stores.contains w.op)

/-- A lane parked in barrier `k` is released with the new phase count; one that waited to arrive again is freed to
(R138, R139). -/
def releaseBar (k : Nat) (phase : W32) (l : Nat) (x : Warp) : Warp :=
  match (x.lane l).wait with
  | some (.barrier j id) => if j = k then seqFill (x.release l) id l (zext32 phase) else x
  | _ => x

/-- The lanes of a warp that wait to arrive again at barrier `k`: lane, kind, number. -/
def againLanes (k : Nat) (x : Warp) : List (Nat × Bool × Nat) :=
  laneNums.filterMap fun l => match (x.lane l).wait with
    | some (.again j isBar id) => if j = k then some (l, isBar, id) else none
    | _ => none

/-- A lane makes its repeated arrival, in the phase that begins; `bar.arrive` frees the lane (R138). -/
def arriveAgain (k : Nat) (roles : BitVec 4) (wn : Nat) (t : Team) (a : Nat × Bool × Nat) : Team :=
  let t1 := if a.2.1 then t
    else { t with warps := modifyAt (fun x => x.release a.1) wn t.warps }
  arriveLane a.2.1 wn k roles a.2.2 a.1 t1

/-- The phase of barrier `k` completes (R139). -/
def completePhase (k : Nat) (t : Team) : Team :=
  let b := t.bar k
  let t1 := { t with warps := t.warps.map fun x => foldOver (fun x l => releaseBar k (b.phase + 1) l x) x laneNums }
  let t2 := t1.modBar k fun b => { phase := b.phase + 1, mask := 0, arrived := [], warps := [], stores := [] }
  foldOver
    (fun t i => match t.warps[i]? with
      | some x => foldOver (fun t a => arriveAgain k b.mask i t a) t (againLanes k x)
      | none => t)
    t2 (List.range t2.warps.length)

/-- BARRIER_PHASE_COMPLETE (R139): the phase of the barrier completes once its arrivals and stores are there. -/
def execBarrierPhaseComplete (s : State) : Host.Outcome State Fault Refusal :=
  match s.subject with
  | .pair team k =>
    match s.team? team with
    | some t =>
      let t1 := noteArrivals k t
      if phaseDone k t1 then
        let t2 := completePhase k t1
        let s1 := s.setTeam team t2
        .next (if (t2.bar k).mask = 0 then s1 else pushTurns s1 [barTurn team k])
      else .next (s.setTeam team t1)
    | none => .next s
  | _ => .next s

/-! ## Ending, yielding, formats, user traps (R142 to R145) -/

/-- A lane retires (R142). -/
def endLane (l : Nat) (x : Warp) : Warp :=
  (x.leaveLevel l 0).modLane l fun y => { y with live := false, wait := none, owes := none }

/-- The barriers of a team with a phase under way. -/
def openBars (t : Team) : List Nat := (t.bars.entries.filter fun e => e.2.mask != 0).map Prod.fst

/-- A warp whose last live lane has retired unbinds its streams and discards its transaction (spec/06_copy_engine.md R249,
spec/08_snapshot_engine.md R307) (DEDUCED, notes/assumptions/50.md). -/
def retireWarp (x : Warp) : Warp := if x.liveLanes.isEmpty then { x with streams := .empty, txn := none } else x

/-- seq.end: the lanes retire; barriers, and the team's end, are looked at (R22, R139, R142). -/
def startEnd (s : State) (b : Begin) : State :=
  let s1 := s.modWarp b.w fun x => retireWarp (foldOver (fun x l => endLane l x) x b.lanes)
  match s1.team? b.w.team with
  | some t =>
    let s2 := pushTurns s1 ((openBars t).map (barTurn b.w.team))
    if t.warps.all fun x => x.liveLanes.isEmpty then
      { s2 with agenda := s2.agenda ++ [.event .teamRetire (.num b.w.team)] }
    else s2
  | none => s1

/-- seq.end (R142). -/
def opSeqEnd : OpSpec := seqOp 8 checkNone setsOwn startEnd

/-- end is issued. -/
def execSeqEnd (t : Trig) (s : State) : Host.Outcome State Fault Refusal := issueOne opSeqEnd t s

/-- seq.yield: the warp is held for the largest count of its lanes, at least 1 (R143). -/
def startYield (s : State) (b : Begin) : State :=
  s.modWarp b.w fun x =>
    let h := Nat.max 1 (maxOf (b.lanes.map fun l => bitsOf (seqArg x l) 11 0))
    foldOver (fun x l => seqFill x b.id l 0) { x with yieldTo := s.clk + 1 + h } b.lanes

/-- seq.yield (R143). -/
def opSeqYield : OpSpec := seqOp 9 checkNone setsNone startYield

/-- yield is issued. -/
def execSeqYield (t : Trig) (s : State) : Host.Outcome State Fault Refusal := issueOne opSeqYield t s

/-- A set reserved bit of a new NFR (R144). -/
def setfmtCheck (_ : State) (_ : Team) (x : Warp) (ls : List Nat) (_ : W32) : Option (Nat × BitVec 8 × List Nat) :=
  failLanes 8 codeIllegalOp ls fun l => (seqArg x l).getLsbD 15

/-- seq.setfmt (R144). -/
def opSeqSetfmt : OpSpec :=
  seqOp 12 setfmtCheck setsNone
    (eachLane fun b l x => seqFill (x.modLane l fun y => { y with nfr := (seqArg x l).setWidth 16 }) b.id l 0)

/-- setfmt is issued. -/
def execSeqSetfmt (t : Trig) (s : State) : Host.Outcome State Fault Refusal := issueOne opSeqSetfmt t s

/-- seq.trap: USER is raised after the commit, by the commit itself (R145; `userTrap`). -/
def opSeqTrap : OpSpec := seqOp 13 checkNone setsNone (eachLane fun b l x => seqFill x b.id l 0)

/-- trap is issued. -/
def execSeqTrap (t : Trig) (s : State) : Host.Outcome State Fault Refusal := issueOne opSeqTrap t s

/-- The operations of seq, by opcode. -/
def seqOps : List OpSpec :=
  [opSeqBr, opSeqBrr, opSeqCall, opSeqCallr, opSeqRet, opSeqLoop, opSeqBrk, opSeqCont, opSeqEnd, opSeqYield, opSeqBar,
    opSeqBarArrive, opSeqSetfmt, opSeqTrap, opSeqRspush, opSeqRspop]

/-! ## Holds that end -/

/-- The warp that a subject names. -/
def subjectWarp (s : State) : Option WRef :=
  match s.subject with
  | .warp w => some w
  | _ => none

/-- A change of the warp that the subject names (DEDUCED, notes/assumptions/6.md). -/
def onSubjectWarp (f : Nat → Warp → Warp) (s : State) : Host.Outcome State Fault Refusal :=
  match subjectWarp s with
  | some w => .next (s.modWarp w (f s.clk))
  | none => .next s

/-- A hold that runs to a clk is over from that clk on. -/
def holdOver (clk to_ : Nat) : Nat := if to_ ≤ clk then 0 else to_

/-- DELAY_EXPIRY (spec/02_bundles_and_ports.md R96). -/
def execDelayExpiry (s : State) : Host.Outcome State Fault Refusal :=
  onSubjectWarp (fun clk x => { x with delayTo := holdOver clk x.delayTo }) s

/-- YIELD_EXPIRY (R143). -/
def execYieldExpiry (s : State) : Host.Outcome State Fault Refusal :=
  onSubjectWarp (fun clk x => { x with yieldTo := holdOver clk x.yieldTo }) s

/-- PERMIT_BACKOFF_EXPIRY (spec/12_supervisor.md R438). -/
def execPermitBackoffExpiry (s : State) : Host.Outcome State Fault Refusal :=
  onSubjectWarp (fun clk x => { x with backoffTo := holdOver clk x.backoffTo }) s

/-- PROGRESS_BOOST (R150): after 4,096 clk without issue the team's warps take issue priority, where it is the
lowest-numbered unfinished team of its launch (spec/01_engines_together.md R42) (DEDUCED, notes/assumptions/32.md). -/
def execProgressBoost (s : State) : Host.Outcome State Fault Refusal :=
  match s.subject with
  | .num team =>
    match s.team? team with
    | some t =>
      let first := s.teams.entries.all fun e => e.2.launch != t.launch || decide (t.index ≤ e.2.index)
      if first ∧ t.status = .resident ∧ t.lastIssue + 4096 ≤ s.clk then
        .next (s.setTeam team { t with warps := t.warps.map fun x => { x with boost := true } })
      else .next s
    | none => .next s
  | _ => .next s

/-- A write of seq.flags is issued (spec/02_bundles_and_ports.md R81). -/
def execSeqFlagsWrite (t : Trig) (s : State) : Host.Outcome State Fault Refusal :=
  .next (issueMoves s Header.plain (loneMove (.plain .flags) t))

/-- A read of a stream port is issued (spec/02_bundles_and_ports.md R85, spec/06_copy_engine.md R247). -/
def execStreamPortRead (k : Fin 8) (g : BitVec 4) (ng : Bool) (dst : BitVec 13) (s : State) :
    Host.Outcome State Fault Refusal :=
  .next (issueMoves s Header.plain fun s t x =>
    [{ slot := 0, g := g.toNat, ng := ng,
       res := match resolveDst s t x.budget dst.toNat with
         | some d => .ok (.stream k, .plain d)
         | none => .error (3, codeIllegalPort) }])

end Sys2Proof.Machine
end

