-- ==== Sys2Proof/Machine/Supervisor.lean ====
section
/-! DEFINITION. What the supervisor watches and does between bundles: quarantine, errors in stored data, service timeouts,
the team watchdog, the wait scan, halts and resumes of groups, issue logs (spec/05_memory_ports.md R222, R223, R235;
spec/12_supervisor.md R435 to R438, R459 to R467). -/

namespace Sys2Proof.Machine

/-! ## Quarantine (spec/05_memory_ports.md R235) -/

/-- The epochs that accesses in flight carry, commits on their way among them. -/
def epochsInFlight (s : State) : List Nat :=
  (s.eng.snap.waiting.vals.map fun c => c.epoch) ++ (s.eng.snap.taken.map fun k => k.commit.epoch) ++
  ((s.mem.writes.vals.filter fun m => !m.lost).map fun m => m.epoch) ++
  (s.ldr.outs.vals.filterMap fun a => if a.performed then none else a.epoch) ++
    s.teams.vals.flatMap fun t => t.warps.flatMap fun x => x.ops.flatMap fun o =>
      o.items.filterMap fun i => if i.place.isSome then some i.epoch else none

/-- The quiescence count Q. -/
def quiescence (s : State) : Nat := minOf (epochsInFlight s ++ [s.mem.epoch]) s.mem.epoch

/-- QUARANTINE_RELEASE (R235; spec/08_snapshot_engine.md R321): the subject's frame leaves quarantine, and the version chains
of its page are discarded. -/
def execQuarantineRelease (s : State) : Host.Outcome State Fault Refusal :=
  match s.subject with
  | .num frame =>
    match firstWhere (fun (q : QFrame) => q.frame == frame) s.mem.quarantine with
    | some q =>
      if q.stamp ≤ quiescence s then
        let s1 := s.modMem fun m => { m with quarantine := m.quarantine.filter fun x => x != q }
        .next (s1.modSnap fun k => { k with chains := k.chains.filter fun line _ => line / 8 != frame })
      else .next s
    | none => .next s
  | _ => .next s

/-! ## Errors in stored data (spec/05_memory_ports.md R222, R223) -/

/-- Counts an error of class `k`. -/
def countError (s : State) (k : Nat) : State :=
  s.modMem fun m => { m with errors := modifyAt (fun v => v + 1) k m.errors }

/-- A sector of device memory is poisoned. -/
def poisonSector (s : State) (sec : Nat) : State := s.modMem fun m => m.poisonSector sec

/-- A number joins a list without repeats. -/
def addOnce (n : Nat) (l : List Nat) : List Nat := if l.contains n then l else n :: l

/-- A sector of a die's copy of a remote line is poisoned. -/
def poisonRemote (s : State) (die line sec : Nat) : State :=
  s.modMem fun m => { m with remote := m.remote.modify (remoteKey die line) fun r => { r with poison := addOnce (sec % 16) r.poison } }

/-- A sector of an older version of a line is poisoned. -/
def poisonVersion (s : State) (line time sec : Nat) : State :=
  s.modSnap fun k =>
    { k with
      chains := k.chains.modify line fun c =>
        { c with older := c.older.map fun v => if v.time = time then { v with poison := addOnce (sec % 16) v.poison } else v } }

/-- Does an open transaction of a warp write a line of device memory? -/
def Warp.writesLine (x : Warp) (line : Nat) : Bool :=
  match x.txn with
  | some t => t.lines.has line
  | none => false

/-- The sector is part of a line that transactions write: the error may have struck a written copy of it, and its
transactions are doomed (spec/08_snapshot_engine.md R322), or the line itself (DEDUCED, notes/assumptions/63.md). -/
def poisonL2 (s : State) (sec : Nat) : State :=
  let hit := s.teams.vals.any fun t => t.warps.any fun x => x.writesLine (sec / 16)
  let r := if hit then freeBool s else (false, s)
  if r.1 then
    { r.2 with
      teams := r.2.teams.mapVals fun _ t =>
        { t with warps := t.warps.map fun x => if x.writesLine (sec / 16) then x.doomTxn snapFaulted else x } }
  else poisonSector r.2 sec

/-- A flit is in the network of this device. -/
def flitHere (b : Fabric) (msg seqno : Nat) : Bool := (b.flits ++ b.moved).any fun f => f.msg == msg && f.seqno == seqno

/-- An uncorrectable error in a flit (spec/11_fabric.md R405): of its header, or of the description that a head flit carries (DESIGN
CHOICE, notes/assumptions/18.md), it discards the flit, and the message is lost; else the 8-byte group of the message's data arrives
poisoned. A discarded flit's router has its credit back. -/
def flitError (msg seqno group : Nat) (b : Fabric) : Fabric :=
  if group = 0 ∨ seqno = 0 then
    let gone := fun (f : Flit) => f.msg == msg && f.seqno == seqno
    let mine := (b.flits ++ b.moved).any fun f => gone f && f.own
    { b with
      flits := b.flits.filter fun f => !gone f
      moved := b.moved.filter fun f => !gone f
      messages := b.messages.modify msg fun m => { m with lost := true }
      credits := match b.messages.find? msg with
        | some m => if mine then b.credits ++ [(m.src, 1)] else b.credits
        | none => b.credits }
  else { b with messages := b.messages.modify msg fun m => { m with bad := addOnce (8 * (seqno - 1) + (group - 1)) m.bad } }

/-- What an error of a site does. -/
def eccAt (s : State) (correctable : Bool) : EccSite → State
  | .l1 core sec => s.modCore core fun k => { k with l1 := k.l1.erase sec }
  | .l2 sec => if correctable then countError s 0 else poisonL2 (countError s 4) sec
  | .hbm sec => if correctable then countError s 1 else poisonSector (countError s 5) sec
  | .tstore team word =>
    if correctable then countError s 2
    else s.modTeam team fun t =>
      if 4 * word < t.tsSize ∧ ¬ t.tsPoison.contains word then { t with tsPoison := word :: t.tsPoison } else t
  | .remote die line sec => if correctable then countError s 0 else poisonRemote (countError s 4) die line sec
  | .version line time sec => if correctable then countError s 1 else poisonVersion (countError s 5) line time sec
  | .plane core p1 =>
    if correctable then countError s 3
    else s.modMx core fun x => if p1 then { x with p1 := { x.p1 with poison := true } } else { x with p0 := { x.p0 with poison := true } }
  | .flit msg seqno group =>
    s.modEng fun e =>
      if ¬ flitHere e.fab msg seqno then e
      else if correctable then { e with fab := { e.fab with corrected := e.fab.corrected + 1 } }
      else { e with fab := flitError msg seqno group e.fab }
  | .port w code lane =>
    if correctable then countError s 3
    else s.modWarp w fun x => if x.poison.contains (code, lane) then x else { x with poison := (code, lane) :: x.poison }
  | .acc core tile elem =>
    if correctable then countError s 3
    else s.modCore core fun k =>
      let e := tile * 16384 + elem
      { k with mx := { k.mx with poison := if k.mx.poison.contains e then k.mx.poison else e :: k.mx.poison } }

/-- ECC_ERROR (R222; spec/11_fabric.md R405). -/
def execEccError (s : State) : Host.Outcome State Fault Refusal :=
  match s.subject with
  | .ecc site correctable => .next (eccAt s correctable site)
  | _ => .next s

/-! ## Timeouts (spec/12_supervisor.md R437, R460) -/

/-- A trap between bundles: its lanes stand at their own PCs. -/
def TrapReq.async (code : BitVec 8) (lanes : List Nat) (pc : W32) (from_ rungOut : Nat) : TrapReq :=
  { code := code, cls := 0, faultMask := 0, lanes := lanes, pc := pc, post := true, reads := [], detail := .empty,
    from_ := from_, rungOut := rungOut }

/-- The service time of a rung in a context (R437). -/
def rungTime (s : State) (ctx rung : Nat) : Nat := if rung = 0 then sto0 s ctx else sto1 s ctx

/-- The current handler of a warp has used up its service time: TIMEOUT enters the rung above. Its count begins again. -/
def handlerTimeout (s : State) (w : WRef) : State :=
  match s.team? w.team, s.warp? w with
  | some t, some x =>
    match x.handlers with
    | [] => s
    | h :: rest =>
      if h.served < rungTime s t.ctx h.rung ∨ t.status ≠ .resident then s
      else
        let lanes := (lanesOf h.lanes).filter fun l => (x.lane l).live
        let s1 := s.modWarp w fun x => { x with handlers := { h with served := 0 } :: rest }
        takeTrap s1 w (TrapReq.async codeTimeout lanes (x.pickPc lanes) (h.rung + 1) h.rung)
  | _, _ => s

/-- The trap of a context that waits at a rung. -/
def waitingAt (c : Context) (rung : Nat) : Option CtxTrap := firstWhere (fun t => t.trap.rung == rung) c.traps

/-- Does the count of a trap that waits at a rung still run, and has it passed by what `late` says? -/
def CtxTrap.overdue (late : Nat → Bool) (rung : Nat) (t : CtxTrap) : Bool := t.trap.rung == rung && t.since.any late

/-- The first trap of a list whose count has passed, marked so that it does not pass again. -/
def timeOutFirst (late : Nat → Bool) (rung : Nat) : List CtxTrap → List CtxTrap
  | [] => []
  | t :: r => if t.overdue late rung then { t with since := none } :: r else t :: timeOutFirst late rung r

/-- System software has not answered a trap in time: TIMEOUT enters the rung above the one at which it waits, once for each trap. -/
def contextTimeout (s : State) (ctx rung : Nat) (late : Nat → Bool) : State :=
  match (s.context? ctx).bind fun c => firstWhere (CtxTrap.overdue late rung) c.traps with
  | some ct =>
    let q := TrapReq.async codeTimeout [] 0 (rung + 1) rung
    contextTrap (noteTrap (s.modCtx ctx fun c => { c with traps := timeOutFirst late rung c.traps }) ct.warp q) ct.warp (rung + 1) q []
  | none => s

/-- The contexts of a function that have a trap waiting at a rung whose time has not passed yet. -/
def waitingCtxs (s : State) (p : Nat → Bool) (rung : Nat) : List Nat :=
  (s.ldr.contexts.entries.filter fun e => p e.2.func && e.2.traps.any (CtxTrap.overdue (fun _ => true) rung)).map Prod.fst

/-- Has the service time of the context rung passed since a clk? -/
def serviceOver (s : State) (ctx since : Nat) : Bool := decide (since + sto2 s ctx < s.clk)

/-- SERVICE_TIMEOUT (R437): the time of the partition and device rungs is firmware's, and passes where the subject says so. A
timeout at the device rung stops every context until device reset. -/
def execServiceTimeout (s : State) : Host.Outcome State Fault Refusal :=
  match s.subject with
  | .timeout (.handler w) => .next (handlerTimeout s w)
  | .timeout (.context ctx) => .next (contextTimeout s ctx 2 (serviceOver s ctx))
  | .timeout (.partition f) =>
    match waitingCtxs s (fun g => g == f) 3 with
    | c :: _ => .next (contextTimeout s c 3 fun _ => true)
    | [] => .next s
  | .timeout .device =>
    match waitingCtxs s (fun _ => true) 4 with
    | _ :: _ =>
      let s1 := s.modLdr fun d =>
        { d with workStopped := true, contexts := d.contexts.mapVals fun _ c => { c with stopped := true } }
      .next (pushTurns s1 (stopTurns s (fun _ => true) 1))
    | [] => .next s
  | _ => .next s

/-- TEAM_WATCHDOG (R460): TIMEOUT enters the context rung and names the team; the count resets. -/
def execTeamWatchdog (s : State) : Host.Outcome State Fault Refusal :=
  match s.subject with
  | .num team =>
    match s.team? team with
    | some t =>
      if t.status = .resident ∧ sto1 s t.ctx ≤ t.barWait then
        let w : WRef := { team := team, warp := 0 }
        let q := TrapReq.async codeTimeout [] 0 2 1
        .next (contextTrap (noteTrap (s.setTeam team { t with barWait := 0 }) w q) w 2 q [])
      else .next s
    | none => .next s
  | _ => .next s

/-- HANDLER_ENTRY_DELAY_EXPIRY (R435). -/
def execHandlerEntryDelayExpiry (s : State) : Host.Outcome State Fault Refusal :=
  onSubjectWarp (fun clk x => { x with entryTo := holdOver clk x.entryTo }) s

/-! ## Counts of clk -/

/-- Is every live lane of a team, of which there is one, in a wait that `p` accepts? -/
def allParked (p : Nat → Warp → Nat → Bool) (t : Team) : Bool :=
  let l := (mapIdx (fun i (x : Warp) => x.liveLanes.map fun l => p i x l) t.warps).flatten
  !l.isEmpty && l.all id

/-- Is a lane in a monitor wait? -/
def inMonitor (x : Warp) (l : Nat) : Bool :=
  match (x.lane l).wait with
  | some (.monitor _) => true
  | _ => false

/-- Is a lane in a barrier wait or a loop-wait, or held by another warp's handler at the team rung (R460)? -/
def inBarrier (t : Team) (i : Nat) (x : Warp) (l : Nat) : Bool :=
  (match (x.lane l).wait with
   | some (.barrier _ _) => true
   | some (.again _ _ _) => true
   | some (.loop _) => true
   | _ => false) ||
    (mapIdx (fun j (y : Warp) => j != i && y.handlers.any fun h => h.rung == 1) t.warps).any id

/-- The counts of a team after one more clk (R437, R459, R460). -/
def countTeam (t : Team) : Team :=
  if t.status ≠ .resident ∨ t.dead then t
  else
    { t with
      monWait := if allParked (fun _ => inMonitor) t then t.monWait + 1 else 0
      barWait := if allParked (inBarrier t) t then t.barWait + 1 else t.barWait
      warps := t.warps.map fun x =>
        if x.handlers.isEmpty ∨ x.halted.isSome then x
        else { x with handlers := x.handlers.map fun h => { h with served := h.served + 1 } } }

/-! ## The wait scan (R461) -/

/-- Does a job wait for a message of its channel, or for room in the pool? -/
def chanWaits (b : Job) : Bool := b.isChan && b.begun && !b.ending && b.acc == 0 && (b.opc == 14 || b.at_ != 0)

/-- Does a lane wait in a way that the scan counts? -/
def scanLane (t : Team) (i : Nat) (x : Warp) (l : Nat) : Bool :=
  inMonitor x l || t.jobs.any fun b => b.warp == i && b.lane == l && chanWaits b

/-- Operation code and context of a command's entry. -/
def CmdRun.opc (c : CmdRun) : Nat := (c.entry.getD 7 0).toNat
def CmdRun.ctx (c : CmdRun) : Nat := natOfBytes ((c.entry.drop 4).take 2)

/-- Is a command under way? -/
def CmdRun.busy (c : CmdRun) : Bool :=
  match c.state with
  | .accepted => true
  | .running => true
  | _ => false

/-- Could a command still write for its context: one under way, but a launch's only until all its teams have started
(DEDUCED, notes/assumptions/61.md)? -/
def commandWrites (s : State) (j : Nat) (c : CmdRun) : Bool :=
  c.busy && (c.opc != 3 || match s.ldr.launches.find? j with
    | some l => match l.state with
      | .waiting => true
      | .running => decide (l.next < l.total)
      | .ended _ => false
    | none => true)

/-- Can nothing inside a context release its waits now (R44, R461)? -/
def ctxStuck (s : State) (ctx : Nat) : Bool :=
  let ts := s.teams.vals.filter fun t => t.ctx == ctx && !t.dead
  let live := ts.filter fun t => t.warps.any fun x => !x.liveLanes.isEmpty
  !live.isEmpty && live.all (fun t => allParked (scanLane t) t) &&
    (ts.all fun t => t.jobs.all chanWaits) &&
    ((s.func (s.funcOf ctx)).reqs.vals.all fun r => r.ctx != ctx) &&
    s.ldr.journal.entries.all fun e => !(e.2.ctx == ctx && commandWrites s e.1 e.2)

/-- The clk since which a context has been stuck, after the present clk. -/
def scanCount (s : State) (ctx : Nat) (c : Context) : Context :=
  let last := maxOf ((s.teams.vals.filter fun t => t.ctx == ctx).map fun t => t.lastCommit)
  { c with
    scanSince := if ctxStuck s ctx then
        match c.scanSince with
        | some k => if k ≤ last then some s.clk else some k
        | none => some s.clk
      else none }

/-- The addresses of waits of a context, by team, warp and lane. -/
def waitAddrs (s : State) (ctx : Nat) : List W64 :=
  s.teams.vals.flatMap fun t =>
    if t.ctx ≠ ctx then []
    else
      (t.warps.flatMap fun x => x.ops.flatMap fun o =>
        if o.isWaitcmp then o.items.map fun i => i.a else []) ++
      ((t.jobs.filter chanWaits).map fun b => BitVec.ofNat 64 (chanObject b))

/-- WAIT_GRAPH_SCAN (R461): a context that has been stuck for a whole interval is reported as LONG-WAIT. -/
def execWaitGraphScan (s : State) : Host.Outcome State Fault Refusal :=
  match s.subject with
  | .num ctx =>
    match (s.context? ctx).bind fun c => c.scanSince with
    | some k =>
      if s.clk % 2 ^ 20 = 0 ∧ k + 2 ^ 20 ≤ s.clk then
        match (s.teams.entries.filter fun e => e.2.ctx == ctx && !e.2.dead).head? with
        | some e =>
          let w : WRef := { team := e.1, warp := 0 }
          let q := TrapReq.async codeLongWait [] 0 2 0
          let s1 := contextTrap (noteTrap s w q) w 2 q ((waitAddrs s ctx).take 16)
          .next (s1.modCtx ctx fun c => { c with scanSince := none })
        | none => .next s
      else .next s
    | none => .next s
  | _ => .next s

/-! ## Halts (R463, R465) -/

/-- A team's part of a halted group stands still from clk `edge`; one that is saved has stood since its save. -/
def haltWarp (edge : Nat) (s : State) (w : WRef) : State :=
  match s.team? w.team with
  | some t =>
    let at_ := if t.status = .resident then edge else Nat.min edge t.savedAt
    s.modWarp w fun x => if x.halted.isSome then x else { x with halted := some at_ }
  | none => s

/-- Trace records of the teams of a group. -/
def traceGroup (type id : Nat) (s : State) (ws : List WRef) : State :=
  foldOver
    (fun s team => match s.team? team with
      | some t => traceTeam s t type id
      | none => s)
    s (ws.map fun w => w.team).eraseDups

/-- HALT_EDGE (R463): from the edge on no warp of the group commits. A halt that the debugger asked for is reported now. -/
def execHaltEdge (s : State) : Host.Outcome State Fault Refusal :=
  match s.subject with
  | .num id =>
    match s.ldr.halts.find? id with
    | some g =>
      if g.halted ∨ s.clk < g.edge then .next s
      else
        let s1 := traceGroup 0x06 id (foldOver (haltWarp g.edge) s g.warps) g.warps
        let q := (s.context? g.ctx).bind fun c => c.debugQueue
        .next (s1.modLdr fun d =>
          { d with
            halts := d.halts.insert id { g with halted := true },
            debugReports := match g.issuer, q with
              | none, some n => d.debugReports ++ [(n, id, 0)]
              | _, _ => d.debugReports })
    | none => .next s
  | _ => .next s

/-- A time of a halted warp, moved to its resume: what was left at the edge is left at `base`. -/
def leftFrom (edge base t : Nat) : Nat := if t ≤ edge then t else t + (base - edge)

/-- A halted warp goes on: held fills apply, replayed results and delays run on from `base`. -/
def unhaltWarp (base issueAt : Nat) (x : Warp) : Warp :=
  match x.halted with
  | none => x
  | some e =>
    let y := { x with
      halted := none, held := [],
      fills := x.fills.map fun f => if fixedLatency f.unit f.opc && decide (e ≤ f.due) then { f with due := base + (f.due - e) } else f,
      delayTo := Nat.max issueAt (leftFrom e base x.delayTo), yieldTo := leftFrom e base x.yieldTo,
      entryTo := leftFrom e base x.entryTo, replayTo := leftFrom e base x.replayTo,
      backoffTo := leftFrom e base x.backoffTo }
    foldOver (fun x (h : HeldFill) => x.fillNow h.unit h.id h.lane h.y h.y2) y x.held

/-- A warp of a group that resumes, unless another halted group holds it still. -/
def resumeHalted (s : State) (w : WRef) : State :=
  if s.ldr.halts.vals.any fun g => g.halted && g.warps.contains w then s
  else
    match s.team? w.team with
    | some t =>
      s.modWarp w (if t.status = .resident then unhaltWarp s.clk (s.clk + 1) else unhaltWarp t.savedAt t.savedAt)
    | none => s

/-- A group resumes (R465). -/
def resumeGroup (s : State) (id : Nat) : State :=
  match s.ldr.halts.find? id with
  | none => s
  | some g =>
    let s1 := s.modLdr fun d => { d with halts := d.halts.erase id }
    if g.halted then traceGroup 0x07 id (foldOver resumeHalted s1 g.warps) g.warps else s1

/-! ## Issue logs (R467) -/

/-- The word of a log entry. -/
def logWord (kind slot run : Nat) : W64 := BitVec.ofNat 64 (kind * 2 ^ 60 + slot * 2 ^ 56 + run % 2 ^ 56)

/-- Writes the finished run of a log; a log that is full stops, and its debugger is told (DESIGN CHOICE, notes/assumptions/64.md). -/
def writeLog (s : State) (core quad : Nat) : State :=
  let g := ((s.core core).quad quad).log
  if g.run = 0 then s
  else if g.size ≤ g.pos then
    let q := (firstWhere (fun (c : Context) => c.debugQueue.isSome) s.ldr.contexts.vals).bind fun c => c.debugQueue
    (s.modQuad core quad fun x => { x with log := { g with mode := 0 } }).modLdr fun d =>
      { d with debugReports := d.debugReports ++ [(q.getD 0, 0, 0)] }
  else
    (writeEverywhere s none (atAddr (g.ring + 8 * g.pos) (wordBytes 8 (logWord g.kind g.slot g.run)))).modQuad core quad
      fun x => { x with log := { g with pos := g.pos + 1, run := 0 } }

/-- A clk of a quad with a log in record mode: a commit of the warp in a slot, or none. -/
def recordClk (s : State) (core quad : Nat) (slot : Option Nat) : State :=
  let g := ((s.core core).quad quad).log
  if g.mode ≠ 1 then s
  else
    let kind := if slot.isSome then 0 else 1
    let n := slot.getD 0
    if g.run ≠ 0 ∧ g.kind = kind ∧ g.slot = n then s.modQuad core quad fun x => { x with log := { g with run := g.run + 1 } }
    else
      (writeLog s core quad).modQuad core quad fun x =>
        if x.log.mode = 1 then { x with log := { x.log with kind := kind, slot := n, run := 1 } } else x

/-- The entry of a log that replay has reached: kind, slot, run; none at its end. -/
def replayEntry (s : State) (core quad : Nat) : Option (Nat × Nat × Nat) :=
  let g := ((s.core core).quad quad).log
  if g.mode ≠ 2 ∨ g.size ≤ g.pos then none
  else
    let v := s.mem.word (g.ring + 8 * g.pos)
    some (bitsOf v 63 60, bitsOf v 59 56, bitsOf v 55 0)

/-- The slot that a quad in replay mode may commit for in this clk, if it replays. -/
def replaySlot (s : State) (core quad : Nat) : Option (Option Nat) :=
  if ((s.core core).quad quad).log.mode ≠ 2 then none
  else
    match replayEntry s core quad with
    | some (0, n, _) => some (some n)
    | _ => some none

/-- A clk of a quad in replay mode: a run goes on by each commit, or by each clk where it names none. -/
def replayClk (s : State) (core quad : Nat) (committed : Bool) : State :=
  match replayEntry s core quad with
  | none => s
  | some (kind, _, run) =>
    if kind = 0 ∧ ¬ committed then s
    else
      s.modQuad core quad fun x =>
        if x.log.run + 1 < run then { x with log := { x.log with run := x.log.run + 1 } }
        else { x with log := { x.log with run := 0, pos := x.log.pos + 1 } }

end Sys2Proof.Machine
end

