-- ==== Sys2Proof/Machine/BundleUnit.lean ====
section
/-! DEFINITION. Bundles of several moves: each code is resolved for the warp, and the bundle issues as a whole
(spec/02_bundles_and_ports.md R74 to R93). -/

namespace Sys2Proof.Machine

/-- The operations of a unit, by opcode (R86). -/
def opTable (u : Nat) : List OpSpec :=
  match u with
  | 0 => intOps 0
  | 1 => intOps 1
  | 2 => mulOps
  | 3 => fmaOps 0
  | 4 => fmaOps 1
  | 5 => cmpOps
  | 6 => sfnOps
  | 7 => cvtOps
  | 8 => memOps 0
  | 9 => memOps 1
  | 10 => mxOps
  | 11 => cpOps
  | 12 => snapOps
  | 13 => tellOps
  | 14 => tqOps
  | 15 => aceOps
  | 16 => seqOps
  | 17 => supOps
  | _ => []

/-- The destination of a move, or the class and code with which its slot fails: class 3 for a code that is not there, 4 for an
undefined opcode (R92). -/
def bundleDest (s : State) (t : Team) (x : Warp) (code : Nat) : Except (Nat × BitVec 8) Dest :=
  match trigOf code with
  | some (u, n) =>
    if ¬ populated s t u then .error (3, codeIllegalPort)
    else match (opTable u)[n]? with
      | some o => .ok (.trig o)
      | none => .error (4, codeIllegalOp)
  | none =>
    match resolveDst s t x.budget code with
    | some d => .ok (.plain d)
    | none => .error (3, codeIllegalPort)

/-- A move of a bundle in its slot, resolved for a warp. -/
def bundleMove (b : Bundle) (s : State) (t : Team) (x : Warp) (slot : Nat) (m : Move) : RMove :=
  { slot := slot, g := m.g.toNat, ng := m.ng,
    res := match loneSource s t x (loneSrc b.slot5 m.src), bundleDest s t x m.dst.toNat with
      | some r, .ok d => .ok (r, d)
      | none, _ => .error (3, codeIllegalPort)
      | some _, .error e => .error e }

/-- The moves of a bundle, resolved for a warp. -/
def bundleMoves (b : Bundle) (s : State) (t : Team) (x : Warp) : List RMove := mapIdx (bundleMove b s t x) b.moves

/-- What a bundle holds beside its moves. -/
def bundleHeader (b : Bundle) : Header :=
  { sw := b.sw, d := b.d.toNat, lv := b.lv.toNat, im := b.im.toNat,
    cfg := match b.slot5 with
      | .cfg set j e => some (set.toNat, j.toNat, e)
      | _ => none }

/-- BUNDLE_ISSUE (R89): a bundle issues for the current warp. -/
def execBundleIssue (b : Bundle) (s : State) : Host.Outcome State Fault Refusal :=
  .next (issueMoves s (bundleHeader b) (bundleMoves b))

end Sys2Proof.Machine
end

