-- ==== Sys2Proof/Machine/Fabric.lean ====
section
/-! DEFINITION. The fabric: routers, injection, throttling, reassembly, overflow, loss, links and system time
(spec/11_fabric.md R398 to R425; spec/13_loader.md R473). Which flit an endpoint offers, and when, is a free choice
(notes/assumptions/18.md). -/

namespace Sys2Proof.Machine

/-- Changes the fabric. -/
def State.modFab (s : State) (f : Fabric → Fabric) : State := s.modEng fun e => { e with fab := f e.fab }

/-- Changes a router. -/
def State.modRouter (s : State) (r : Nat) (f : Router → Router) : State :=
  s.modFab fun b => { b with routers := b.routers.modifyD r Router.start f }

/-- A message that is not yet reassembled. -/
def State.message? (s : State) (m : Nat) : Option Message := s.eng.fab.messages.find? m

/-- Changes a message. -/
def State.modMessage (s : State) (m : Nat) (f : Message → Message) : State :=
  s.modFab fun b => { b with messages := b.messages.modify m f }

/-! ## The torus (R418 to R421; spec/13_loader.md R473) -/

/-- The torus extents in X, Y and Z. -/
def extents (s : State) : List Nat :=
  let w := s.ldr.device.getD 0 0
  [bitsOf w 25 19, bitsOf w 32 26, bitsOf w 40 33]

/-- X, Y and Z of a device id (R418). -/
def deviceCoords (d : Nat) : List Nat := [d % 64, d / 64 % 64, d / 4096]

/-- The number of configured devices. -/
def deviceCount (s : State) : Nat := product (extents s)

/-- The rank of a device among the configured ones, by rising id (R407). -/
def deviceRank (s : State) (d : Nat) : Nat :=
  match extents s, deviceCoords d with
  | [ex, ey, _], [x, y, z] => x + ex * (y + ey * z)
  | _, _ => 0

/-- System time (R407; spec/13_loader.md R473): the base and the clk counted since the step. -/
def systemTime (s : State) : Nat := (s.ldr.stBase + (s.clk - s.ldr.stClk.getD 0)) % 2 ^ 64

/-- The directions, 0 +X, 1 −X, 2 +Y, 3 −Y, 4 +Z, 5 −Z, that shorten the way to a device: the shorter way around in each
dimension, + when both are equally long (R420). -/
def linkDirs (s : State) (d : Nat) : List Nat :=
  let steps := fun (k e a b : Nat) =>
    let way := (b + e - a) % e
    if way = 0 then [] else if 2 * way ≤ e then [2 * k] else [2 * k + 1]
  match extents s, deviceCoords (s.deviceId), deviceCoords d with
  | [ex, ey, ez], [x, y, z], [x', y', z'] => steps 0 ex x x' ++ steps 1 ey y y' ++ steps 2 ez z z'
  | _, _, _ => []

/-- The direction of a link port: of ports 0 to 11 their own, of a spare port in use that of the port it stands in for
(R419; spec/13_loader.md R473). -/
def portDir (s : State) (p : Nat) : Option Nat :=
  if p < 12 then some (p / 2)
  else
    let w := s.ldr.device.getD 3 0
    let k := p - 12
    if bitOf w (8 * k + 7) then some (bitsOf w (8 * k + 3) (8 * k) / 2) else none

/-- Is a link port down? -/
def portDown (s : State) (p : Nat) : Bool := (s.eng.fab.ports.find? p).any fun x => x.down

/-- The sub-ports of a router that can carry flits, as outputs 4 to 7 with their directions. -/
def subPorts (s : State) (r : Nat) : List (Nat × Nat) :=
  if r < 64 then []
  else
    (List.range 4).filterMap fun i =>
      let p := 2 * (r - 64) + i / 2
      match portDir s p with
      | some d => if portDown s p then none else some (4 + i, d)
      | none => none

/-! ## Rank (R406, R407) -/

/-- Is a mesh flit of a source router golden in this clk? -/
def goldenMesh (s : State) (src : Nat) : Bool := src == s.eng.fab.golden && decide (s.clk % 4096 < 4064)

/-- Is a link flit of a source device golden in this clk? -/
def goldenLink (s : State) (dev : Nat) : Bool :=
  let t := systemTime s
  deviceRank s dev == t / 4096 % deviceCount s && decide (t % 4096 < 4064)

/-- The keys by which flits compete, the first to be compared first. -/
def flitRank (s : State) (f : Flit) : List Nat :=
  match s.message? f.msg with
  | none => []
  | some m =>
    let gold := if m.xd then goldenLink s m.sdev else goldenMesh s m.src
    [if gold then 0 else 1, 4095 - f.age, if m.xd then 0 else 1, if m.xd then m.sdev else m.src,
      if m.xd then m.ddev else 0, m.msgid, f.seqno]

/-- Puts a flit into a list that is in order of rank. -/
def insertFlit (s : State) (f : Flit) : List Flit → List Flit
  | [] => [f]
  | g :: r => if comesBefore (flitRank s f) (flitRank s g) then f :: g :: r else g :: insertFlit s f r

/-! ## Outputs (R398, R400, R408, R420) -/

/-- The router that a mesh output leads to: 0 N, 1 E, 2 S, 3 W. -/
def neighbour (r out : Nat) : Option Nat :=
  if out = 0 then (if 8 ≤ r then some (r - 8) else none)
  else if out = 1 then (if r % 8 < 7 then some (r + 1) else none)
  else if out = 2 then (if r < 64 then some (r + 8) else none)
  else if out = 3 then (if 0 < r % 8 then some (r - 1) else none)
  else none

/-- The input by which a flit that left by a mesh output arrives. -/
def inputFor (out : Nat) : Nat := if out = 0 then 2 else if out = 1 then 3 else if out = 2 then 0 else 1

/-- Along row 8 toward a router of it. -/
def alongRow (r k : Nat) : List Nat := if r < k then [1] else if k < r then [3] else []

/-- The router of row 8 nearest to `r` that has a port in one of some directions. -/
def nearestPort (s : State) (r : Nat) (dirs : List Nat) : Option Nat :=
  let has := fun k => (subPorts s k).any fun p => dirs.contains p.2
  let ks := (List.range 8).filterMap fun i => if has (64 + i) then some (64 + i) else none
  foldOver
    (fun (best : Option Nat) k => match best with
      | none => some k
      | some b => if (k - r) + (r - k) < (b - r) + (r - b) then some k else some b)
    none ks

/-- The productive outputs of a message at router `r`, in the order in which they are tried. A link flit whose router has no
port of its directions goes along row 8 toward one that has. -/
def productive (s : State) (r : Nat) (m : Message) : List Nat :=
  if m.xd then
    if m.ddev = s.deviceId then alongRow r (linkHome m.sdev)
    else
      let dirs := linkDirs s m.ddev
      let here := ((subPorts s r).filter fun p => dirs.contains p.2).map Prod.fst
      if ¬ here.isEmpty then here
      else match nearestPort s r dirs with
        | some k => alongRow r k
        | none => []
  else
    let x := r % 8
    let y := r / 8
    let x' := m.dst % 8
    let y' := m.dst / 8
    (if x < x' then [1] else if x' < x then [3] else []) ++ (if y < y' then [2] else if y' < y then [0] else [])

/-- The outputs that a message may take at router `r` when it is deflected: N, E, S, W, then link sub-ports by number. A link
flit stays in row 8; a mesh flit takes no sub-port. -/
def anyOutput (s : State) (r : Nat) (m : Message) : List Nat :=
  if m.xd then ([1, 3].filter fun o => (neighbour r o).isSome) ++ (subPorts s r).map Prod.fst
  else [0, 1, 2, 3].filter fun o => (neighbour r o).isSome

/-- Is a message addressed to a router? -/
def addressedTo (s : State) (r : Nat) (m : Message) : Bool :=
  if m.xd then m.ddev == s.deviceId && r == linkHome m.sdev else m.dst == r

/-- The ejection port of an endpoint: 0 for EP 0 to 3, 1 for EP 4 to 7 (R400). -/
def ejectPort (m : Message) : Nat := if m.xd then 1 else m.dstEp / 4

/-! ## Messages that are whole (R414, R502) -/

/-- The core at a router's endpoint (R399). -/
def coreAt (r ep : Nat) : Nat := 4 * (16 * (r % 8 / 4 + 2 * (r / 8 / 4)) + r % 8 % 4 + 4 * (r / 8 % 4)) + ep

/-- The bytes with which a response is carried. -/
def replyBytes (s : State) (w : WRef) (op lane : Nat) : Nat :=
  match ((s.warp? w).bind fun x => x.op? op).bind fun o => o.item? lane with
  | some i => match i.place with
    | some p => p.grain
    | none => 8
  | none => 0

/-- The device that a message goes to, beyond a link endpoint. -/
def peerOf (s : State) : Purpose → Nat
  | .request w op lane =>
    match ((s.warp? w).bind fun x => x.op? op).bind fun o => o.item? lane with
    | some i => match i.place with
      | some p => p.dev
      | none => 0
    | none => 0
  | .write id => match s.mem.writes.find? id with
    | some m => m.dev
    | none => 0
  | .fetch _ _ line => lineDev line
  | .answer id => match s.ldr.outs.find? id with
    | some a => a.dev.getD 0
    | none => 0
  | _ => 0

/-- The lane of an operation, if it is still in flight. -/
def itemOf (s : State) (w : WRef) (op lane : Nat) : Option (Op × Item) :=
  ((s.warp? w).bind fun x => x.op? op).bind fun o => (o.item? lane).map fun i => (o, i)

/-- A response that is lost, or brings poisoned bytes to its lane: what the home does for an operation that is no load it has done, and the lane fills
POISON (R405, R413, R417). -/
def loseReply (s : State) (w : WRef) (op lane : Nat) : State :=
  match itemOf s w op lane with
  | none => s
  | some (o, i) =>
    if i.trip = 2 then s
    else if o.filledByLoad || o.isWaitcmp || (o.unit == unitCp && o.opc == 12) || (o.unit == unitTell && o.opc == 3 && i.extra.isEmpty) then
      failItem s w o i codePoison
    else s.modWarp w fun x => x.modOp op fun o => o.modItem lane fun i => { i with trip := 2, lost := true }

/-- A request that is lost on its way to its home: nothing is performed, and the lane fills POISON. -/
def loseRequest (s : State) (w : WRef) (op lane : Nat) : State :=
  match itemOf s w op lane with
  | none => s
  | some (o, i) => if i.trip = 2 then s else failItem s w o i codePoison

/-- Where a lane's own bytes lie in its response, and how many: a load's response carries its grain. -/
def replyPart (o : Op) (i : Item) : Nat × Nat :=
  match i.place with
  | some p => if isMem o.unit && isLoad o.opc then (p.pa % p.grain, o.width i) else (0, 128)
  | none => (0, 128)

/-- A response is there: the lane's access may be performed and fill. Poisoned groups of its data count where they meet the lane's
bytes; beside them they only keep a copy from being made (R405). -/
def replyArrives (s : State) (w : WRef) (op lane : Nat) (bad : List Nat) : State :=
  match itemOf s w op lane with
  | none => s
  | some (o, i) =>
    let k := replyPart o i
    if bad.any fun g => overlap (8 * g) 8 k.1 k.2 then loseReply s w op lane
    else s.modWarp w fun x => x.modOp op fun o => o.modItem lane fun i =>
      if i.trip = 1 then { i with trip := 2, spoiled := !bad.isEmpty } else i

/-- Poisoned operands reach a home: an atomic's target is poisoned, an object operation is not performed (R405, R223). -/
def requestPoison (s : State) (w : WRef) (op lane : Nat) (bad : List Nat) : State :=
  if bad.isEmpty then s
  else
    match itemOf s w op lane with
    | none => s
    | some (o, i) =>
      match i.place with
      | some p => if isMem o.unit && isAtomic o.opc then poisonSectors [p.gaddr / 32] s else s
      | none => loseRequest s w op lane

/-- A write arrives at its home with what of its bytes is poisoned (R405, R223). -/
def writeComes (s : State) (id : Nat) (bad : List Nat) : State :=
  let secs := fun (m : MemWrite) =>
    (bad.flatMap fun k => ((List.range 8).filterMap fun j => m.bytes[8 * k + j]?).map fun b => gaddr m.tgt m.dev b.1 / 32).eraseDups
  writeArrives (s.modMem fun m => { m with writes := m.writes.modify id fun x => { x with bad := secs x } }) id

/-- An update arrives at its sharer; of poisoned bytes the sharer keeps no copy (R405). -/
def updateComes (s : State) (id : Nat) (bad : List Nat) : State :=
  let s1 := s.modMem fun x => { x with updates := x.updates.modify id fun u => { u with arrived := true } }
  match bad, s.mem.updates.find? id with
  | _ :: _, some u => s1.modCore u.core fun k => { k with l1 := k.l1.filter fun sec _ => !u.bytes.any fun b => b.1 / 32 == sec }
  | _, _ => s1

/-- The data of a line are at their engine, or of no use to it. -/
def dataComes (s : State) (team job line : Nat) (bad : List Nat) : State :=
  if bad.isEmpty then s.modJob team job fun b => { b with fetch := b.fetch.modify line fun _ => true } else jobLoses team job s

/-- A message goes on in a leg of its own, with what it carries. -/
def onward (m : Message) (next : Message) (s : State) : State := s.post { next with bad := m.bad }

/-- A message goes on to the device beyond the link endpoint that it has come to. -/
def outward (m : Message) (s : State) : State :=
  onward m (.link false s.deviceId (peerOf s m.purpose) s.clk m.cls m.ctx m.nflit m.purpose) s

/-- The endpoint acts on a whole message that has crossed the mesh. -/
def actOnMessage (s : State) (m : Message) : State :=
  let out := decide (m.dst ≥ 64) && m.dstEp == 7
  match m.purpose with
  | .request w op lane =>
    if out then outward m s
    else
      send (requestPoison s w op lane m.bad) (m.dst, m.dstEp) (m.src, m.srcEp) 1 m.ctx (flitsFor (replyBytes s w op lane)) (.reply w op lane)
        (some (coreAt m.src m.srcEp))
  | .reply w op lane => replyArrives s w op lane m.bad
  | .write id => if out then outward m s else writeComes s id m.bad
  | .ack id => s.modMem fun x => { x with writes := x.writes.modify id fun w => { w with ack := 2 } }
  | .update id => updateComes s id m.bad
  | .updateAck _ => s
  | .fetch team job line =>
    if out then outward m s
    else send s (m.dst, m.dstEp) (m.src, m.srcEp) 5 m.ctx 9 (.data team job line) (some (coreAt m.src m.srcEp))
  | .data team job line => dataComes s team job line m.bad
  | .access id => visitArrives id m.bad s
  | .answer id => if out then outward m s else visitLeaves id s
  | .doorbell queue producer => doorbellRings queue producer s
  | .transit => s

/-- A message between devices has come to its link endpoint: it goes on over the mesh (R502). -/
def actOnLink (s : State) (m : Message) : State :=
  let toCore := fun (core cls : Nat) (slot : Option Nat) =>
    onward m (.fresh (m.dst, 7) (coreEndpoint core) cls m.ctx m.nflit m.purpose slot) s
  match m.purpose with
  | .reply w _ _ => toCore (s.coreOf w.team) 1 (some (s.coreOf w.team))
  | .data team _ _ => toCore (s.coreOf team) 5 (some (s.coreOf team))
  | .ack id => match s.mem.writes.find? id with
    | some x => toCore x.core 3 none
    | none => s
  | .access id => visitEnters m id s
  | _ => s

/-- A message that has left the device is whole at the other: a request is answered, a write is performed there, an answer is read. -/
def actAbroad (s : State) (m : Message) : State :=
  match m.purpose with
  | .request w op lane => sendLink s true m.ddev 1 m.ctx (flitsFor (replyBytes s w op lane)) (.reply w op lane)
  | .write id => writeComes s id m.bad
  | .fetch team job line => sendLink s true m.ddev 5 m.ctx 9 (.data team job line)
  | .answer id => visitLeaves id s
  | _ => s

/-- A message of which every flit is there is acted on and gone. -/
def completeMessage (s : State) (id : Nat) (act : State → Message → State) : State :=
  match s.message? id with
  | none => s
  | some m =>
    if m.arrived.length < m.nflit then s
    else act (s.modFab fun b => { b with messages := b.messages.erase id }) m

/-! ## Arrival at an endpoint (R414 to R416) -/

/-- Reassembly slots of a core in use. -/
def slotsUsed (s : State) (core : Nat) : Nat :=
  (s.eng.fab.messages.vals.filter fun m => m.core == some core && !m.arrived.isEmpty).length

/-- Is a context resident on a core? Device traffic is everywhere. -/
def residentOn (s : State) (ctx core : Nat) : Bool :=
  ctx == 0 || s.teams.vals.any fun t => t.ctx == ctx && t.core == core && t.status != .saved

/-- The core whose slots a message belongs into now: that of the team that waits for it, or its own. -/
def slotCore (s : State) (m : Message) : Option Nat :=
  match m.purpose with
  | .reply w _ _ => if m.core.isSome && s.onCore w.team then some (s.coreOf w.team) else none
  | .data team _ _ => if m.core.isSome && s.onCore team then some (s.coreOf team) else none
  | _ => m.core

/-- May a flit of a message stand in a slot of a core: its own slot, or a free one? -/
def slotFor (s : State) (m : Message) (core : Nat) : Bool :=
  slotCore s m == some core && residentOn s m.ctx core && (!m.arrived.isEmpty || decide (slotsUsed s core < 256))

/-- The source router of a flit that it has injected gets a credit (R409). -/
def giveCredit (s : State) (f : Flit) : State :=
  match s.message? f.msg with
  | none => s
  | some m => if ¬ f.own then s else s.modFab fun b => { b with credits := b.credits ++ [(m.src, 1)] }

/-- A flit is ejected: into a slot, the overflow list, or the state of its endpoint. -/
def ejectFlit (s1 : State) (f : Flit) : State :=
  match s1.message? f.msg with
  | none => s1
  | some m =>
    let since := some (m.firstAt.getD s1.clk)
    match m.core with
    | some c =>
      if slotFor s1 m c then
        completeMessage (s1.modMessage f.msg fun m => { m with arrived := m.arrived ++ [f.seqno], firstAt := since }) f.msg
          actOnMessage
      else
        (s1.modMessage f.msg fun m => { m with overflow := m.overflow ++ [f.seqno], firstAt := since }).modFab fun b =>
          { b with overflowCount := b.overflowCount + 1 }
    | none =>
      completeMessage (s1.modMessage f.msg fun m => { m with arrived := m.arrived ++ [f.seqno], firstAt := since }) f.msg
        (if m.xd then actOnLink else actOnMessage)

/-- A flit leaves the device by a sub-port. One that was to stay comes back later by a link frame. -/
def leaveDevice (s : State) (f : Flit) : State :=
  match s.message? f.msg with
  | none => s
  | some m =>
    (giveCredit s f).modMessage f.msg fun k =>
      if m.ddev = s.deviceId then { k with toSend := k.toSend ++ [f.seqno], inbound := true }
      else { k with arrived := k.arrived ++ [f.seqno], outAt := s.clk }

/-- Has a message left this device for another one with all its flits? It is outstanding until that one has reassembled it (R404). -/
def Message.abroad (s : State) (m : Message) : Bool := m.xd && m.ddev != s.deviceId && decide (m.nflit ≤ m.arrived.length)

/-- The bound of R421 on the way of a link flit. -/
def linkBound (s : State) : Nat := deviceCount s * 4096 + 48 * sumOf ((extents s).map fun e => e / 2) + 30

/-- A message that has left is reassembled at its destination, at a free clk within the bound of R421. -/
def landAbroad (s : State) (id : Nat) : State :=
  match s.message? id with
  | none => s
  | some m =>
    if m.lost then s
    else
      let r := if m.outAt + linkBound s ≤ s.clk then (true, s) else freeBool s
      if r.1 then completeMessage r.2 id actAbroad else r.2

/-- A flit takes an output of a router. -/
def takeOutput (s : State) (r out : Nat) (f : Flit) : State :=
  let s1 := s.modRouter r fun x => { x with taken := out :: x.taken }
  match neighbour r out with
  | some n =>
    if out < 4 then s1.modFab fun b => { b with moved := b.moved ++ [{ f with router := n, input := inputFor out }] }
    else leaveDevice s1 f
  | none => leaveDevice s1 f

/-- The first output of a list that a router has free. -/
def freeOutput (s : State) (r : Nat) (l : List Nat) : Option Nat :=
  firstWhere (fun o => !(s.router r).taken.contains o) l

/-- A deflection of a router is counted, in its window and for ever (R411, R447). -/
def countDeflection (s : State) (r : Nat) : State :=
  let s1 := (s.modRouter r fun x => { x with defl := x.defl + 1 }).modFab fun b =>
    { b with deflections := b.deflections.modifyD r 0 fun v => v + 1 }
  if r < 64 then foldOver (fun s ep => countEvent s (coreAt r ep) 0x07) s1 [0, 1, 2, 3] else s1

/-- Reassembly slots of a link endpoint in use: messages for it of which some flits have come (R414). -/
def linkSlots (s : State) (r : Nat) : Nat :=
  (s.eng.fab.messages.vals.filter fun m => m.xd && m.ddev == s.deviceId && linkHome m.sdev == r && !m.arrived.isEmpty).length

/-- Can an endpoint take a flit of a message now: a link endpoint has 512 slots (R414)? A flit that finds none goes on like one whose port is
taken (DESIGN CHOICE, notes/assumptions/18.md). -/
def takesFlit (s : State) (r : Nat) (m : Message) : Bool := !m.xd || !m.arrived.isEmpty || decide (linkSlots s r < 512)

/-- One arriving flit is ejected, routed or deflected (R408). A flit that finds no output at all stays for a clk. -/
def routeFlit (r : Nat) (s : State) (f : Flit) : State :=
  match s.message? f.msg with
  | none => s
  | some m =>
    let e := ejectPort m
    if addressedTo s r m ∧ takesFlit s r m ∧ ¬ (s.router r).eject.contains e then
      ejectFlit (giveCredit (s.modRouter r fun x => { x with eject := e :: x.eject }) f) f
    else
      match freeOutput s r (if addressedTo s r m then [] else productive s r m) with
      | some out => takeOutput s r out f
      | none =>
        match freeOutput s r (anyOutput s r m) with
        | some out => countDeflection (takeOutput s r out f) r
        | none => s.modFab fun b => { b with moved := b.moved ++ [f] }

/-- FLIT_ARRIVAL (R408): the flits that arrive at the subject's router in this clk, in order of rank. -/
def execFlitArrival (s : State) : Host.Outcome State Fault Refusal :=
  match s.subject with
  | .num r =>
    let here := s.eng.fab.flits.filter fun f => f.router == r
    let s1 := s.modFab fun b => { b with flits := b.flits.filter fun f => f.router != r }
    .next (foldOver (routeFlit r) s1 (foldOver (fun l f => insertFlit s f l) [] here))
  | _ => .next s

/-! ## Injection (R404, R407, R409, R412) -/

/-- The messages that wait at an endpoint with flits to be injected, with those flits. -/
def waitingFlits (s : State) (r ep : Nat) : List (Nat × Nat) :=
  s.eng.fab.messages.entries.flatMap fun e =>
    if e.2.src = r ∧ e.2.srcEp = ep ∧ ¬ e.2.inbound then e.2.toSend.map fun q => (e.1, q) else []

/-- An endpoint without a candidate may offer one of its waiting flits: a free choice (DESIGN CHOICE, notes/assumptions/18.md). -/
def offer (r : Nat) (s : State) (ep : Nat) : State :=
  if (s.router r).cand.has ep then s
  else
    match waitingFlits s r ep with
    | [] => s
    | l =>
      let b := freeBool s
      if ¬ b.1 then b.2
      else
        let k := freeBelow b.2 l.length
        match l[k.1]? with
        | some c => k.2.modRouter r fun x => { x with cand := x.cand.insert ep c }
        | none => k.2

/-- The endpoint whose turn it is: the first with a candidate after the one that injected last. -/
def offering (x : Router) : Option Nat :=
  firstWhere (fun ep => x.cand.has ep) ((List.range 8).map fun i => (x.lastEp + 1 + i) % 8)

/-- The ids of link messages from one device to another that are in use here. -/
def linkIds (s : State) (sdev ddev : Nat) : List Nat :=
  (s.eng.fab.messages.vals.filter fun k => k.xd && k.msgid != 1024 && k.sdev == sdev && k.ddev == ddev).map fun k => k.msgid

/-- The ids of a message's kind that are in use at its source (R402 to R404). -/
def usedIds (s : State) (m : Message) : List Nat :=
  if m.xd then linkIds s m.sdev m.ddev
  else (s.eng.fab.messages.vals.filter fun k => !k.xd && k.msgid != 1024 && k.src == m.src).map fun k => k.msgid

/-- The id that a message takes at the injection of its first flit, if its source has one left. -/
def idFor (s : State) (m : Message) : Option Nat :=
  if m.msgid ≠ 1024 then some m.msgid
  else
    let used := usedIds s m
    let limit := if m.xd then 512 else 1024
    if used.length < limit then some (leastFree used 0 limit) else none

/-- May router `r` inject a flit of a message in this clk? -/
def mayInject (s : State) (r : Nat) (m : Message) : Bool :=
  let x := s.router r
  !x.injected && decide (s.clk % 8 < 8 - x.level) && decide (x.own < 256) && !goldenMesh s r &&
    !(m.xd && goldenLink s m.sdev)

/-- Injects the candidate of an endpoint: into the ejection port of its own router, or into a free productive output. -/
def injectFrom (s : State) (r ep : Nat) (c : Nat × Nat) : State :=
  match s.message? c.1 with
  | none => s.modRouter r fun x => { x with cand := x.cand.erase ep }
  | some m =>
    match idFor s m with
    | none => s
    | some id =>
      if ¬ mayInject s r m then s
      else
        let f : Flit := { msg := c.1, seqno := c.2, age := 0, router := r, input := 4, own := true }
        let s1 := (s.modMessage c.1 fun m => { m with msgid := id, toSend := m.toSend.erase c.2 }).modRouter r fun x =>
          { x with cand := x.cand.erase ep, lastEp := ep, injected := true }
        let e := ejectPort m
        if addressedTo s r m then
          if (s.router r).eject.contains e ∨ ¬ takesFlit s r m then s
          else ejectFlit (s1.modRouter r fun x => { x with eject := e :: x.eject }) f
        else
          match freeOutput s r (productive s r m) with
          | some out => takeOutput (s1.modRouter r fun x => { x with own := x.own + 1 }) r out f
          | none => s

/-- FLIT_INJECTION (R409): the endpoints of the subject's router offer flits, and one of them may enter the network. It comes
after the arriving flits. -/
def execFlitInjection (s : State) : Host.Outcome State Fault Refusal :=
  match s.subject with
  | .num r =>
    if s.eng.fab.flits.any fun f => f.router == r then .next s
    else
      let s1 := foldOver (offer r) s (List.range 8)
      match offering (s1.router r) with
      | some ep =>
        match (s1.router r).cand.find? ep with
        | some c => .next (injectFrom s1 r ep c)
        | none => .next s1
      | none => .next s1
  | _ => .next s

/-! ## Overflow, credits, ages, levels, epochs -/

/-- Moves the flits of a message from the overflow list into a slot of the core where they belong now (R415, R416). -/
def moveOverflow (core : Nat) (s : State) (id : Nat) : State :=
  match s.message? id with
  | none => s
  | some m =>
    if slotCore s m = some core ∧ (m.core ≠ some core ∨ ¬ m.overflow.isEmpty) ∧ residentOn s m.ctx core ∧
        (m.arrived.length + m.overflow.length = 0 ∨ (m.core = some core ∧ ¬ m.arrived.isEmpty) ∨ slotsUsed s core < 256) then
      completeMessage
        (s.modMessage id fun m =>
          { m with arrived := m.arrived ++ m.overflow, overflow := [], core := some core, firstAt := m.firstAt.map fun _ => s.clk }) id
        actOnMessage
    else s

/-- OVERFLOW_MOVE (R415, R416): the subject's core takes the flits of its contexts from their overflow lists. -/
def execOverflowMove (s : State) : Host.Outcome State Fault Refusal :=
  match s.subject with
  | .num core => .next (foldOver (moveOverflow core) s s.eng.fab.messages.keys)
  | _ => .next s

/-- CREDIT_RETURN (R409): the subject's router gets the credits of its flits that have left the network. -/
def execCreditReturn (s : State) : Host.Outcome State Fault Refusal :=
  match s.subject with
  | .num r =>
    let n := sumOf ((s.eng.fab.credits.filter fun c => c.1 == r).map Prod.snd)
    .next ((s.modRouter r fun x => { x with own := x.own - n }).modFab fun b =>
      { b with credits := b.credits.filter fun c => c.1 != r })
  | _ => .next s

/-- AGE_TICK (R406): every flit in the network ages, in the clk whose low six bits are zero. -/
def execAgeTick (s : State) : Host.Outcome State Fault Refusal :=
  if s.clk % 64 ≠ 0 then .next s
  else .next (s.modFab fun b => { b with flits := b.flits.map fun f => { f with age := Nat.min 4095 (f.age + 1) } })

/-- The throttle level after a window with `d` deflections (R411). -/
def nextLevel (level d : Nat) : Nat :=
  let target := Nat.min 7 (d / 32)
  if level < target then target else Nat.max target (level - 1)

/-- THROTTLE_UPDATE (R411): the subject's router takes the level of its last 256 clk. -/
def execThrottleUpdate (s : State) : Host.Outcome State Fault Refusal :=
  match s.subject with
  | .num r =>
    if s.clk % 256 ≠ 0 then .next s
    else .next (s.modRouter r fun x => { x with level := nextLevel x.level x.defl, defl := 0 })
  | _ => .next s

/-- GOLDEN_EPOCH (R407): the golden router of the epoch that begins. -/
def execGoldenEpoch (s : State) : Host.Outcome State Fault Refusal :=
  .next (s.modFab fun b => { b with golden := s.clk / 4096 % 72 })

/-! ## Loss (R417) -/

/-- A write is not known to have performed: it may have or not. -/
def loseWrite (s : State) (id : Nat) : State :=
  let r := freeBool s
  let s1 := if r.1 then writeArrives r.2 id else r.2
  performReady (s1.modMem fun m =>
    { m with
      writes := m.writes.modify id fun x =>
        { x with lost := true, bytes := if x.performed then x.bytes else [], performed := true } })

/-- What the loss of a message does: to a request or its response, a write or its acknowledgements, an engine job's data, an access from
outside, whose other side hears nothing of it; a doorbell is not rung. -/
def loseFor (s : State) : Purpose → State
  | .request w op lane => loseRequest s w op lane
  | .reply w op lane => loseReply s w op lane
  | .write id => loseWrite s id
  | .ack id => loseWrite s id
  | .updateAck id => loseWrite s id
  | .fetch team job _ => jobLoses team job s
  | .data team job _ => jobLoses team job s
  | .access id => s.modLdr fun d => { d with outs := d.outs.erase id }
  | .answer id => s.modLdr fun d => { d with outs := d.outs.erase id }
  | .doorbell _ _ => s
  | .update id =>
    match s.mem.updates.find? id with
    | some u => loseWrite (s.modMem fun m => { m with updates := m.updates.erase id }) u.write
    | none => s
  | .transit => s

/-- The longest that a slot may stay incomplete: the bound of R410 or R421 and 65,536 clk. -/
def reassemblyLimit (s : State) (m : Message) : Nat := (if m.xd then linkBound s else 72 * 4096 + 15) + 65536

/-- Is the slot of a message to be discarded: it has stood incomplete too long, or nothing of a lost message has arrived? What was saved with
its context, or stands in an overflow list, waits for the resume (R416). -/
def messageOver (s : State) (m : Message) : Bool :=
  if (m.core.isSome && (slotCore s m).isNone) || !m.overflow.isEmpty then false
  else match m.firstAt with
    | some k => decide (k + reassemblyLimit s m < s.clk)
    | none => m.lost

/-- REASSEMBLY_TIMEOUT (R417): the subject's message is given up, and the loss counted. -/
def execReassemblyTimeout (s : State) : Host.Outcome State Fault Refusal :=
  match s.subject with
  | .num id =>
    match s.message? id with
    | some m =>
      if ¬ messageOver s m then .next s
      else
        let gone := ((s.eng.fab.flits ++ s.eng.fab.moved).filter fun f => f.msg == id && f.own).length
        let s1 := (s.modFab fun b =>
          { b with
            messages := b.messages.erase id, flits := b.flits.filter fun f => f.msg != id
            moved := b.moved.filter fun f => f.msg != id, lostCount := b.lostCount + 1
            credits := if gone = 0 then b.credits else b.credits ++ [(m.src, gone)] }).modRouter m.src fun x =>
          { x with cand := x.cand.filter fun _ c => c.1 != id }
        .next (loseFor s1 m.purpose)
    | none => .next s
  | _ => .next s

/-! ## Links (R419 to R422) -/

/-- A link port goes down: messages of which flits were in transit on it are lost, which ones is a free choice. -/
def portGoesDown (s : State) (p : Nat) : State :=
  foldOver
    (fun s (e : Nat × Message) =>
      if e.2.xd ∧ (e.2.inbound ∨ ¬ e.2.arrived.isEmpty) then
        let r := freeBool s
        if r.1 then r.2.modMessage e.1 fun m => { m with lost := true } else r.2
      else s)
    (s.modFab fun b => { b with ports := b.ports.insert p { down := true, fails := 0 } }) s.eng.fab.messages.entries

/-- Do flits of a message stand outside that would be late, with the time that a golden epoch and a way through this mesh take (R410, R421)? -/
def Message.late (s : State) (m : Message) : Bool := m.inbound && !m.lost && decide (m.outAt + linkBound s ≤ s.clk + 4096 + 15)

/-- The flits that stand outside, to come in by link frames; once some would be late, only those. -/
def outsideFlits (s : State) : List (Nat × Nat) :=
  let ms := s.eng.fab.messages.entries.filter fun e => e.2.inbound && !e.2.lost
  let late := ms.filter fun e => e.2.late s
  (if late.isEmpty then ms else late).flatMap fun e => e.2.toSend.map fun q => (e.1, q)

/-- A flit of another device on its way to a third, with an id that no other such flit here has (R403, R406). -/
def addTransit (s : State) : State :=
  let a := freeBelow s 524288
  let b := freeBelow a.2 524288
  let used := linkIds s a.1 b.1
  if a.1 = s.deviceId ∨ b.1 = s.deviceId ∨ ¬ configured s a.1 ∨ ¬ configured s b.1 ∨ 512 ≤ used.length then b.2
  else
    let k := freeBelow b.2 (512 - used.length)
    let q := freeBelow k.2 16
    let left := (List.range 512).filter fun n => !used.contains n
    q.2.post
      { Message.fresh (64, 7) (64, 7) 0 0 1 .transit none with
        msgid := left.getD k.1 0, xd := true, sdev := a.1, ddev := b.1, toSend := [q.1], inbound := true, outAt := s.clk }

/-- A frame that is received right brings a flit to the router of its port, if the sub-port is not taken in this clk. -/
def frameBrings (s : State) (p : Nat) : State :=
  let s1 := if (outsideFlits s).isEmpty then addTransit s else s
  let l := outsideFlits s1
  let k := freeBelow s1 l.length
  let sub := freeBelow k.2 2
  match l[k.1]? with
  | none => s1
  | some c =>
    let r := 64 + p / 2
    let input := 4 + 2 * (p % 2) + sub.1
    if (sub.2.eng.fab.moved.any fun f => f.router == r && f.input == input) ∨ (portDir s p).isNone then s1
    else
      match (s1.message? c.1).bind (idFor s1) with
      | none => s1
      | some id =>
        let age := freeBelow sub.2 4096
        (age.2.modMessage c.1 fun m =>
          { m with toSend := m.toSend.erase c.2, inbound := decide (1 < m.toSend.length), msgid := id }).modFab fun b =>
        { b with moved := b.moved ++ [{ msg := c.1, seqno := c.2, age := age.1, router := r, input := input, own := false }] }

/-- LINK_FRAME_RECEIVE (R422): a frame received in error is replayed; after 16 failed replays in a row the port goes down. -/
def execLinkFrameReceive (s : State) : Host.Outcome State Fault Refusal :=
  match s.subject with
  | .frame f =>
    if 16 ≤ f.port ∨ portDown s f.port then .next s
    else
      let fails := match s.eng.fab.ports.find? f.port with
        | some x => x.fails
        | none => 0
      let put := fun n (s : State) => s.modFab fun b => { b with ports := b.ports.insert f.port { down := false, fails := n } }
      if f.crcOk then .next (frameBrings (if fails = 0 then s else put 0 s) f.port)
      else
        let s1 := s.modFab fun b => { b with replayCount := b.replayCount + 1 }
        .next (if 16 ≤ fails then portGoesDown s1 f.port else put (fails + 1) s1)
  | _ => .next s

/-! ## System time (R407; spec/13_loader.md R473) -/

/-- SYSTEM_TIME_STEP (spec/13_loader.md R473): at STEPCLK the device takes STBASE. -/
def execSystemTimeStep (s : State) : Host.Outcome State Fault Refusal :=
  if s.clk % 2 ^ 48 = bitsOf (s.ldr.device.getD 5 0) 47 0 then
    .next (s.modLdr fun d => { d with stClk := some s.clk, stBase := (d.device.getD 4 0).toNat })
  else .next s

/-- SYSTEM_TIME_SLEW (spec/13_loader.md R473): system time moves by one clk toward that of the neighbours, at most once in
4,096 clk; which way they lie is theirs. -/
def execSystemTimeSlew (s : State) : Host.Outcome State Fault Refusal :=
  if s.ldr.stClk.isNone ∨ deviceCount s ≤ 1 ∨ s.clk < s.eng.fab.slewAt then .next s
  else
    let r := freeBool s
    .next ((r.2.modLdr fun d => { d with stBase := (d.stBase + (if r.1 then 1 else 2 ^ 64 - 1)) % 2 ^ 64 }).modFab fun b =>
      { b with slewAt := s.clk + 4096 })

/-! ## The turn of a clk -/

/-- At the turn of a clk the flits arrive that have moved, the routers' outputs are free again, and messages that have left come to their
devices. -/
def fabricTurn (s : State) : State :=
  let s1 := s.modFab fun b =>
    { b with
      flits := b.flits ++ b.moved, moved := []
      routers := b.routers.mapVals fun _ x => { x with taken := [], eject := [], injected := false } }
  foldOver landAbroad s1 ((s1.eng.fab.messages.entries.filter fun e => e.2.abroad s1).map Prod.fst)

end Sys2Proof.Machine
end

