-- ==== Sys2Proof/Machine/Outside.lean ====
section
/-! DEFINITION. Accesses of the host and of peer devices to this device's memory enter the fabric (spec/11_fabric.md R423, R426 to R428;
spec/13_loader.md R475, R503). What they do at their homes is in Visits; what the other side is answered stands in the loader's
`answer`. -/

namespace Sys2Proof.Machine

/-! ## Peers (R423; spec/13_loader.md R503) -/

/-- An access from outside is noted, and travels with the operand bytes that it carries: of the host from the host interface, of a peer
from its device (R426, R502). -/
def sendVisit (s : State) (a : OutAccess) : State :=
  let (id, s1) := takeId s
  let s2 := s1.modLdr fun d => { d with outs := d.outs.insert id a }
  let n := flitsFor (if a.kind = .write then a.bytes.length else if a.kind = .read then 0 else if a.kind = .cas then 2 * a.width else a.width)
  match a.dev with
  | none => send s2 hostEndpoint (homeEndpoint (homeSlice a.pa)) 6 0 n (.access id) none
  | some d => sendLink s2 true d 0 0 n (.access id)

/-- PEER_ACCESS (R423): a configured peer's access is on its way to this device. -/
def execPeerAccess (s : State) : Host.Outcome State Fault Refusal :=
  match s.subject with
  | .peer p =>
    if p.dev = s.deviceId ∨ ¬ configured s p.dev then .next s
    else
      .next (sendVisit s
        { dev := some p.dev, mark := 0, kind := p.kind, opc := p.opc, pa := p.addr,
          bytes := if p.kind = .write then atAddr p.addr (wordBytes p.bytes p.data) else [], width := p.bytes, operand := p.data,
          cmp := p.cmp, epoch := none, performed := false, answer := .none })
  | _ => .next s

/-! ## The host (R426 to R428; spec/13_loader.md R475) -/

/-- The marker of the posted writes of a Requester ID: those with Relaxed Ordering have one of their own. -/
def hostMark (a : HostAccess) : Nat := 1 + a.req % 65536 + (if a.relaxed then 65536 else 0)

/-- The bytes of a function's BAR before its windows: doorbells, and for the physical function the journal. -/
def barHead (func : Nat) : Nat := if func = 64 then 2 ^ 24 else 2 ^ 20

/-- The device physical address that a range of a function's BAR reaches, through a window that allows what is asked. -/
def hostTarget (s : State) (func off n : Nat) (wr : Bool) : Option Nat :=
  foldOver
    (fun (r : Option Nat) (w : List W64) =>
      let w0 := w.getD 0 0
      let base := bitsOf (w.getD 1 0) 63 20 * 2 ^ 20
      if bitOf w0 7 ∧ (bitOf w0 6 ∨ ¬ wr) ∧ base ≤ off ∧ off + n ≤ base + bitsOf (w.getD 2 0) 31 0 * 2 ^ 20 then
        some (bitsOf (w.getD 3 0) 51 20 * 2 ^ 20 + (off - base))
      else r)
    none (s.func func).windows.vals

/-- May an access of the host be made now? A posted write without Relaxed Ordering waits for the acknowledgement of the one
before, a read for every earlier access of its Requester ID to be performed (R427, R428). -/
def hostReady (s : State) (a : HostAccess) : Bool :=
  let strict := 1 + a.req % 65536
  s.ldr.outs.vals.all fun o =>
    o.dev.isSome ||
      (if a.kind = .write then a.relaxed || o.kind != .write || o.mark != strict
       else o.performed || (o.mark != strict && o.mark != strict + 65536))

/-- The access that the host makes of bytes of one line. -/
def hostVisit (a : HostAccess) (opc pa n : Nat) (l : List (Nat × Byte)) : OutAccess :=
  { dev := none, mark := hostMark a, kind := a.kind, opc := opc, pa := pa, bytes := l, width := n, operand := a.operand, cmp := a.cmp,
    epoch := none, performed := false, answer := .none }

/-- HOST_WRITE (R427): a posted write, line by line; one that no open window takes is discarded and counted. The doorbells at the head of the
BAR are written by DOORBELL_WRITE. -/
def execHostWrite (s : State) : Host.Outcome State Fault Refusal :=
  match s.subject with
  | .host a =>
    if a.kind ≠ .write ∨ ¬ hostReady s a ∨ a.off < barHead a.func then .next s
    else
      match hostTarget s a.func a.off a.bytes.length true with
      | some pa =>
        .next (foldOver (fun s bs => sendVisit s (hostVisit a 0 ((bs.head?.getD (pa, 0)).1) bs.length bs)) s (byLine (atAddr pa a.bytes)))
      | none => .next (s.modLdr fun d => { d with hostErrors := d.hostErrors + 1 })
  | _ => .next s

/-- The parts of a range that lie in one line each: address and length. -/
def lineParts (pa n : Nat) : List (Nat × Nat) :=
  (List.range ((pa % 512 + n + 511) / 512)).map fun k =>
    let first := if k = 0 then pa else (pa / 512 + k) * 512
    (first, Nat.min (pa + n) ((pa / 512 + k + 1) * 512) - first)

/-- HOST_READ (R428): a read, answered line by line. What the head of a BAR reads as is not stated: a free value. -/
def execHostRead (s : State) : Host.Outcome State Fault Refusal :=
  match s.subject with
  | .host a =>
    if a.kind ≠ .read ∨ ¬ hostReady s a then .next s
    else if a.off < barHead a.func then
      let r := freeWord s
      .next (answerWith (.data (wordBytes a.width r.1)) r.2)
    else
      match hostTarget s a.func a.off a.width false with
      | some pa => .next (foldOver (fun s (p : Nat × Nat) => sendVisit s (hostVisit a 0 p.1 p.2 [])) s (lineParts pa a.width))
      | none => .next (answerWith .unsupported s)
  | _ => .next s

/-- The memory opcode of a host atomic: FetchAdd, Swap, CAS, of 32 and 64 bits (R426). -/
def hostAtomicOpc (a : HostAccess) : Option Nat :=
  if a.width = 4 ∨ a.width = 8 then
    let wide := if a.width = 8 then 1 else 0
    match a.kind with
    | .add => some (12 + wide)
    | .exch => some (20 + wide)
    | .cas => some (22 + wide)
    | _ => none
  else none

/-- HOST_ATOMIC (R426): a PCI Express AtomicOp; one that is not supported, or that no open window lets write, is answered with
Unsupported Request. -/
def execHostAtomic (s : State) : Host.Outcome State Fault Refusal :=
  match s.subject with
  | .host a =>
    if a.kind = .read ∨ a.kind = .write ∨ ¬ hostReady s a then .next s
    else
      match hostAtomicOpc a, hostTarget s a.func a.off a.width true with
      | some opc, some pa => .next (sendVisit s (hostVisit a opc pa a.width []))
      | _, _ => .next (answerWith .unsupported s)
  | _ => .next s

end Sys2Proof.Machine
end

