-- ==== Sys2Proof/Machine/Commands.lean ====
section
/-! DEFINITION. The loader's queues, journal, order of commands and completion (spec/13_loader.md R469 to R471, R479 to
R484). -/

namespace Sys2Proof.Machine

/-! ## Status codes (R479) -/

def ldrOk : Nat := 0
def ldrBadRecord : Nat := 1
def ldrExceeds : Nat := 2
def ldrKilled : Nat := 3
def ldrFaulted : Nat := 4
def ldrBadCommand : Nat := 5
def ldrBadSignature : Nat := 6
def ldrNotPermitted : Nat := 7
def ldrIrBad : Nat := 8
def ldrNoRoom : Nat := 9
def ldrNotPortable : Nat := 10
def ldrTimedOut : Nat := 11

/-! ## Taking commands (R469, R481) -/

/-- DOORBELL_WRITE (R469): the host driver writes a queue's producer index: a message to the loader's command front end (spec/11_fabric.md
R399, R402). -/
def execDoorbellWrite (s : State) : Host.Outcome State Fault Refusal :=
  match s.subject with
  | .pair n producer => .next (send s hostEndpoint loaderEndpoint 6 0 2 (.doorbell n producer) none)
  | _ => .next s

/-! ## The order of commands (R470, R471, R482) -/

/-- Has a command not started? -/
def CmdRun.waits (c : CmdRun) : Bool := c.state == .accepted

/-- Is a command complete, its record written? -/
def CmdRun.over (c : CmdRun) : Bool :=
  match c.state with
  | .recorded _ => true
  | _ => false

/-- FENCE of a command's header. -/
def CmdRun.fence (c : CmdRun) : Bool := (c.entry.getD 6 0).getLsbD 2

/-- The commands of one context that take effect one at a time (R482). -/
def serialOpcs : List Nat := [0x06, 0x07, 0x08, 0x0A, 0x0B, 0x0C, 0x0D, 0x0F, 0x10]

/-- Is a command the debug sub-command `n` (R476)? -/
def CmdRun.isDebug (c : CmdRun) (n : Nat) : Bool := c.opc == 0x0D && natOfBytes ((c.entry.drop 8).take 8) == n

/-- Does a revocation of the debug right overtake a halt that is under way (spec/12_supervisor.md R454)? -/
def overtakes (c e : CmdRun) : Bool := c.isDebug 2 && e.isDebug 3 && !e.waits

/-- May command `j` act now: the earlier ones of its queue have started, with FENCE have completed, and the earlier ones of its
context that it must follow have taken effect? -/
def mayAct (s : State) (j : Nat) (c : CmdRun) : Bool :=
  s.ldr.journal.entries.all fun e =>
    !decide (e.1 < j) ||
      (!(e.2.queue == c.queue && (e.2.waits || (c.fence && !e.2.over))) &&
        !(serialOpcs.contains c.opc && serialOpcs.contains e.2.opc && e.2.ctx == c.ctx && c.ctx != 0 && e.2.busy && !overtakes c e.2))

/-- A command that acts: its journal number, its entry and its operands. -/
structure Acting where
  j : Nat
  run : CmdRun
  cmd : Cmd

/-- The context that a command names. -/
def Acting.ctx (a : Acting) : Nat := a.cmd.ctx.toNat

/-- Its first turn? -/
def Acting.first (a : Acting) : Bool := a.run.waits

/-- A command has taken effect with a status and CUR0. -/
def finishCmd (s : State) (j status cur0 : Nat) : State :=
  s.modLdr fun d =>
    { d with journal := d.journal.modify j fun c => { c with state := .done status, cur0 := cur0, info := [] } }

/-- A command ends with a status. -/
def Acting.ends (a : Acting) (status : Nat) (s : State) : State := finishCmd s a.j status 0

/-- A command goes on in a later turn, remembering some numbers. -/
def Acting.goesOn (a : Acting) (info : List Nat) (s : State) : State :=
  s.modLdr fun d => { d with journal := d.journal.modify a.j fun c => { c with state := .running, info := info } }

/-- A command acts, if it may now. -/
def onCommand (f : Acting → State → State) (s : State) : Host.Outcome State Fault Refusal :=
  match s.curCmd with
  | none => .next s
  | some j =>
    match s.ldr.journal.find? j with
    | none => .next s
    | some c =>
      if ¬ c.busy ∨ ¬ mayAct s j c then .next s else .next (f { j := j, run := c, cmd := cmdOfBytes c.entry } s)

/-- Does a function own a context? -/
def ownsCtx (s : State) (func ctx : Nat) : Bool := (s.context? ctx).any fun c => c.func == func

/-- A command for a context of its own function; another one is refused (R471). -/
def onContext (f : Acting → State → State) (s : State) : Host.Outcome State Fault Refusal :=
  onCommand (fun a s => if ownsCtx s a.run.func a.ctx then f a s else a.ends ldrNotPermitted s) s

/-- A command of the function, without a context (R470). -/
def onFunction (f : Acting → State → State) (s : State) : Host.Outcome State Fault Refusal :=
  onCommand (fun a s => if a.ctx ≠ 0 then a.ends (if ownsCtx s a.run.func a.ctx then ldrBadCommand else ldrNotPermitted) s else f a s) s

/-- A command of the physical function alone. -/
def onPhysical (f : Acting → State → State) (s : State) : Host.Outcome State Fault Refusal :=
  onFunction (fun a s => if a.run.func ≠ 64 then a.ends ldrNotPermitted s else f a s) s

/-- An entry that names no command, or sets what it must not: BAD-COMMAND (R469, R470) (DEDUCED, notes/assumptions/77.md). -/
def badEntry (s : State) : State :=
  match onCommand (fun a s => a.ends ldrBadCommand s) s with
  | .next t => t
  | _ => s

/-! ## Completion (R483, R484) -/

/-- CUR0 and CUR1 of a launch: its lowest unfinished team and the teams retired (DEDUCED, notes/assumptions/90.md). -/
def launchCursors (s : State) (j : Nat) (c : CmdRun) : Nat × Nat :=
  match s.ldr.launches.find? j with
  | some l => (lowestUnfinished l, l.retired.length)
  | none => (c.cur0, c.cur1)

/-- The 32 bytes of a completion record. -/
def recordBytes (j status : Nat) (c : CmdRun) : List Byte :=
  wordBytes 8 (BitVec.ofNat 64 j) ++ c.entry.take 6 ++ [BitVec.ofNat 8 status, BitVec.ofNat 8 c.opc] ++
    wordBytes 8 (BitVec.ofNat 64 c.cur0) ++ wordBytes 8 (BitVec.ofNat 64 c.cur1)

/-- Writes a command's record where its word 7 says. -/
def writeRecord (s : State) (j status : Nat) (c : CmdRun) : State :=
  let a := natOfBytes ((c.entry.drop 56).take 8)
  match s.ldr.queues.find? c.queue with
  | none => s
  | some q =>
    if a = 0 ∨ a % 32 ≠ 0 then s
    else
      let l := atAddr a (recordBytes j status c)
      if q.host then s.modMem fun m => m.writeAt 1 0 l else outsideWrite s l

/-- Raises the interrupt of a command's queue, if its header asks for it. -/
def raiseIrq (s : State) (c : CmdRun) : State :=
  if (c.entry.getD 6 0).getLsbD 1 then
    s.modLdr fun d => { d with queues := d.queues.modify c.queue fun q => { q with irq := true } }
  else s

/-- Edges from a command that was no launch are satisfied once it has completed. -/
def satisfyEdges (s : State) (j : Nat) : State :=
  s.modLdr fun d =>
    { d with
      launches := d.launches.mapVals fun _ l =>
        { l with edges := l.edges.map fun e => if e.pred = j then { e with done := true } else e } }

/-- COMMAND_COMPLETE (R484): the journal entry of the subject's command becomes COMPLETE; in a step of its own its record is
written and its interrupt raised. -/
def execCommandComplete (s : State) : Host.Outcome State Fault Refusal :=
  match s.subject with
  | .num j =>
    match s.ldr.journal.find? j with
    | some c =>
      match c.state with
      | .done st =>
        let k := launchCursors s j c
        .next ((satisfyEdges s j).modLdr fun d =>
          { d with journal := d.journal.insert j { c with state := .complete st, cur0 := k.1, cur1 := k.2, clkOut := s.clk } })
      | .complete st =>
        let s1 := raiseIrq (writeRecord s j st c) c
        .next (s1.modLdr fun d => { d with journal := d.journal.insert j { c with state := .recorded st } })
      | _ => .next s
    | none => .next s
  | _ => .next s

/-- LAUNCH_PROGRESS_UPDATE (R484): a running launch rewrites CUR0 and CUR1 in its journal entry. -/
def execLaunchProgressUpdate (s : State) : Host.Outcome State Fault Refusal :=
  match s.subject with
  | .num j =>
    match s.ldr.journal.find? j with
    | some c =>
      if c.state = .running ∧ c.opc = 3 then
        let k := launchCursors s j c
        .next (s.modLdr fun d => { d with journal := d.journal.insert j { c with cur0 := k.1, cur1 := k.2 } })
      else .next s
    | none => .next s
  | _ => .next s

/-! ## Blocks that commands read and write -/

/-- A word of device memory. -/
def memWord (s : State) (a : Nat) : W64 := s.mem.word a

/-- `n` words of device memory (DEDUCED, notes/assumptions/78.md). -/
def memWords (s : State) (a n : Nat) : List W64 := (List.range n).map fun i => s.mem.word (a + 8 * i)

/-- Is a range in local HBM, outside what the loader keeps? -/
def inHbm (a n : Nat) : Bool := decide (a + n ≤ Config.reservedBase)

/-- The loader writes bytes of device memory. -/
def ldrWrite (s : State) (a : Nat) (bs : List Byte) : State := outsideWrite s (atAddr a bs)

end Sys2Proof.Machine
end

