-- ==== Sys2Proof/Machine/Images.lean ====
section
/-! DEFINITION. Code images: their form, signature and sections, the Osmin form, LOAD-IMAGE, UNLOAD-IMAGE, REINSTALL and
ATTEST (spec/13_loader.md R486 to R501; spec/03_warp_sequencer.md R113 to R115). Digests, signatures and the translator's
code are uninterpreted (notes/assumptions/15.md, 16.md). -/

namespace Sys2Proof.Machine

/-! ## The header (R486) -/

/-- A 64-bit word of a byte string, at a byte offset. -/
def wordIn (bs : List Byte) (off : Nat) : W64 := wordOf ((bs.drop off).take 8)

/-- Word `k` of an image's header. -/
def headWord (img : List Byte) (k : Nat) : W64 := wordIn img (8 * k)

def imgStep (img : List Byte) : Nat := bitsOf (headWord img 0) 23 16
def imgKey (img : List Byte) : Nat := bitsOf (headWord img 0) 3 0
def imgCodeLen (img : List Byte) : Nat := bitsOf (headWord img 1) 31 0
def imgDataLen (img : List Byte) : Nat := bitsOf (headWord img 1) 63 32
def imgSpm (img : List Byte) : Nat × Nat := (bitsOf (headWord img 3) 31 0, bitsOf (headWord img 3) 63 32)
def imgIr (img : List Byte) : Nat × Nat := (bitsOf (headWord img 4) 31 0, bitsOf (headWord img 4) 63 32)
def imgSym (img : List Byte) : Nat × Nat := (bitsOf (headWord img 5) 31 0, bitsOf (headWord img 5) 63 32)
def imgHasIr (img : List Byte) : Bool := bitOf (headWord img 0) 10
def imgHasSpm (img : List Byte) : Bool := bitOf (headWord img 0) 11

/-- The bytes of a section, given its offset and length. -/
def section_ (img : List Byte) (p : Nat × Nat) : List Byte := (img.drop p.1).take p.2

/-- Bytes of ASCII text. -/
def asciiBytes (t : String) : List Byte := t.toList.map fun c => BitVec.ofNat 8 c.toNat

/-- Does the image's signature verify with the key of its slot, and are MAGIC and FVER right (R486 to R488)?
(DESIGN CHOICE, notes/assumptions/15.md). -/
def imgSigned (s : State) (img : List Byte) : Bool :=
  let w := headWord img 0
  let body := img.take (img.length - 114)
  bitsOf w 63 32 == 0x5A4C5849 && bitsOf w 31 24 == 1 &&
    match s.ldr.keys.getD (imgKey img) none with
    | some k => Config.ed448Verify k (asciiBytes "Parnex Zenlux image") (Config.shake256 body) (img.drop (img.length - 114))
    | none => false

/-- Does a section lie within the signed part of the image? -/
def sectionIn (img : List Byte) (p : Nat × Nat) : Bool := p.2 == 0 || decide (p.1 + p.2 + 114 ≤ img.length)

/-- Are the header's lengths and offsets within the image, its reserved fields zero (R486, R488)? -/
def imgFormOk (img : List Byte) : Bool :=
  let w := headWord img 0
  decide (178 ≤ img.length) && bitsOf w 15 12 == 0 && bitsOf w 7 4 == 0 && headWord img 6 == 0 && headWord img 7 == 0 &&
    imgCodeLen img % 32 == 0 && decide (imgCodeLen img < 2 ^ 28) &&
    decide (64 + imgCodeLen img + imgDataLen img + 114 ≤ img.length) &&
    sectionIn img (imgSpm img) && sectionIn img (imgIr img) && sectionIn img (imgSym img)

/-! ## Symbols and safe-point maps (R493, R498) -/

/-- The byte length of `n` safe-point entries at an offset of a section, if they lie in it. -/
def mapEntries (sec : List Byte) : Nat → Nat → Option Nat
  | 0, off => some off
  | n + 1, off =>
    if sec.length < off + 16 then none
    else mapEntries sec n (off + 16 + 8 * bitsOf (wordIn sec (off + 8)) 15 0)

/-- The offsets at which the map blocks of a section begin, from `off` on. -/
def mapBlocks (sec : List Byte) : Nat → Nat → List Nat
  | 0, _ => []
  | fuel + 1, off =>
    if sec.length < off + 8 then []
    else match mapEntries sec (bitsOf (wordIn sec off) 31 0) (off + 8) with
      | some e => if e ≤ sec.length then off :: mapBlocks sec fuel e else []
      | none => []

/-- Do the symbol records keep to their section and the code, and name map blocks (R493)? -/
def symbolsOk (img : List Byte) : Bool :=
  let sec := section_ img (imgSym img)
  let spm := section_ img (imgSpm img)
  let n := bitsOf (wordIn sec 0) 31 0
  let recs := (List.range n).map fun i => (wordIn sec (8 + 32 * i), wordIn sec (16 + 32 * i))
  sec.isEmpty ||
    (bitsOf (wordIn sec 0) 63 32 == 0 && decide (8 + 32 * n ≤ sec.length) &&
      (recs.all fun r => decide (bitsOf r.1 31 0 ≤ bitsOf r.1 63 32) && decide (bitsOf r.1 63 32 ≤ imgCodeLen img) &&
        (bitsOf r.2 31 0 == 0xFFFFFFFF || (mapBlocks spm spm.length 0).contains (bitsOf r.2 31 0))) &&
      ((recs.zip (recs.drop 1)).all fun p => decide (bitsOf p.1.1 63 32 ≤ bitsOf p.2.1 31 0)))

/-! ## The Osmin form (R491, R492, R494) -/

/-- The number of functions of an Osmin section. -/
def irCount (sec : List Byte) : Nat := bitsOf (wordIn sec 0) 15 0

/-- The offset of a function's header. -/
def irOffset (sec : List Byte) (f : Nat) : Nat := bitsOf (wordIn sec (8 + 8 * f)) 31 0

/-- The number of operations of the function at an offset. -/
def irOps (sec : List Byte) (off : Nat) : Nat := bitsOf (wordIn sec off) 31 0

/-- Its register budget. -/
def irBudget (sec : List Byte) (off : Nat) : Nat := bitsOf (wordIn sec off) 47 32

/-- Do a section's offsets stay in it, and its functions apart (R492)? -/
def irSectionOk (sec : List Byte) : Bool :=
  let n := irCount sec
  let spans := (0, 8 + 8 * n) :: (List.range n).map fun f => (irOffset sec f, irOffset sec f + 8 + 8 * irOps sec (irOffset sec f))
  decide (1 ≤ n) && bitsOf (wordIn sec 0) 63 16 == 0 && decide (8 + 8 * n ≤ sec.length) &&
    ((List.range n).all fun f => bitsOf (wordIn sec (8 + 8 * f)) 63 32 == 0 && irOffset sec f % 8 == 0) &&
    (spans.all fun x => decide (x.2 ≤ sec.length)) &&
    ((mapIdx (fun i x => (i, x)) spans).all fun x => (mapIdx (fun i y => (i, y)) spans).all fun y =>
      x.1 == y.1 || decide (x.2.2 ≤ y.2.1) || decide (y.2.2 ≤ x.2.1))

/-- The operands of an operation code, none where the code is not defined (R494). -/
def irArity (opc : Nat) : Option Nat :=
  if [0x01, 0x02, 0x03, 0x04, 0x60].contains opc then some 0
  else if [0x11, 0x20, 0x21, 0x22, 0x40, 0x61].contains opc then some 1
  else if [0x10, 0x12, 0x28, 0x29, 0x30, 0x31, 0x38].contains opc then some 2
  else if opc = 0x32 then some 3
  else none

/-- The distances of an operation's operands, as many as it has. -/
def irDists (w : W64) : List Nat := [bitsOf w 55 46, bitsOf w 45 36, bitsOf w 35 26].take ((irArity (bitsOf w 63 56)).getD 0)

/-- Is operation `k` of `n` well formed (R491, R494)? -/
def irOpOk (n k : Nat) (w : W64) : Bool :=
  let opc := bitsOf w 63 56
  let imm := bitsOf w 23 0
  (irArity opc).isSome && bitsOf w 25 24 == 0 && ((irDists w).all fun d => decide (1 ≤ d) && decide (d < k)) &&
    (opc != 0x12 || decide (imm ≤ 3)) && (!(opc == 0x60 || opc == 0x61) || (decide (1 ≤ imm) && decide (imm ≤ n)))

/-- The operations of the function at an offset, numbered from 1. -/
def irWords (sec : List Byte) (off : Nat) : List (Nat × W64) :=
  (List.range (irOps sec off)).map fun i => (i + 1, wordIn sec (off + 8 + 8 * i))

/-- Is the function at an offset well formed? (DEDUCED, notes/assumptions/68.md). -/
def irFunctionOk (sec : List Byte) (off : Nat) : Bool :=
  bitsOf (wordIn sec off) 63 49 == 0 && (irWords sec off).all fun e => irOpOk (irOps sec off) e.1 e.2

/-! ## The translator's assignment (R495, R496) -/

/-- The operations that read the value of operation `v`. -/
def irUses (ws : List (Nat × W64)) (v : Nat) : List Nat :=
  (ws.filter fun e => (irDists e.2).any fun d => d + v == e.1).map Prod.fst

/-- Does an operation produce a value: no store and no jump? -/
def irProduces (w : W64) : Bool := !([0x28, 0x29, 0x60, 0x61].contains (bitsOf w 63 56))

/-- The next use of a value after operation `k`; beyond the end if there is none. -/
def nextUse (ws : List (Nat × W64)) (k v : Nat) : Nat := minOf ((irUses ws v).filter fun u => decide (k < u)) (ws.length + 1)

/-- The value to be spilled among some: that with the furthest next use, at a tie the lowest. -/
def spillChoice (ws : List (Nat × W64)) (k : Nat) : List Nat → Nat
  | [] => 0
  | v :: r => foldOver (fun b x => if nextUse ws k b < nextUse ws k x then x else b) v r

/-- Values held in the pool, and the number spilled, after the operations of a list, with `p` pairs (R496). -/
def assign (ws : List (Nat × W64)) (p : Nat) : List (Nat × W64) → List Nat × Nat → List Nat × Nat
  | [], r => r
  | e :: rest, (held, cells) =>
    let k := e.1
    let live := held.filter fun v => nextUse ws k v ≤ ws.length
    if ¬ irProduces e.2 ∨ irUses ws k = [k + 1] ∨ (irUses ws k).isEmpty then assign ws p rest (live, cells)
    else if live.length < p then assign ws p rest (live ++ [k], cells)
    else
      let x := spillChoice ws k (live ++ [k])
      assign ws p rest ((live ++ [k]).filter fun v => v != x, cells + 1)

/-- The cells that a function needs under a budget. -/
def cellCount (sec : List Byte) (off budget : Nat) : Nat :=
  let ws := irWords sec off
  (assign ws ((budget - 12) / 2) ws ([], 0)).2

/-- Why the translation of an image is refused, if it is: IR-BAD, or NO-ROOM for a budget below 16 or more than 1,024 cells. No
budget goes above `cap`. -/
def translationStatus (sec : List Byte) (cap : Nat) : Nat :=
  if ¬ irSectionOk sec then ldrIrBad
  else
    let offs := (List.range (irCount sec)).map (irOffset sec)
    if ¬ offs.all (irFunctionOk sec) then ldrIrBad
    else if offs.any fun o => decide (Nat.min cap (irBudget sec o) < 16) ||
        decide (1024 < cellCount sec o (Nat.min cap (irBudget sec o))) then ldrNoRoom
    else ldrOk

/-- Does some function of a translation spill, so that it needs a private region? -/
def needsRegion (sec : List Byte) (cap : Nat) : Bool :=
  (List.range (irCount sec)).any fun f =>
    decide (0 < cellCount sec (irOffset sec f) (Nat.min cap (irBudget sec (irOffset sec f))))

/-! ## What the translator's code holds (R494, R495, R498 to R500) -/

/-- The triggers into which `fmulw.f16` is expanded, by unit and opcode: `cvt0.f32.f16` of a and of b, and `fma0.mul.f32` of the two
results, which is the exact product under every rounding (R499). -/
def fmulwTriggers : List (Nat × Nat) := [(unitCvt, 5), (unitCvt, 5), (unitFma 0, 2)]

/-- The trigger that writes the NFR, `seq.setfmt` (spec/04_lane_units.md R161). -/
def setfmtTrigger : Nat × Nat := (unitSeq, 12)

/-- The address of a plain load or store: an `int.add64` where IMM is not 0 (R494). -/
def addressForm (w : W64) : List (Nat × Nat) := if bitsOf w 23 0 = 0 then [] else [(unitInt 0, 2)]

/-- The triggers of an operation's native form, of the first instance of each unit (R494). -/
def nativeForm (w : W64) : List (Nat × Nat) :=
  let opc := bitsOf w 63 56
  if opc = 0x01 ∨ opc = 0x02 then [(unitSup, 0)]
  else if opc = 0x03 ∨ opc = 0x04 then [(unitInt 0, 30)]
  else if opc = 0x10 ∨ opc = 0x11 then [(unitInt 0, 2)]
  else if opc = 0x12 then [(unitInt 0, 29)]
  else if opc = 0x20 then addressForm w ++ [(unitMem 0, 2)]
  else if opc = 0x21 then addressForm w ++ [(unitMem 0, 4)]
  else if opc = 0x22 then addressForm w ++ [(unitMem 0, 5)]
  else if opc = 0x28 then addressForm w ++ [(unitMem 0, 8)]
  else if opc = 0x29 then addressForm w ++ [(unitMem 0, 9)]
  else if opc = 0x30 then [(unitFma 0, 1)]
  else if opc = 0x31 then [(unitFma 0, 2)]
  else if opc = 0x32 then [(unitFma 0, 0)]
  else if opc = 0x38 then fmulwTriggers
  else if opc = 0x40 then [(unitCvt, 21)]
  else if opc = 0x60 ∨ opc = 0x61 then [(unitSeq, 0)]
  else []

/-- The canonical safe points of the function at an offset, by the index of the next operation (R498). -/
def safePoints (sec : List Byte) (off : Nat) : List Nat :=
  let n := irOps sec off
  let targets := ((irWords sec off).filter fun e => [0x60, 0x61].contains (bitsOf e.2 63 56)).map fun e => bitsOf e.2 23 0
  (List.range (n + 1)).map Nat.succ |>.filter fun k => k == 1 || k == n + 1 || targets.contains k

/-- The triggers that a translation of the function at an offset holds: the native forms, a `mem.st.64` and a `mem.ld.64` for each spilled value (R496),
with M an export check at each canonical safe point (R500), and the `seq.end` at which the lanes retire (R491). -/
def functionForm (sec : List Byte) (cap off : Nat) : List (Nat × Nat) :=
  ((irWords sec off).flatMap fun e => nativeForm e.2) ++
    (List.replicate (cellCount sec off (Nat.min cap (irBudget sec off))) [(unitMem 0, 9), (unitMem 0, 5)]).flatten ++
    (if bitOf (wordIn sec off) 48 then List.replicate (safePoints sec off).length (unitMem 0, 26) else []) ++ [(unitSeq, 8)]

/-- A trigger of the first instance of its unit. -/
def firstInstance (t : Nat × Nat) : Nat × Nat :=
  (if t.1 = unitInt 1 then unitInt 0 else if t.1 = unitFma 1 then unitFma 0 else if t.1 = unitMem 1 then unitMem 0 else t.1, t.2)

/-- The moves of the bundles of some code; none where a bundle is not well formed. -/
def codeMoves (code : List Byte) : Option (List Move) :=
  foldOver
    (fun r k => match r, decodeBundle ((code.drop (32 * k)).take 32) with
      | some l, .ok b => some (l ++ b.moves)
      | _, _ => none)
    (some []) (List.range (code.length / 32))

/-- The registers that a port code names. -/
def codeRegs (c : Nat) : List Nat := if c < 0x100 then [c] else if isPairCode c then [c - 0x1000, c - 0x1000 + 1] else []

/-- Does a move keep to the registers that the translator uses under a budget: it writes the spill base v4.d, the pool and the scratch
pairs alone, and never reads v7 (R495)? -/
def Move.keepsRegs (budget : Nat) (m : Move) : Bool :=
  ((codeRegs m.dst.toNat).all fun r => r == 4 || r == 5 || (decide (8 ≤ r) && decide (r < budget))) &&
    match m.src with
    | .port c => !(codeRegs c.toNat).contains 7
    | _ => true

/-- The `fmulw.f16` operations of a section. -/
def fmulwCount (sec : List Byte) : Nat :=
  sumOf ((List.range (irCount sec)).map fun f => ((irWords sec (irOffset sec f)).filter fun e => bitsOf e.2 63 56 == 0x38).length)

/-- Is some code one that the translator makes of a section, with budgets up to `cap`: whole bundles, the triggers of every function's
form (R494), the three triggers for each `fmulw.f16` and the NFR kept at 0 (R499), and no other registers (R495)?
(DEDUCED, notes/assumptions/16.md). -/
def translates (sec code : List Byte) (cap : Nat) : Bool :=
  let offs := (List.range (irCount sec)).map (irOffset sec)
  let need := offs.flatMap (functionForm sec cap)
  code.length % 32 == 0 && match codeMoves code with
    | some ms =>
      let l := ms.filterMap fun m => trigOf m.dst.toNat
      let l1 := l.map firstInstance
      !l.contains setfmtTrigger && (fmulwTriggers.all fun t => decide (fmulwCount sec * fmulwTriggers.count t ≤ l.count t)) &&
        (need.all fun t => decide (need.count t ≤ l1.count t)) &&
        ms.all (Move.keepsRegs (maxOf (offs.map fun o => Nat.min cap (irBudget sec o))))
    | none => false

/-- The code that the translator makes of the Osmin form of an image; its layout is open, and what is no translation is no code of it (DESIGN CHOICE,
notes/assumptions/16.md). -/
def translatedCode (img : List Byte) (cap : Nat) : List Byte :=
  let code := Config.boruthCode img cap
  if translates (section_ img (imgIr img)) code cap then code else []

/-! ## Placing an image (R113, R114, R489, R497) -/

/-- The free slots of a context. -/
def freeSlots (s : State) (ctx : Nat) : List Nat :=
  match s.context? ctx with
  | some c => (List.range 16).filter fun k => (c.slots.getD k none).isNone
  | none => []

/-- The image that a translation of an image is, with budgets up to `cap`. -/
def translatedImage (img : List Byte) (cap : Nat) (i : Image) : Image :=
  { i with
    step := 0, ir := true, nf := irCount (section_ img (imgIr img))
    entries := (List.range (irCount (section_ img (imgIr img)))).map (Config.boruthEntry img cap) }

/-- Code is placed in device memory that the loader keeps, and the image in a free slot of the context, whichever. Answers the
handle, 0 for no room; bits [3:0] of the handle report the slot (R114) (DESIGN CHOICE, notes/assumptions/9.md). -/
def placeImage (s : State) (ctx : Nat) (code : List Byte) (i : Image) : Nat × State :=
  let top := (s.ldr.codeTop + code.length + 511) / 512 * 512
  match freeSlots s ctx with
  | [] => (0, s)
  | l =>
    if Config.hbmBytes < top then (0, s)
    else
      let k := freeBelow s l.length
      let slot := l.getD k.1 0
      let h := 16 * s.ldr.nextHandle + slot
      let s1 := ldrWrite k.2 s.ldr.codeTop code
      (h, (s1.modLdr fun d =>
        { d with
          images := d.images.insert h { i with ctx := ctx, slot := slot, base := s.ldr.codeTop, len := code.length, va := Config.codeVa ctx slot }
          nextHandle := s.ldr.nextHandle + 1, codeTop := top }).modCtx ctx fun c => { c with slots := c.slots.set slot (some h) })

/-- An image as its header describes it, not yet placed. -/
def imageOf (img : List Byte) : Image :=
  let w := headWord img 0
  { ctx := 0, slot := 0, base := 0, len := 0, exec := true, va := none, step := imgStep img, schk := bitOf w 9, w32 := bitOf w 8,
    tvec0 := lo32 (headWord img 2), tvec1 := hi32 (headWord img 2), ir := false, nf := 0, entries := [], bytes := img,
    digest := Config.shake256 (img.take (img.length - 114)), replaced := none, unloading := false }

/-- Translates an image with budgets up to `cap` and places it: the status and the handle (DESIGN CHOICE, notes/assumptions/16.md). -/
def translateImage (s : State) (ctx : Nat) (img : List Byte) (cap : Nat) : Nat × Nat × State :=
  let sec := section_ img (imgIr img)
  let st := translationStatus sec cap
  if st ≠ ldrOk then (st, 0, s)
  else
    let room := if needsRegion sec cap then freeBool s else (true, s)
    if ¬ room.1 then (ldrNoRoom, 0, room.2)
    else
      let r := placeImage room.2 ctx (translatedCode img cap) (translatedImage img cap (imageOf img))
      (if r.1 = 0 then ldrNoRoom else ldrOk, r.1, r.2)

/-- Is an image placed as it stands (R489)? -/
def placedAsIs (img : List Byte) : Bool := decide (imgStep img ≤ 1) && !(imgHasIr img && imgCodeLen img == 0)

/-- Loads an image for a context: the status and the handle. -/
def loadImageFrom (s : State) (ctx : Nat) (img : List Byte) : Nat × Nat × State :=
  if img.length < 178 then (ldrBadCommand, 0, s)
  else if ¬ imgSigned s img then (ldrBadSignature, 0, s)
  else if ¬ imgFormOk img ∨ ¬ symbolsOk img then (ldrBadCommand, 0, s)
  else if imgHasIr img ∧ ¬ irSectionOk (section_ img (imgIr img)) then (ldrIrBad, 0, s)
  else if placedAsIs img then
    let r := placeImage s ctx ((img.drop 64).take (imgCodeLen img)) (imageOf img)
    (if r.1 = 0 then ldrNoRoom else ldrOk, r.1, r.2)
  else if imgHasIr img then translateImage s ctx img 256
  else (ldrBadRecord, 0, s)

/-- LOAD_IMAGE (R471, R488, R489, R497). -/
def execLoadImage (s : State) : Host.Outcome State Fault Refusal :=
  onContext
    (fun a s =>
      let r := loadImageFrom s a.ctx (s.mem.read a.cmd.w1.toNat a.cmd.w2.toNat)
      finishCmd r.2.2 a.j r.1 r.2.1) s

/-! ## Releasing a slot (R115) -/

/-- The image that a handle names, for a command of a context. -/
def imageOfCtx (s : State) (ctx : Nat) (h : W64) : Option Image :=
  (s.ldr.images.find? h.toNat).filter fun i => i.ctx == ctx

/-- Does a live lane stand in a slot, or will it return there? -/
def laneInSlot (slot : Nat) (x : Warp) (l : Nat) : Bool :=
  let y := x.lane l
  y.live &&
    (y.pc.toNat / 2 ^ 28 == slot || (y.rstack.any fun e => e.slot.toNat == slot) ||
      x.handlers.any fun h => (h.tpc.find? l).any fun p => p.toNat / 2 ^ 28 == slot)

/-- Is an image's slot still in use: by a lane of its context, or by a launch that has not ended? -/
def slotInUse (s : State) (h : Nat) (i : Image) : Bool :=
  (s.teams.vals.any fun t => t.ctx == i.ctx && t.warps.any fun x => laneNums.any (laneInSlot i.slot x)) ||
    s.ldr.launches.vals.any fun l => l.image == h && match l.state with
      | .ended _ => false
      | _ => true

/-- An image goes: its slot is free again. -/
def releaseImage (s : State) (h : Nat) (i : Image) : State :=
  (dropImage (s.modLdr fun d => { d with images := d.images.erase h }) h).modCtx i.ctx fun c =>
    { c with slots := c.slots.set i.slot none }

/-- UNLOAD_IMAGE (R115, R471): it completes when the slot is released. -/
def execUnloadImage (s : State) : Host.Outcome State Fault Refusal :=
  onContext
    (fun a s =>
      match imageOfCtx s a.ctx a.cmd.w1 with
      | none => a.ends ldrBadCommand s
      | some i =>
        let h := a.cmd.w1.toNat
        if slotInUse s h i then
          a.goesOn [] (s.modLdr fun d => { d with images := d.images.insert h { i with unloading := true } })
        else a.ends ldrOk (releaseImage s h i)) s

/-- REINSTALL (R501): the old handle's later launches get the new image. -/
def execReinstall (s : State) : Host.Outcome State Fault Refusal :=
  onContext
    (fun a s =>
      match imageOfCtx s a.ctx a.cmd.w1, imageOfCtx s a.ctx a.cmd.w2 with
      | some i, some _ =>
        if a.cmd.w1 = a.cmd.w2 then a.ends ldrBadCommand s
        else
          a.ends ldrOk (s.modLdr fun d =>
            { d with images := d.images.insert a.cmd.w1.toNat { i with replaced := some a.cmd.w2.toNat } })
      | _, _ => a.ends ldrBadCommand s) s

/-! ## Attestation (R490) -/

/-- Bits [31:0] of the second word of a report: device id [18:0], stepping [23:16], grade [31:24]. In bits [18:16] the fields
overlap; `own` gives them to the device id (notes/assumptions/35.md). -/
def reportIds (s : State) (own : Bool) : Nat :=
  let mid := if own then s.deviceId / 2 ^ 16 % 8 else Config.steppingId % 8
  s.deviceId % 2 ^ 16 + mid * 2 ^ 16 + Config.steppingId / 8 * 2 ^ 19 + s.ldr.grade.code % 256 * 2 ^ 24

/-- The signed part of a report (DEDUCED, notes/assumptions/35.md). -/
def reportBody (s : State) (own : Bool) (nonce digest : List Byte) : List Byte :=
  wordBytes 8 1 ++ wordBytes 8 (BitVec.ofNat 64 (reportIds s own)) ++
    wordBytes 8 (BitVec.ofNat 64 s.clk) ++ nonce ++ (s.ldr.fwDigest ++ List.replicate 64 0).take 64 ++ digest ++ wordBytes 8 0

/-- ATTEST (R490): a signed report with the nonce at w1, at w2. -/
def execAttest (s : State) : Host.Outcome State Fault Refusal :=
  onCommand
    (fun a s =>
      let h := a.cmd.w3.toNat
      let img := s.ldr.images.find? h
      if a.ctx ≠ 0 ∧ ¬ ownsCtx s a.run.func a.ctx then a.ends ldrNotPermitted s
      else if h ≠ 0 ∧ img.isNone then a.ends ldrBadCommand s
      else if h ≠ 0 ∧ ¬ img.any (fun i => ownsCtx s a.run.func i.ctx) then a.ends ldrNotPermitted s
      else
        let digest := match img with
          | some i => i.digest
          | none => List.replicate 64 0
        let r := freeBool s
        let body := reportBody s r.1 (s.mem.read a.cmd.w1.toNat 32) digest
        a.ends ldrOk (ldrWrite r.2 a.cmd.w2.toNat (body ++ Config.ed448Sign (Config.shake256 body) (asciiBytes "Parnex Zenlux attest")))) s

/-- ATTEST with w1 = 0 (R490): the identity key's certificate, at w2. -/
def execAttestCertificate (s : State) : Host.Outcome State Fault Refusal :=
  onCommand
    (fun a s =>
      if a.ctx ≠ 0 ∧ ¬ ownsCtx s a.run.func a.ctx then a.ends ldrNotPermitted s
      else a.ends ldrOk (ldrWrite s a.cmd.w2.toNat Config.identityCertificate)) s

end Sys2Proof.Machine
end

