-- ==== Sys2Proof/Machine/Launches.lean ====
section
/-! DEFINITION. LAUNCH and KILL: the launch record, its acceptance, retranslation, the end of a launch by system software
(spec/10_team_scheduler.md R358 to R364; spec/13_loader.md R471, R492, R497). -/

namespace Sys2Proof.Machine

/-! ## The launch record (R358, R359) -/

/-- Word `k` of a record. -/
def recWord (r : List W64) (k : Nat) : W64 := r.getD k 0

def recPort (r : List W64) : Bool := bitOf (recWord r 1) 23
def recMatrix (r : List W64) : Bool := bitOf (recWord r 1) 21
def recGrant (r : List W64) : Nat := bitsOf (recWord r 1) 31 28
def recLevels (r : List W64) : Nat := bitsOf (recWord r 4) 2 0
def recTsu (r : List W64) : Nat := bitsOf (recWord r 4) 15 8

/-- Extent of a level. -/
def recExtent (r : List W64) (k : Nat) : Nat := bitsOf (recWord r (5 + k / 2)) (32 * (k % 2) + 31) (32 * (k % 2))

/-- Shape of a role: warps, budget in units of 8 registers, reserved bits. -/
def recShape (r : List W64) (k : Nat) : Nat × Nat × Nat :=
  let v := bitsOf (recWord r 7) (16 * k + 15) (16 * k)
  (v % 32, v / 32 % 64, v / 2048)

/-- Entry address of a role. -/
def recEntry (r : List W64) (k : Nat) : Nat := bitsOf (recWord r (8 + k / 2)) (32 * (k % 2) + 31) (32 * (k % 2))

/-- Graph edges in use, and the words of an edge. -/
def recEdges (r : List W64) : Nat := bitsOf (recWord r 10) 2 0
def recEdge (r : List W64) (e : Nat) : W64 × W64 × W64 := (recWord r (11 + 3 * e), recWord r (12 + 3 * e), recWord r (13 + 3 * e))

/-- Is a reserved field of the record set? -/
def recReserved (r : List W64) : Bool :=
  let w1 := recWord r 1
  let w4 := recWord r 4
  bitsOf w1 39 35 != 0 || bitsOf w1 27 24 != 0 || bitsOf w1 18 0 != 0 || bitsOf (recWord r 2) 63 57 != 0 ||
    bitsOf (recWord r 3) 63 57 != 0 || bitsOf w4 63 16 != 0 || bitsOf w4 7 6 != 0 || bitOf w4 3 ||
    ([0, 1, 2, 3].any fun k => (recShape r k).2.2 != 0) || bitsOf (recWord r 10) 63 3 != 0 ||
    (List.range (recEdges r)).any fun e => bitsOf (recEdge r e).2.1 63 57 != 0 || bitsOf (recEdge r e).2.2 63 48 != 0

/-- Are the levels and extents of the nest wrong? -/
def recNestBad (r : List W64) : Bool :=
  let n := recLevels r
  n == 0 || decide (4 < n) || ([0, 1, 2, 3].any fun k => (decide (k < n) && recExtent r k == 0) || (decide (n ≤ k) && recExtent r k != 0)) ||
    decide (2 ^ 32 < product (([0, 1, 2, 3].filter fun k => decide (k < n)).map (recExtent r)))

/-- Is an entry address not one of the image? -/
def recEntryBad (i : Image) (a : Nat) : Bool := a % 32 != 0 || decide ((if i.ir then 32 * i.nf else i.len) ≤ a)

/-- Are the roles wrong: role 0 absent, a present role without a budget, one after an absent one, an absent one with a budget
or an entry, an entry outside the image? -/
def recRolesBad (r : List W64) (i : Image) : Bool :=
  let absent := fun k => (recShape r k).1 == 0
  absent 0 ||
    [0, 1, 2, 3].any fun k =>
      if absent k then (recShape r k).2.1 != 0 || recEntry r k != 0
      else (recShape r k).2.1 == 0 || (decide (0 < k) && absent (k - 1)) || recEntryBad i (recEntry r k)

/-- Does a journal number name an entry that the journal still holds (spec/13_loader.md R481)? -/
def inJournal (s : State) (j : Nat) : Bool := s.ldr.journal.has j && decide (s.ldr.nextJ ≤ j + 65536)

/-- Are the edges wrong: words of an unused edge, a producer that names no journal entry? -/
def recEdgesBad (s : State) (r : List W64) : Bool :=
  ((List.range 7).any fun e =>
    decide (recEdges r ≤ e) && ((recEdge r e).1 != 0 || (recEdge r e).2.1 != 0 || (recEdge r e).2.2 != 0)) ||
    (List.range (recEdges r)).any fun e => !inJournal s (recEdge r e).1.toNat

/-- The address-space identifier of the launch, a context's number (notes/assumptions/79.md). -/
def recAsid (r : List W64) : Nat := bitsOf (recWord r 1) 63 48

/-- BAD-RECORD (R360). -/
def recBad (s : State) (r : List W64) (i : Image) : Bool :=
  recReserved r || recAsid r != i.ctx || bitsOf (recWord r 1) 47 40 != i.step || decide (9 ≤ recGrant r) || recNestBad r || recRolesBad r i ||
    recEdgesBad s r

/-- RESOURCE-EXCEEDS for registers, warps or team store (R360, R361). -/
def recTooLarge (r : List W64) : Bool :=
  decide (16 < sumOf ([0, 1, 2, 3].map fun k => (recShape r k).1)) || ([0, 1, 2, 3].any fun k => decide (32 < (recShape r k).2.1)) ||
    decide (128 < recTsu r)

/-- RESOURCE-EXCEEDS for matrix engines and cores (R360). -/
def recNoUnits (s : State) (func : Nat) (r : List W64) : Bool :=
  (recMatrix r && !s.ldr.grade.mxp) || (s.func func).cores.isEmpty

/-- The status that a record is refused with, 0 if it is accepted (R360) (DEDUCED, notes/assumptions/66.md). -/
def recStatus (s : State) (func : Nat) (r : List W64) (i : Image) (limits : Bool) : Nat :=
  if recBad s r i then ldrBadRecord else if (limits && recTooLarge r) || recNoUnits s func r then ldrExceeds else ldrOk

/-! ## Acceptance -/

/-- The image that later launches of a handle get (spec/13_loader.md R501). -/
def currentHandle (s : State) (h : Nat) : Nat → Nat
  | 0 => h
  | k + 1 => match (s.ldr.images.find? h).bind fun i => i.replaced with
    | some n => currentHandle s n k
    | none => h

/-- Is a producer of an edge over? -/
def producerOver (s : State) (j : Nat) : Bool :=
  match s.ldr.launches.find? j with
  | some l => match l.state with
    | .ended _ => true
    | _ => false
  | none => (s.ldr.journal.find? j).any fun c => match c.state with
    | .complete _ => true
    | .recorded _ => true
    | _ => false

/-- The launch that an accepted record makes, with image `h`; register budgets are at most 256. -/
def launchOf (s : State) (ctx : Nat) (r : List W64) (h : Nat) (i : Image) : Launch :=
  let roles := [0, 1, 2, 3].filter fun k => (recShape r k).1 != 0
  let exts := ([0, 1, 2, 3].filter fun k => decide (k < recLevels r)).map (recExtent r)
  let w1 := recWord r 1
  { ctx := ctx, image := h, prio := bitsOf w1 34 32, grant := recGrant r, acec := bitOf w1 22, matrix := recMatrix r,
    snap := bitOf w1 20, fuse := bitOf w1 19, data := recWord r 2, arg := recWord r 3, tsu := recTsu r,
    order := bitsOf (recWord r 4) 5 4, extents := exts,
    roles := roles.map fun k => ((recShape r k).1, 8 * Nat.min 32 (recShape r k).2.1),
    entries := roles.map fun k => if i.ir then i.entries.getD (recEntry r k / 32) 0 else BitVec.ofNat 32 (recEntry r k),
    edges := (List.range (recEdges r)).map fun e =>
      let x := recEdge r e
      { pred := x.1.toNat, base := x.2.1.toNat, len := x.2.2.toNat, done := producerOver s x.1.toNat },
    state := .waiting, total := product exts, next := 0, retired := [], lastCore := none, snapTime := none, clusters := [],
    killed := none }

/-- A launch is accepted: edges that are satisfied already drop copies of their regions at once. -/
def acceptLaunch (a : Acting) (l : Launch) (s : State) : State :=
  let s1 := a.goesOn [] (s.modLdr fun d => { d with launches := d.launches.insert a.j l })
  dropRegions a.ctx s1 (l.edges.filter fun e => e.done)

/-- The warp counts of roles within `room`, each role keeping one: the later roles give up warps first. -/
def cutRoles (room : Nat) : List (Nat × Nat) → List (Nat × Nat)
  | [] => []
  | x :: r =>
    let n := Nat.min x.1 (room - r.length)
    (n, x.2) :: cutRoles (room - n) r

/-- A launch within this device's limits of warps and team store (DESIGN CHOICE, notes/assumptions/66.md). -/
def Launch.within (l : Launch) : Launch := { l with roles := cutRoles 16 l.roles, tsu := Nat.min 128 l.tsu }

/-- Retranslates a portable image for a record that exceeds this device's limits: the new record keeps within them (R361). -/
def retranslate (a : Acting) (r : List W64) (i : Image) (s : State) : State :=
  let t := translateImage s a.ctx i.bytes 256
  match s.ldr.images.find? t.2.1, t.2.2.ldr.images.find? t.2.1 with
  | none, some n => acceptLaunch a (launchOf t.2.2 a.ctx r t.2.1 n).within t.2.2
  | _, _ => a.ends t.1 t.2.2

/-- A launch's first turn: its record is read and checked. -/
def startLaunch (a : Acting) (s : State) : State :=
  if a.cmd.w1.toNat % 256 ≠ 0 then a.ends ldrBadCommand s
  else
    let r := memWords s a.cmd.w1.toNat 32
    let h := currentHandle s (recWord r 0).toNat 16
    match (imageOfCtx s a.ctx (recWord r 0)).bind fun i => if i.unloading && i.replaced.isNone then none else s.ldr.images.find? h with
    | none => a.ends ldrBadRecord s
    | some i =>
      let port := recPort r && i.ir
      let st := recStatus s a.run.func r i (!port)
      if st ≠ ldrOk then a.ends st s
      else if port ∧ recTooLarge r then retranslate a r i s
      else acceptLaunch a (launchOf s a.ctx r h i) s

/-- LAUNCH (R360, R471): the launch runs until its last team has gone. -/
def execLaunch (s : State) : Host.Outcome State Fault Refusal :=
  onContext (fun a s => if a.first then startLaunch a s else s) s

/-! ## KILL (R362, R439, R471) -/

/-- Does a trap at the context rung or above wait for a warp of a launch? -/
def trapOfLaunch (s : State) (j : Nat) (l : Launch) : Bool :=
  (s.context? l.ctx).any fun c => c.traps.any fun t => (s.team? t.warp.team).any fun x => x.launch == j

/-- A launch is to end: its teams are killed, and none starts any more. -/
def killLaunch (s : State) (j status : Nat) : State :=
  let s1 := s.modLdr fun d =>
    { d with launches := d.launches.modify j fun l => { l with killed := some (l.killed.getD status) } }
  finishLaunch (foldOver killTeam s1 ((s1.teams.entries.filter fun e => e.2.launch == j).map Prod.fst)) j

/-- The launch of a journal number, while it has not ended. -/
def openLaunch (s : State) (j : Nat) : Option Launch :=
  (s.ldr.launches.find? j).filter fun l => match l.state with
    | .ended _ => false
    | _ => true

/-- KILL of a launch that has been accepted into the journal. -/
def killCommand (a : Acting) (j : Nat) (c : CmdRun) (s : State) : State :=
  if c.func ≠ a.run.func then a.ends ldrNotPermitted s
  else if c.waits then a.ends ldrOk (finishCmd s j ldrKilled 0)
  else
    match openLaunch s j with
    | none => a.ends ldrOk s
    | some l => a.goesOn [] (if l.killed.isSome then s else killLaunch s j (if trapOfLaunch s j l then ldrFaulted else ldrKilled))

/-- KILL (R471): it completes when the launch has ended; one that has ended already is left as it is. -/
def execKill (s : State) : Host.Outcome State Fault Refusal :=
  onCommand
    (fun a s =>
      let j := a.cmd.w1.toNat
      if a.ctx ≠ 0 ∧ ¬ ownsCtx s a.run.func a.ctx then a.ends ldrNotPermitted s
      else
        match s.ldr.journal.find? j with
        | some c => if c.opc = 3 then killCommand a j c s else a.ends ldrBadCommand s
        | none => a.ends ldrBadCommand s) s

end Sys2Proof.Machine
end

