-- ==== Sys2Proof/Machine/Contexts.lean ====
section
/-! DEFINITION. Commands on contexts: creation, destruction, configuration, grants, pre-emption and resumption, exporting and
importing (spec/13_loader.md R471, R480, R500; spec/12_supervisor.md R439, R455, R466). -/

namespace Sys2Proof.Machine

/-! ## The configuration block (R480) -/

/-- Is a number within a range? -/
def inRange (n a b : Nat) : Bool := decide (a ≤ n) && decide (n ≤ b)

/-- Is a configuration block well formed? (DEDUCED, notes/assumptions/67.md). -/
def cfgOk (c : List W64) : Bool :=
  let w := fun k => c.getD k 0
  let rungs := bitsOf (w 4) 63 32
  bitsOf (w 0) 11 4 == 0 && inRange (bitsOf (w 0) 3 0) 8 16 &&
    bitsOf (w 1) 11 4 == 0 && (bitsOf (w 1) 63 12 == 0 || inRange (bitsOf (w 1) 3 0) 8 16) &&
    bitsOf (w 2) 2 0 == 0 && bitsOf (w 3) 11 5 == 0 && inRange (bitsOf (w 3) 4 0) 7 20 &&
    ((List.range 16).all fun k => rungs / 4 ^ k % 4 != 3) &&
    inRange (bitsOf (w 4) 31 27) 10 30 && inRange (bitsOf (w 4) 26 22) 10 30 && inRange (bitsOf (w 4) 21 16) 16 36 &&
    inRange (bitsOf (w 4) 15 10) 12 32 && bitsOf (w 4) 9 2 == 0 && bitsOf (w 6) 2 0 == 0 && bitsOf (w 7) 11 0 == 0

/-- A new context of a function with a configuration. -/
def newContext (func : Nat) (cfg : List W64) : Context :=
  { func := func, cfg := cfg, slots := List.replicate 16 none, tell := [], deques := [], aces := [], stopped := false,
    traps := [], debugQueue := none, fqPos := 0, fqRetries := 0, nrPos := 0, nrDrops := 0, trPos := 0, trDrops := 0, chanFull := 0,
    chans := .empty, exporting := none, scanSince := none }

/-- The context numbers that a function may give and that are free: its address-space identifiers but 0
(DEDUCED, notes/assumptions/79.md). -/
def freeContext (s : State) (func : Nat) : Option Nat :=
  let f := s.func func
  let n := leastFree (0 :: s.ldr.contexts.keys) f.asid0 (s.ldr.contexts.entries.length + 1)
  if n < f.asid0 + f.asidN then some n else none

/-- CTX_CREATE (R471, R480). -/
def execCtxCreate (s : State) : Host.Outcome State Fault Refusal :=
  onFunction
    (fun a s =>
      let cfg := memWords s a.cmd.w1.toNat 8
      if ¬ cfgOk cfg then a.ends ldrBadCommand s
      else
        match freeContext s a.run.func with
        | none => a.ends ldrNoRoom s
        | some n =>
          finishCmd (s.modLdr fun d => { d with contexts := d.contexts.insert n (newContext a.run.func cfg) }) a.j ldrOk n) s

/-- The place of a ring in a configuration: the words that set it, as far as they do. -/
def ringOf (cfg : List W64) (k : Nat) : Nat × Nat := (bitsOf (cfg.getD k 0) 63 12, bitsOf (cfg.getD k 0) 4 0)

/-- A context with a new configuration: a ring that is another one begins anew. -/
def reconfigured (cfg : List W64) (c : Context) : Context :=
  let pos := fun (k old : Nat) => if ringOf cfg k = ringOf c.cfg k then old else 0
  { c with cfg := cfg, fqPos := pos 0 c.fqPos, nrPos := pos 1 c.nrPos, trPos := pos 3 c.trPos }

/-- CTX_CONFIG (R480): at one clk boundary for the whole context. -/
def execCtxConfig (s : State) : Host.Outcome State Fault Refusal :=
  onContext
    (fun a s =>
      let cfg := memWords s a.cmd.w1.toNat 8
      if ¬ cfgOk cfg then a.ends ldrBadCommand s else a.ends ldrOk (s.modCtx a.ctx (reconfigured cfg))) s

/-! ## Destruction (R471) -/

/-- The launches of a context that have not ended. -/
def openLaunches (s : State) (ctx : Nat) : List Nat :=
  (s.ldr.launches.entries.filter fun e => e.2.ctx == ctx && (openLaunch s e.1).isSome).map Prod.fst

/-- What a context held is freed. -/
def eraseContext (s : State) (ctx : Nat) : State :=
  let hs := (s.ldr.images.entries.filter fun e => e.2.ctx == ctx).map Prod.fst
  let s1 := foldOver dropImage s hs
  let s2 := s1.modLdr fun d =>
    { d with
      images := d.images.filter fun _ i => i.ctx != ctx, contexts := d.contexts.erase ctx
      halts := d.halts.filter fun _ g => g.ctx != ctx
      funcs := d.funcs.mapVals fun _ f => { f with reqs := f.reqs.filter fun _ r => r.ctx != ctx } }
  let s3 := s2.modSnap fun k => { k with held := k.held.filter fun _ h => h.ctx != ctx }
  { s3 with
    cores := s3.cores.mapVals fun _ k => { k with tlb := k.tlb.filter fun e => e.ctx != ctx }
    mem := { s3.mem with tlb := s3.mem.tlb.filter fun e => e.2.ctx != ctx } }

/-- CTX_DESTROY (R471): the context's launches are killed first. -/
def execCtxDestroy (s : State) : Host.Outcome State Fault Refusal :=
  onContext
    (fun a s =>
      let s1 := if a.first then foldOver (fun s j => killLaunch s j ldrKilled) s (openLaunches s a.ctx) else s
      if (openLaunches s1 a.ctx).isEmpty ∧ s1.teams.vals.all (fun t => t.ctx != a.ctx) then a.ends ldrOk (eraseContext s1 a.ctx)
      else a.goesOn [] s1) s

/-! ## Grants (R471, R326, R386, R389) -/

/-- How many objects there are of a kind: Tell slots, deques, device Ace registers. -/
def grantLimit (kind : Nat) : Nat := if kind = 0 then 65536 else if kind = 1 then 4096 else 64

/-- Is a GRANT command's operands malformed? -/
def grantBad (c : Cmd) : Bool :=
  decide (2 < c.w1.toNat) || decide (grantLimit c.w1.toNat < c.w2.toNat + c.w3.toNat) || bitsOf c.w4 63 1 != 0

/-- The objects of a context after a grant or a revoke. -/
def regrant (on : Bool) (ns l : List Nat) : List Nat :=
  if on then l ++ ns.filter fun n => !l.contains n else l.filter fun n => !ns.contains n

/-- Changes a context's grants; a device Ace register takes its start value either way (R389) (DEDUCED, notes/assumptions/69.md). -/
def changeGrants (on : Bool) (a : Acting) (s : State) : State :=
  let kind := a.cmd.w1.toNat
  let ns := (List.range a.cmd.w3.toNat).map fun i => a.cmd.w2.toNat + i
  let s1 := s.modCtx a.ctx fun c =>
    if kind = 0 then { c with tell := regrant on ns c.tell }
    else if kind = 1 then { c with deques := regrant on ns c.deques }
    else { c with aces := regrant on ns c.aces }
  if kind = 2 then foldOver (fun s n => aceClear s (1024 + n)) s1 ns else s1

/-- GRANT (R471). -/
def execGrant (s : State) : Host.Outcome State Fault Refusal :=
  onContext
    (fun a s => if grantBad a.cmd then a.ends ldrBadCommand s else a.ends ldrOk (changeGrants true a s)) s

/-- The objects of a kind that a lane of an operation touches. -/
def objectsOf (s : State) (ctx kind : Nat) (o : Op) (i : Item) : List Nat :=
  if kind = 0 then (if o.unit = unitTell then tellTouches s o.opc i else [])
  else if kind = 1 then (if o.unit = unitTq then tqTouches s ctx o.opc i else [])
  else if o.unit = unitAce ∧ selDev i.a then [selIndex i.a] else []

/-- Is an operation of a context in progress on an object of a range? -/
def objectBusy (s : State) (ctx kind first count : Nat) : Bool :=
  s.teams.vals.any fun t => t.ctx == ctx && t.warps.any fun x => x.ops.any fun o => o.items.any fun i =>
    i.trip != 0 && i.stage != .armed && (objectsOf s ctx kind o i).any fun n => decide (first ≤ n) && decide (n < first + count)

/-- GRANT with REVOKE (R471): it takes effect once no operation of the context is in progress on the objects. -/
def execGrantRevoke (s : State) : Host.Outcome State Fault Refusal :=
  onContext
    (fun a s =>
      if grantBad a.cmd then a.ends ldrBadCommand s
      else if objectBusy s a.ctx a.cmd.w1.toNat a.cmd.w2.toNat a.cmd.w3.toNat then a.goesOn [] s
      else a.ends ldrOk (changeGrants false a s)) s

/-! ## SWITCH (R439, R455, R471) -/

/-- Does a context have a team on some core? -/
def ctxOnCores (s : State) (ctx : Nat) : Bool :=
  s.teams.vals.any fun t => t.ctx == ctx && !t.dead && t.status != .saved

/-- The context's teams are to be saved, and none is placed. -/
def stopContext (s : State) (ctx : Nat) : State :=
  pushTurns (s.modCtx ctx fun c => { c with stopped := true }) (stopTurns s (fun c => c == ctx) 1)

/-- SWITCH pre-empt (R455, R471): it is done when every team of the context is saved. While a trap of the context waits it
changes nothing (R439). -/
def execSwitchPreempt (s : State) : Host.Outcome State Fault Refusal :=
  onContext
    (fun a s =>
      if bitsOf a.cmd.w1 63 3 ≠ 0 then a.ends ldrBadCommand s
      else if a.first then
        if (s.context? a.ctx).any fun c => !c.traps.isEmpty then a.ends ldrOk s
        else if ctxOnCores s a.ctx then a.goesOn [1] (stopContext s a.ctx)
        else a.ends ldrOk (stopContext s a.ctx)
      else if ctxOnCores s a.ctx then s
      else a.ends ldrOk s) s

/-- A waiting trap is answered with ACTION for its warp, as `sup.tret` would end a handler (R439, R445)
(DEDUCED, notes/assumptions/83.md). -/
def answerTrap (action : Nat) (val : Nat → W64) (s : State) (t : CtxTrap) : State :=
  s.modWarp t.warp fun x =>
    { x with
      lanes := mapIdx
        (fun l (y : Lane) => match t.pc.find? l with
          | some p => { y with pc := returnPc action p }
          | none => y) x.lanes
      ports := if action = 2 then replaceElems t.reads val x.ports else x.ports
      streams := if action = 2 then replaceStreams t.reads val x.streams else x.streams }

/-- SWITCH resume (R439, R471): waiting traps are answered, and the context's teams may be placed again. -/
def execSwitchResume (s : State) : Host.Outcome State Fault Refusal :=
  onContext
    (fun a s =>
      let action := bitsOf a.cmd.w1 2 1
      if bitsOf a.cmd.w1 63 3 ≠ 0 ∨ action = 3 then a.ends ldrBadCommand s
      else if (s.context? a.ctx).any (fun c => c.stopped) ∧ ctxOnCores s a.ctx then a.goesOn [] s
      else
        let val := fun l => s.mem.word (a.cmd.w2.toNat + 8 * l)
        let s1 := match s.context? a.ctx with
          | some c => foldOver (answerTrap action val) s c.traps
          | none => s
        a.ends ldrOk (s1.modCtx a.ctx fun c => { c with stopped := false, traps := [] })) s

/-! ## Export and import (R500) -/

/-- The virtual address of a context's export word. -/
def exportWord (s : State) (ctx : Nat) : Nat := (s.cfgWord ctx 6).toNat

/-- Writes the export word, if it can be written. -/
def putExportWord (s : State) (ctx : Nat) (v : W64) : Option State :=
  match translate s ctx (exportWord s ctx) true false with
  | .ok p =>
    let l := atAddr p.pa (wordBytes 8 v)
    some (if p.tgt = 0 then outsideWrite s l else writeAtHome s none 256 0 p.tgt p.dev s.mem.epoch l)
  | .error _ => none

/-- Is a context one that cannot be exported: it holds grants, held snapshots, or launches of native images? -/
def notPortable (s : State) (ctx : Nat) : Bool :=
  exportWord s ctx == 0 ||
    ((s.context? ctx).any fun c => !c.tell.isEmpty || !c.deques.isEmpty || !c.aces.isEmpty) ||
    (s.eng.snap.held.vals.any fun h => h.ctx == ctx) ||
    (openLaunches s ctx).any fun j => match s.ldr.launches.find? j with
      | some l => !(s.ldr.images.find? l.image).any fun i => i.ir
      | none => false

/-- Is a lane parked in the export check of its context? -/
def atExport (s : State) (ctx : Nat) (x : Warp) (l : Nat) : Bool :=
  match (x.lane l).wait with
  | some (.monitor id) => (x.op? id).any fun o => (o.item? l).any fun i => i.a.toNat == exportWord s ctx
  | _ => false

/-- Has every lane of a context reached a safe point, with no job, page request or transaction open? -/
def exportReady (s : State) (ctx : Nat) : Bool :=
  (s.teams.vals.all fun t => t.ctx != ctx || t.dead ||
    (t.jobs.isEmpty && t.warps.all fun x => x.txn.isNone && x.liveLanes.all (atExport s ctx x))) &&
    (s.func (s.funcOf ctx)).reqs.vals.all fun r => r.ctx != ctx

/-- `n` unspecified bytes. -/
def freeBytes : Nat → State → List Byte × State
  | 0, s => ([], s)
  | n + 1, s =>
    let r := freeWord s
    let t := freeBytes n r.2
    (r.1.setWidth 8 :: t.1, t.2)

/-- The end of an export: the context's lanes and values go into the buffer, in a format that is not stated. -/
def finishExport (a : Acting) (s : State) : State :=
  let r := freeBytes a.cmd.w2.toNat s
  a.ends ldrOk ((ldrWrite r.2 a.cmd.w1.toNat r.1).modCtx a.ctx fun c => { c with exporting := none })

/-- CTX_EXPORT (R500). Its turns remember how far it is: 1 the export word is set, 2 the context is being saved. -/
def execCtxExport (s : State) : Host.Outcome State Fault Refusal :=
  onContext
    (fun a s =>
      if a.first then
        if notPortable s a.ctx then a.ends ldrNotPortable s
        else match putExportWord s a.ctx 1 with
          | some t => a.goesOn [1] (t.modCtx a.ctx fun c => { c with exporting := some s.clk })
          | none => a.ends ldrBadCommand s
      else if a.run.info = [1] then
        if exportReady s a.ctx then a.goesOn [2] (stopContext s a.ctx) else s
      else if ctxOnCores s a.ctx then s
      else finishExport a s) s

/-- EXPORT_TIMEOUT (R500): the safe points have not been reached within STO2; the lanes of the subject's context go on. -/
def execExportTimeout (s : State) : Host.Outcome State Fault Refusal :=
  match s.subject with
  | .num j =>
    match s.ldr.journal.find? j with
    | some c =>
      let since := (s.context? c.ctx).bind fun x => x.exporting
      if c.state = .running ∧ c.opc = 0x10 ∧ c.info = [1] ∧ since.any (fun k => decide (k + sto2 s c.ctx < s.clk)) then
        .next (finishCmd (((putExportWord s c.ctx 0).getD s).modCtx c.ctx fun x => { x with exporting := none }) j ldrTimedOut 0)
      else .next s
    | none => .next s
  | _ => .next s

/-- A team of an imported context, saved at its safe points. -/
def importTeam (s : State) (ctx j h : Nat) (l : Launch) (i : Image) (t : Config.ImportedTeam) : State :=
  let (id, s1) := takeId s
  let l1 : Launch := { l with roles := t.roles, next := t.index }
  let place := fun (x : Warp) (w : Nat) =>
    let mine := t.lanes.filter fun k => k.warp == w
    { x with
      lanes := mapIdx
        (fun n (y : Lane) => match firstWhere (fun (k : Config.ImportedLane) => k.lane == n) mine with
          | some k =>
            { y with
              pc := BitVec.ofNat 32 (i.slot % 16 * 2 ^ 28) ||| bundleAddr k.pc, live := true
              regs := foldOver (fun (m : FMap W32) r => m.setD r.1 0 r.2) .empty k.regs }
          | none => { y with live := false }) x.lanes }
  let warps := startWarps s l1 i 0 t.index [] 0 (roleWarps t.roles)
  let team : Team :=
    { launch := j, index := t.index, ctx := ctx, core := 0, status := .saved, warps := mapIdx (fun w x => place x w) warps,
      tsBase := 0, tsSize := (t.tstore.length + 4095) / 4096 * 4096,
      tstore := foldOver (fun (m : FMap Byte) b => m.setD b.1 0 b.2) .empty (atAddr 0 t.tstore), tsPoison := [], arb := [],
      bars := .empty, scale := .empty, scalePrev := .empty, scaleClk := 0, pins := .empty, mx := none, owner := false,
      jobs := [], lastIssue := s.clk, lastCommit := s.clk, barWait := 0, monWait := 0, savedAt := s.clk, readyAt := s.clk, wake := false,
      swapped := false, dead := false, startedAt := s.clk, mxFailed := [], mxWaited := .empty }
  if h = 0 then s else s1.setTeam id team

/-- The launch under which imported teams run; what the buffer says of it is not stated. -/
def importLaunch (s : State) (ctx h : Nat) (ts : List Config.ImportedTeam) : Launch × State :=
  let p := freeBelow s 8
  let d := freeWord p.2
  let g := freeWord d.2
  let total := maxOf (ts.map fun t => t.index + 1)
  ({ ctx := ctx, image := h, prio := p.1, grant := 0, acec := false, matrix := false, snap := false, fuse := false,
     data := d.1, arg := g.1, tsu := maxOf (ts.map fun t => (t.tstore.length + 4095) / 4096), order := 0, extents := [total],
     roles := (ts.head?.map fun t => t.roles).getD [], entries := [], edges := [], state := .running, total := total,
     next := total, retired := (List.range total).filter fun n => ts.all fun t => t.index != n, lastCore := none,
     snapTime := none, clusters := [], killed := none }, g.2)

/-- CTX_IMPORT (R500): the functions are translated again from an image of the context, and the teams that the buffer holds
stand saved at their safe points. How long the buffer is and what it holds are not stated. -/
def execCtxImport (s : State) : Host.Outcome State Fault Refusal :=
  onContext
    (fun a s =>
      match firstWhere (fun (i : Image) => i.ctx == a.ctx && imgHasIr i.bytes) s.ldr.images.vals with
      | none => a.ends ldrBadRecord s
      | some img =>
        let t := translateImage s a.ctx img.bytes 256
        match t.2.2.ldr.images.find? t.2.1 with
        | none => a.ends t.1 t.2.2
        | some i =>
          let len := freeBelow t.2.2 (2 ^ 32)
          let ts := Config.importedTeams (len.2.mem.read a.cmd.w1.toNat len.1) img.bytes
          let l := importLaunch len.2 a.ctx t.2.1 ts
          let j := 2 ^ 64 + a.j
          let s1 := l.2.modLdr fun d => { d with launches := d.launches.insert j l.1 }
          a.ends ldrOk (foldOver (fun s x => importTeam s a.ctx j t.2.1 l.1 i x) s1 ts)) s

end Sys2Proof.Machine
end

