-- ==== Sys2Proof/Machine/Debug.lean ====
section
/-! DEFINITION. The debugger's commands: the debug right, halts, reads and edits of halted groups, issue logs
(spec/13_loader.md R476; spec/12_supervisor.md R463 to R467). -/

namespace Sys2Proof.Machine

/-! ## The debug right (R463, R466, R476) -/

/-- A sub-command of the queue that holds the context's debug right. -/
def onHolder (f : Acting → State → State) (s : State) : Host.Outcome State Fault Refusal :=
  onContext
    (fun a s =>
      if (s.context? a.ctx).any fun c => c.debugQueue == some a.run.queue then f a s else a.ends ldrNotPermitted s) s

/-- DEBUG_TAKE (R476). -/
def execDebugTake (s : State) : Host.Outcome State Fault Refusal :=
  onContext
    (fun a s =>
      if (s.context? a.ctx).any fun c => c.debugQueue.any fun q => q != a.run.queue then a.ends ldrNotPermitted s
      else a.ends ldrOk (s.modCtx a.ctx fun c => { c with debugQueue := some a.run.queue })) s

/-- Every halted group of a context resumes, and halts that have not reached their edge are discarded. -/
def resumeAll (s : State) (ctx : Nat) : State :=
  foldOver resumeGroup s ((s.ldr.halts.entries.filter fun e => e.2.ctx == ctx).map Prod.fst)

/-- The debug right of a context ends. -/
def endRight (s : State) (ctx : Nat) : State := s.modCtx ctx fun c => { c with debugQueue := none }

/-- DEBUG_GIVE (R476). -/
def execDebugGive (s : State) : Host.Outcome State Fault Refusal :=
  onHolder (fun a s => a.ends ldrOk (endRight (resumeAll s a.ctx) a.ctx)) s

/-- DEBUG_REVOKE (R466, R476): of the physical function, for any context (DEDUCED, notes/assumptions/76.md). -/
def execDebugRevoke (s : State) : Host.Outcome State Fault Refusal :=
  onCommand
    (fun a s =>
      if a.run.func ≠ 64 ∨ (s.context? a.ctx).isNone then a.ends ldrNotPermitted s
      else if (s.context? a.ctx).any fun c => c.debugQueue.isNone then a.ends ldrOk s
      else
        let s1 := if bitOf (s.cfgWord a.ctx 4) 1 then
            (foldOver (fun s j => killLaunch s j ldrKilled) s (openLaunches s a.ctx)).modLdr fun d =>
              { d with halts := d.halts.filter fun _ g => g.ctx != a.ctx }
          else resumeAll s a.ctx
        a.ends ldrOk (endRight s1 a.ctx)) s

/-! ## Halts (R463) -/

/-- The warps of the group that a HALT names; none where it names no warp or team that is there. -/
def haltWarps (s : State) (a : Acting) : Option (List WRef) :=
  let scope := a.cmd.w2.toNat
  let j := a.cmd.w3.toNat
  let mine := fun (t : Team) => t.ctx == a.ctx && !t.dead
  let inLaunch := (s.ldr.launches.find? j).any fun l => l.ctx == a.ctx
  let team := groupWarps s fun _ t => mine t && t.launch == j && t.index == a.cmd.w4.toNat
  if scope = 3 then some (groupWarps s fun _ t => mine t)
  else if ¬ inLaunch then none
  else if scope = 2 then some (groupWarps s fun _ t => mine t && t.launch == j)
  else
    match (if scope = 1 then team else team.filter fun w => w.warp == a.cmd.w5.toNat) with
    | [] => none
    | l => some l

/-- Are the operands of a HALT malformed? -/
def haltBad (c : Cmd) : Bool := decide (3 < c.w2.toNat) || bitsOf c.w4 63 32 != 0 || bitsOf c.w5 63 4 != 0

/-- DEBUG_HALT (R463, R476): it completes once the edge has passed; a group that the end of the right has discarded is not
halted. -/
def execDebugHalt (s : State) : Host.Outcome State Fault Refusal :=
  onHolder
    (fun a s =>
      match a.run.info with
      | id :: _ =>
        match s.ldr.halts.find? id with
        | some g => if g.halted ∧ g.edge < s.clk then finishCmd s a.j ldrOk id else s
        | none => a.ends ldrNotPermitted s
      | [] =>
        if haltBad a.cmd then a.ends ldrBadCommand s
        else match haltWarps s a with
          | none => a.ends ldrBadCommand s
          | some l =>
            let r := requestHalt s a.ctx l none
            a.goesOn [r.1] (r.2.modLdr fun d =>
              { d with
                halts := d.halts.modify r.1 fun g => { g with scope := a.cmd.w2.toNat, launch := a.cmd.w3.toNat } })) s

/-- The halted group of a context that a halt id names. -/
def haltOf (s : State) (ctx : Nat) (id : W64) : Option HaltGroup := (s.ldr.halts.find? id.toNat).filter fun g => g.ctx == ctx

/-- DEBUG_RESUME (R465). -/
def execDebugResume (s : State) : Host.Outcome State Fault Refusal :=
  onHolder
    (fun a s =>
      if (haltOf s a.ctx a.cmd.w2).isNone then a.ends ldrBadCommand s
      else a.ends ldrOk (resumeGroup s a.cmd.w2.toNat)) s

/-! ## Items (R476) -/

/-- Fields of an item word. -/
def itemKind (w : W64) : Nat := bitsOf w 63 56
def itemWarp (w : W64) : Nat := bitsOf w 51 48
def itemLane (w : W64) : Nat := bitsOf w 45 40
def itemIndex (w : W64) : Nat := bitsOf w 31 0

/-- Is a reserved bit of an item word set? -/
def itemBad (w : W64) : Bool := bitsOf w 55 52 != 0 || bitsOf w 47 46 != 0 || bitsOf w 39 32 != 0

/-- The size of an item of a kind; that of team store is the length asked for. -/
def itemSize (kind len : Nat) : Option Nat :=
  if kind = 7 then some len else [4, 4, 2, 8, 16, 36, 64, 0, 8, 1024, 2, 512, 4096][kind]?

/-- May an item of a kind be written? -/
def itemWrites (kind : Nat) : Bool := kind != 10 && kind != 12

/-- A port by its code: a unit and an offset. -/
def itemPort (code : Nat) : Option (Nat × Nat) :=
  match unitOf code with
  | some u => if code % 128 ≤ 5 then some (u, code % 128) else none
  | none => none

/-- Is a code one of cp.s0 to cp.s7? -/
def streamCode (code : Nat) : Bool := decide (0x786 ≤ code) && decide (code ≤ 0x78D)

/-- Does an item exist: its lane, register, guard, port, loop level, bytes, or handler? (DEDUCED, notes/assumptions/77.md). -/
def itemThere (s : State) (t : Team) (x : Warp) (w : W64) (len : Nat) : Bool :=
  let k := itemKind w
  let n := itemIndex w
  if [0, 1, 2, 4, 5, 6, 10].contains k ∧ x.lanes.length ≤ itemLane w then false
  else if k = 0 then decide (n < x.budget)
  else if k = 3 then decide (n < 15)
  else if k = 4 then streamCode n || (itemPort n).any fun p => populated s t p.1
  else if k = 6 then decide (n < 6)
  else if k = 7 then decide (n + len ≤ t.tsSize)
  else if k = 9 then decide (n < 2) && x.handlers.any fun h => h.rung == n
  else true

/-- The first `n` bytes of a list, zeros after its end. -/
def padTo (n : Nat) (l : List Byte) : List Byte := (l ++ List.replicate n 0).take n

/-- The fields of a loop level. -/
def levelFields (v : LoopLevel) : List Nat :=
  [v.members.toNat, v.ix.toNat, v.trip.toNat, v.trip0.toNat, v.stride.toNat, v.start.toNat, v.stop.toNat, v.exit.toNat]

/-- A loop level with given fields. -/
def levelOf (l : List Nat) : LoopLevel :=
  let f := fun k => BitVec.ofNat 32 (l.getD k 0)
  { members := BitVec.ofNat 64 (l.getD 0 0), ix := f 1, trip := f 2, trip0 := f 3, stride := f 4, start := bundleAddr (f 5),
    stop := bundleAddr (f 6), exit := bundleAddr (f 7) }

/-- The results in flight of a warp that the replay buffer holds, as numbers. -/
def replayFields (x : Warp) : List Nat :=
  x.fills.flatMap fun f => f.unit :: f.due :: f.res.flatMap fun r => [r.lane, r.y.toNat, r.y2.toNat]

/-- The fields of a handler. -/
def handlerFields (h : Handler) : List Nat :=
  [h.lanes.toNat, h.trap.code.toNat, h.trap.faultMask.toNat] ++ (h.guards.map fun g => g.toNat) ++
    laneNums.map fun l => (h.tpc.getD l 0).toNat

/-- The image of a return stack: addresses, then the depth; entries beyond the depth are unspecified. -/
def stackBytes (x : Lane) (s : State) : List Byte × State :=
  let d := x.rstack.length
  let es := if Config.debugTopFirst then x.rstack else x.rstack.reverse
  let r := freeBytes (4 * (8 - d)) s
  ((es.flatMap fun e => bytesOfNat 4 e.addr.toNat) ++ r.1 ++ bytesOfNat 4 d, r.2)

/-- The image of a port element; what a stream port or an operand port shows beside its value is unspecified. -/
def portBytes (x : Warp) (code l : Nat) (s : State) : List Byte × State :=
  match itemPort code with
  | some (u, off) =>
    if off < 4 then
      let r := freeBool s
      (wordBytes 8 (x.port u off l) ++ [if r.1 then 1 else 0] ++ List.replicate 7 0, r.2)
    else
      let e := x.elem u off l
      (wordBytes 8 e.val ++ [if e.filled then 1 else 0, e.tag] ++ List.replicate 6 0, s)
  | none => freeBytes 16 s

/-- The bytes of an item (DESIGN CHOICE, notes/assumptions/37.md). -/
def readItem (t : Team) (x : Warp) (w : W64) (len : Nat) (s : State) : List Byte × State :=
  let k := itemKind w
  let l := itemLane w
  let n := itemIndex w
  let y := x.lane l
  if k = 0 then (bytesOfNat 4 (y.reg n).toNat, s)
  else if k = 1 then (bytesOfNat 4 y.pc.toNat, s)
  else if k = 2 then (bytesOfNat 2 y.nfr.toNat, s)
  else if k = 3 then (wordBytes 8 (x.guards.getD n 0), s)
  else if k = 4 then portBytes x n l s
  else if k = 5 then stackBytes y s
  else if k = 6 then
    let f := match (x.half (x.halfOf l)).levels[n]? with
      | some v => levelFields v
      | none => []
    (padTo 64 (Config.debugBytes 6 f), s)
  else if k = 7 then ((List.range len).map fun i => t.tstore.getD (n + i) 0, s)
  else if k = 8 then (padTo 8 (Config.debugBytes 8 [x.wctl.toNat, x.sticky.toNat]), s)
  else if k = 9 then
    let f := match firstWhere (fun (h : Handler) => h.rung == n) x.handlers with
      | some h => handlerFields h
      | none => []
    (padTo 1024 (Config.debugBytes 9 f), s)
  else if k = 10 then (bytesOfNat 2 y.age, s)
  else if k = 11 then (padTo 512 (Config.debugBytes 11 (replayFields x)), s)
  else (padTo 4096 (Config.debugBytes 12 (x.sq ++ (x.ops.filter fun o => x.sq.contains o.id).flatMap fun o =>
    o.items.flatMap fun i => [i.lane, i.a.toNat, i.b.toNat])), s)

/-- A return stack from its image. -/
def stackOf (l : List Byte) : List RetEntry :=
  let d := natOfBytes (l.drop 32)
  let es := (List.range d).map fun i =>
    let a := bundleAddr (BitVec.ofNat 32 (natOfBytes ((l.drop (4 * i)).take 4)))
    { addr := a, slot := (a >>> 28).setWidth 4 : RetEntry }
  if Config.debugTopFirst then es else es.reverse

/-- A handler's record, trap addresses and guards from the fields of an edit. -/
def editHandler (f : List Nat) (h : Handler) : Handler :=
  { h with
    lanes := BitVec.ofNat 64 (f.getD 0 0),
    trap := { h.trap with code := BitVec.ofNat 8 (f.getD 1 0), faultMask := BitVec.ofNat 6 (f.getD 2 0) },
    guards := (List.range 15).map fun k => BitVec.ofNat 64 (f.getD (3 + k) 0),
    tpc := foldOver (fun (m : FMap W32) l => m.insert l (bundleAddr (BitVec.ofNat 32 (f.getD (18 + l) 0)))) .empty (lanesOf (BitVec.ofNat 64 (f.getD 0 0))) }

/-- The values of results in flight from the fields of an edit, in the order in which they are read. -/
def editFills : List Nat → List Fill → List Fill
  | _, [] => []
  | f, x :: r =>
    { x with res := mapIdx (fun i (v : LaneRes) => { v with y := BitVec.ofNat 64 (f.getD (2 * i) 0), y2 := BitVec.ofNat 64 (f.getD (2 * i + 1) 0) }) x.res } ::
      editFills (f.drop (2 * x.res.length)) r

/-- An element that is written holds no poison. -/
def Warp.cleanElem (x : Warp) (code l : Nat) : Warp := { x with poison := x.poison.filter fun p => p != (code, l) }

/-- A warp with an item edited (R465). A code address keeps bits [4:0] zero (spec/01_engines_together.md R23) (DEDUCED,
notes/assumptions/37.md). -/
def editWarp (w : W64) (bs : List Byte) (x : Warp) : Warp :=
  let k := itemKind w
  let l := itemLane w
  let n := itemIndex w
  let v := natOfBytes bs
  if k = 0 then (x.modLane l fun y => y.setReg n (BitVec.ofNat 32 v)).cleanElem n l
  else if k = 1 then x.modLane l fun y => { y with pc := bundleAddr (BitVec.ofNat 32 v) }
  else if k = 2 then x.modLane l fun y => { y with nfr := BitVec.ofNat 16 v }
  else if k = 3 then { x with guards := modifyAt (fun _ => BitVec.ofNat 64 v) n x.guards }
  else if k = 4 then
    match itemPort n with
    | some (u, off) =>
      let d := wordOf (bs.take 8)
      (x.modUnit u fun p => if off < 4 then p.setOperand off l d else p.setElem off l (.value d)).cleanElem n l
    | none => x
  else if k = 5 then x.modLane l fun y => { y with rstack := stackOf bs }
  else if k = 6 then
    { x with
      halves := modifyAt
        (fun (h : Half) => { h with levels := mapIdx (fun i v => if i = n then levelOf (Config.debugFields 6 bs) else v) h.levels })
        (x.halfOf l) x.halves }
  else if k = 8 then
    let f := Config.debugFields 8 bs
    { x with schk := f.getD 0 0 % 2 == 1, sticky := BitVec.ofNat 5 (f.getD 1 0) }
  else if k = 9 then
    { x with handlers := x.handlers.map fun h => if h.rung = n then editHandler (Config.debugFields 9 bs) h else h }
  else if k = 11 then { x with fills := editFills (Config.debugFields 11 bs) x.fills }
  else x

/-- An item is edited: of the team store, or of a warp. -/
def editItem (r : WRef) (w : W64) (bs : List Byte) (s : State) : State :=
  if itemKind w = 7 then s.modTeam r.team fun t => t.tsWrite (atAddr (itemIndex w) bs) else s.modWarp r (editWarp w bs)

/-- The halted warp that a READ or WRITE means: one of its group with the number given. -/
def itemTarget (s : State) (a : Acting) : Option WRef × State :=
  match haltOf s a.ctx a.cmd.w2 with
  | some g =>
    let l := if g.halted then g.warps.filter fun w => w.warp == itemWarp a.cmd.w3 else []
    let k := freeBelow s l.length
    (l[k.1]?, k.2)
  | none => (none, s)

/-- READ and WRITE: the item is looked up, and acted on if the command is well formed. -/
def onItemWord (write : Bool) (f : Acting → WRef → Team → Warp → State → State) (s : State) : Host.Outcome State Fault Refusal :=
  onHolder
    (fun a s =>
      let w := a.cmd.w3
      let len := a.cmd.w5.toNat
      let r := itemTarget s a
      match r.1 with
      | none => a.ends ldrBadCommand s
      | some q =>
        match s.team? q.team, s.warp? q with
        | some t, some x =>
          if itemBad w ∨ itemSize (itemKind w) len ≠ some len ∨ ¬ itemThere s t x w len ∨ (write ∧ ¬ itemWrites (itemKind w)) then
            a.ends ldrBadCommand s
          else f a q t x r.2
        | _, _ => a.ends ldrBadCommand s) s

/-- DEBUG_READ (R465, R476). -/
def execDebugRead (s : State) : Host.Outcome State Fault Refusal :=
  onItemWord false
    (fun a _ t x s =>
      let b := readItem t x a.cmd.w3 a.cmd.w5.toNat s
      a.ends ldrOk (ldrWrite b.2 a.cmd.w4.toNat b.1)) s

/-- DEBUG_WRITE (R465, R476): an edit of a team that is being saved waits for the end of the save (R457). -/
def execDebugWrite (s : State) : Host.Outcome State Fault Refusal :=
  onItemWord true
    (fun a q t _ s =>
      let bs := s.mem.read a.cmd.w4.toNat a.cmd.w5.toNat
      if t.status = .saving then a.goesOn [] s
      else if itemKind a.cmd.w3 = 5 ∧ 8 < natOfBytes (bs.drop 32) then a.ends ldrBadCommand s
      else a.ends ldrOk (editItem q a.cmd.w3 bs s)) s

/-! ## Issue logs (R467) -/

/-- Is a number of entries one that an issue log may have? -/
def logSizeOk (n : Nat) : Bool := (List.range 17).any fun k => n == 2 ^ (8 + k)

/-- DEBUG_LOG (R467, R476): a log that is set anew first writes its run. -/
def execDebugLog (s : State) : Host.Outcome State Fault Refusal :=
  onHolder
    (fun a s =>
      let c := a.cmd
      let mode := c.w5.toNat
      if bitsOf c.w2 63 10 ≠ 0 ∨ 2 < mode ∨ (mode ≠ 0 ∧ ¬ logSizeOk c.w4.toNat) then a.ends ldrBadCommand s
      else
        let core := bitsOf c.w2 7 0
        let quad := bitsOf c.w2 9 8
        let s1 := if ((s.core core).quad quad).log.mode = 1 then writeLog s core quad else s
        a.ends ldrOk (s1.modQuad core quad fun x =>
          { x with
            log := { mode := mode, ring := c.w3.toNat, size := c.w4.toNat, pos := 0, kind := 0, slot := 0, run := 0 } })) s

end Sys2Proof.Machine
end

