-- ==== Sys2Proof/Machine/Device.lean ====
section
/-! DEFINITION. Commands of functions on the device: its configuration, queries, event selectors; device reset, boot, loss of
power (spec/13_loader.md R473 to R475, R477, R478, R481, R487, R503; spec/01_engines_together.md R29). -/

namespace Sys2Proof.Machine

/-! ## DEV-CONFIG (R473) -/

/-- Word `k` of a block. -/
def blockWord (b : List W64) (k : Nat) : W64 := b.getD k 0

/-- A DEV-CONFIG command: its block, if it is aligned, is checked and acted on (DEDUCED, notes/assumptions/74.md). -/
def devConfig (ok : State → List W64 → Bool) (f : List W64 → State → State) (s : State) : Host.Outcome State Fault Refusal :=
  onPhysical
    (fun a s =>
      let b := memWords s a.cmd.w1.toNat 8
      if a.cmd.w1.toNat % 64 ≠ 0 ∨ ¬ ok s b then a.ends ldrBadCommand s else a.ends ldrOk (f b s)) s

/-- Are the fields of a device block within their ranges, its reserved fields zero? -/
def deviceFields (b : List W64) : Bool :=
  let w := blockWord b
  let id := bitsOf (w 0) 18 0
  bitsOf (w 0) 63 41 == 0 && inRange (bitsOf (w 0) 40 33) 1 128 && inRange (bitsOf (w 0) 32 26) 1 64 &&
    inRange (bitsOf (w 0) 25 19) 1 64 && decide (id % 64 < bitsOf (w 0) 25 19) && decide (id / 64 % 64 < bitsOf (w 0) 32 26) &&
    decide (id / 4096 < bitsOf (w 0) 40 33) &&
    bitsOf (w 1) 63 52 == 0 && bitsOf (w 1) 20 0 == 0 && bitsOf (w 2) 63 37 == 0 && inRange (bitsOf (w 2) 36 32) 12 24 &&
    bitsOf (w 3) 63 32 == 0 &&
    ((List.range 4).all fun k => bitsOf (w 3) (8 * k + 6) (8 * k + 4) == 0 && decide (bitsOf (w 3) (8 * k + 3) (8 * k) ≤ 11)) &&
    bitsOf (w 5) 63 48 == 0 && w 6 == 0 && w 7 == 0

/-- First byte and size of the version heap that a device block sets. -/
def heapOf (b : List W64) : Nat × Nat := (bitsOf (blockWord b 1) 51 21 * 2 ^ 21, bitsOf (blockWord b 2) 31 0 * 2 ^ 21)

/-- May a device block take effect now? -/
def deviceOk (s : State) (b : List W64) : Bool :=
  deviceFields b &&
    (blockWord b 0 == blockWord s.ldr.device 0 || s.ldr.contexts.entries.isEmpty) &&
    (heapOf b == heapOf s.ldr.device || s.eng.snap.chains.entries.isEmpty) &&
    decide ((heapOf b).1 + (heapOf b).2 ≤ Config.hbmBytes) &&
    decide (s.clk % 2 ^ 48 ≤ bitsOf (blockWord b 5) 47 0)

/-- A spare port that is no longer in use goes down; one that comes into use is up. -/
def setSpare (b : List W64) (s : State) (k : Nat) : State :=
  let before := bitOf (blockWord s.ldr.device 3) (8 * k + 7)
  let after := bitOf (blockWord b 3) (8 * k + 7)
  if before ∧ ¬ after then portGoesDown s (12 + k)
  else if after ∧ ¬ before then s.modFab fun f => { f with ports := f.ports.erase (12 + k) }
  else s

/-- A device block takes effect; a step of system time that is due in this clk is made in it. -/
def setDevice (b : List W64) (s : State) : State :=
  let s1 := (foldOver (setSpare b) s (List.range 4)).modLdr fun d => { d with device := b }
  if s.clk % 2 ^ 48 = bitsOf (blockWord b 5) 47 0 then pushTurns s1 [.event .systemTimeStep .none] else s1

/-- DEV_CONFIG_DEVICE (R473). -/
def execDevConfigDevice (s : State) : Host.Outcome State Fault Refusal := devConfig deviceOk setDevice s

/-! ## Partitions (R474) -/

/-- The cores that a partition block names. -/
def blockCores (b : List W64) : List Nat := (List.range 256).filter fun n => bitOf (blockWord b (1 + n / 64)) (n % 64)

/-- Has a function a launch running, or a team? -/
def functionRuns (s : State) (f : Nat) : Bool :=
  (s.ldr.launches.vals.any fun l => s.funcOf l.ctx == f && l.state == .running) ||
    s.teams.vals.any fun t => s.funcOf t.ctx == f

/-- Do two ranges of numbers, by first and count, overlap? -/
def spansMeet (a n b m : Nat) : Bool := decide (a < b + m) && decide (b < a + n)

/-- May a partition block take effect now? -/
def partitionOk (s : State) (b : List W64) : Bool :=
  let w := blockWord b
  let f := bitsOf (w 0) 6 0
  let others := s.ldr.funcs.entries.filter fun e => e.1 != f
  bitsOf (w 0) 63 12 == 0 && bitsOf (w 0) 7 7 == 0 && decide (bitsOf (w 0) 11 8 ≤ 8) && decide (f ≤ 64) &&
    bitsOf (w 5) 63 52 == 0 && bitsOf (w 5) 11 0 == 0 && bitsOf (w 6) 63 33 == 0 && w 7 == 0 &&
    ((blockCores b).all fun c => !s.ldr.grade.disabled.contains c && others.all fun e => !e.2.cores.contains c) &&
    !functionRuns s f && ((f == 64) == (bitsOf (w 5) 51 12 == 0)) &&
    decide (bitsOf (w 6) 15 0 + bitsOf (w 6) 32 16 ≤ 65536) &&
    others.all fun e => !spansMeet (bitsOf (w 6) 15 0) (bitsOf (w 6) 32 16) e.2.asid0 e.2.asidN

/-- A partition block takes effect. -/
def setPartition (b : List W64) (s : State) : State :=
  let w := blockWord b
  let g := bitsOf (w 0) 11 8
  s.modFunc (bitsOf (w 0) 6 0) fun f =>
    { f with
      cores := blockCores b, defGrant := if g = 0 then 8 else g, s2root := bitsOf (w 5) 51 12 * 2 ^ 12,
      asid0 := bitsOf (w 6) 15 0, asidN := bitsOf (w 6) 32 16 }

/-- DEV_CONFIG_PARTITION (R474). -/
def execDevConfigPartition (s : State) : Host.Outcome State Fault Refusal := devConfig partitionOk setPartition s

/-! ## Windows (R475, R503) -/

/-- First BAR offset and size of a host window. -/
def hostSpan (w : List W64) : Nat × Nat := (bitsOf (blockWord w 1) 63 20 * 2 ^ 20, bitsOf (blockWord w 2) 31 0 * 2 ^ 20)

/-- May a host-window block take effect? -/
def hostWindowOk (s : State) (b : List W64) : Bool :=
  let w := blockWord b
  let f := bitsOf (w 0) 14 8
  let p := hostSpan b
  bitsOf (w 0) 63 15 == 0 && decide (f ≤ 64) && bitsOf (w 1) 19 0 == 0 && bitsOf (w 2) 63 32 == 0 &&
    bitsOf (w 3) 63 52 == 0 && bitsOf (w 3) 19 0 == 0 && w 4 == 0 && w 5 == 0 && w 6 == 0 && w 7 == 0 &&
    (!bitOf (w 0) 7 ||
      (p.2 != 0 && decide (barHead f ≤ p.1) && inHbm (bitsOf (w 3) 51 20 * 2 ^ 20) p.2 &&
        (s.func f).windows.entries.all fun e =>
          e.1 == bitsOf (w 0) 5 0 || !bitOf (blockWord e.2 0) 7 || !spansMeet p.1 p.2 (hostSpan e.2).1 (hostSpan e.2).2))

/-- A host window opens, changes or closes. -/
def setHostWindow (b : List W64) (s : State) : State :=
  let w0 := blockWord b 0
  s.modFunc (bitsOf w0 14 8) fun f => { f with windows := f.windows.insert (bitsOf w0 5 0) b }

/-- DEV_CONFIG_HOST_WINDOW (R475). -/
def execDevConfigHostWindow (s : State) : Host.Outcome State Fault Refusal := devConfig hostWindowOk setHostWindow s

/-- First byte and size of a peer window. -/
def peerSpan (w : List W64) : Nat × Nat := (bitsOf (blockWord w 1) 51 20 * 2 ^ 20, bitsOf (blockWord w 2) 31 0 * 2 ^ 20)

/-- May a peer-window block take effect? -/
def peerWindowOk (s : State) (b : List W64) : Bool :=
  let w := blockWord b
  let p := peerSpan b
  bitsOf (w 0) 63 8 == 0 && bitsOf (w 1) 63 52 == 0 && bitsOf (w 1) 19 0 == 0 && bitsOf (w 2) 63 32 == 0 && w 3 == 0 &&
    w 4 == 0 && w 5 == 0 && w 6 == 0 && w 7 == 0 &&
    (!bitOf (w 0) 7 ||
      (p.2 != 0 && inHbm p.1 p.2 &&
        s.ldr.peerWins.entries.all fun e =>
          e.1 == bitsOf (w 0) 5 0 || !bitOf (blockWord e.2 0) 7 || !spansMeet p.1 p.2 (peerSpan e.2).1 (peerSpan e.2).2))

/-- A peer window opens, changes or closes. -/
def setPeerWindow (b : List W64) (s : State) : State :=
  s.modLdr fun d => { d with peerWins := d.peerWins.insert (bitsOf (blockWord b 0) 5 0) b }

/-- DEV_CONFIG_PEER_WINDOW (R503). -/
def execDevConfigPeerWindow (s : State) : Host.Outcome State Fault Refusal := devConfig peerWindowOk setPeerWindow s

/-! ## QUERY (R477) -/

/-- A query writes words at w2, if it is aligned. -/
def answerQuery (a : Acting) (ws : List W64) (s : State) : State :=
  if a.cmd.w2.toNat % 64 ≠ 0 then a.ends ldrBadCommand s
  else a.ends ldrOk (ldrWrite s a.cmd.w2.toNat (ws.flatMap (wordBytes 8)))

/-- A word whose bits say which of 64 numbers from `first` on are picked. -/
def bitWord (p : Nat → Bool) (first : Nat) : W64 := maskOf (laneNums.filter fun i => p (first + i))

/-- A bit of PAIRS: three for each quad. -/
def pairBit (g : Grade) (k : Nat) : Bool :=
  ((firstWhere (fun (e : Nat × Nat) => e.1 == k / 3) g.pairs).map Prod.snd).any fun b => b.testBit (k % 3)

/-- The device and unit map. -/
def deviceMap (s : State) : List W64 :=
  let g := s.ldr.grade
  [BitVec.ofNat 64 (s.deviceId * 2 ^ 16 + g.code % 256 * 2 ^ 8 + Config.steppingId)] ++
    ((List.range 4).map fun k => bitWord (fun c => !g.disabled.contains c) (64 * k)) ++ [if g.mxp then 1 else 0] ++
    ((List.range 48).map fun k => bitWord (pairBit g) (64 * k)) ++ List.replicate 10 0

/-- QUERY_DEVICE_MAP (R477). -/
def execQueryDeviceMap (s : State) : Host.Outcome State Fault Refusal :=
  onFunction (fun a s => if a.cmd.w3 ≠ 0 then a.ends ldrBadCommand s else answerQuery a (deviceMap s) s) s

/-- QUERY_CONFIG (R477): a virtual function may ask for its own contexts. -/
def execQueryConfig (s : State) : Host.Outcome State Fault Refusal :=
  onCommand
    (fun a s =>
      match s.context? a.ctx with
      | some c =>
        if a.run.func ≠ 64 ∧ c.func ≠ a.run.func then a.ends ldrNotPermitted s
        else if a.cmd.w3 ≠ 0 then a.ends ldrBadCommand s
        else answerQuery a c.cfg s
      | none => a.ends ldrNotPermitted s) s

/-- The partition block of a function. -/
def partitionBlock (f : Func) (n : Nat) : List W64 :=
  [BitVec.ofNat 64 (f.defGrant % 16 * 2 ^ 8 + n)] ++ ((List.range 4).map fun k => bitWord (fun c => f.cores.contains c) (64 * k)) ++
    [BitVec.ofNat 64 f.s2root, BitVec.ofNat 64 (f.asidN * 2 ^ 16 + f.asid0), 0]

/-- QUERY_PARTITION (R477): of the issuing function, or of any for the physical function (DEDUCED, notes/assumptions/75.md). -/
def execQueryPartition (s : State) : Host.Outcome State Fault Refusal :=
  onFunction
    (fun a s =>
      let n := a.cmd.w3.toNat
      if a.run.func = 64 then
        (if 64 < n then a.ends ldrBadCommand s else answerQuery a (partitionBlock (s.func n) n) s)
      else if n ≠ 0 ∧ n ≠ a.run.func then a.ends ldrNotPermitted s
      else answerQuery a (partitionBlock (s.func a.run.func) a.run.func) s) s

/-- QUERY_EVSEL (R477). -/
def execQueryEvsel (s : State) : Host.Outcome State Fault Refusal :=
  onFunction
    (fun a s => if a.cmd.w3 ≠ 0 then a.ends ldrBadCommand s else answerQuery a ((s.func a.run.func).evsel) s) s

/-! ## PMC-SET (R447, R478) -/

/-- Counters of a function begin again, on the cores that run it and in its save area. -/
def clearPmcs (s : State) (f : Nat) : State :=
  let s1 := s.modFunc f fun g => { g with pmcs := .empty }
  { s1 with cores := s1.cores.mapVals fun _ k => if k.func = f then { k with pmcs := List.replicate 8 0 } else k }

/-- PMC_SET (R478): OWN of a virtual function's selectors is 1. -/
def execPmcSet (s : State) : Host.Outcome State Fault Refusal :=
  onFunction
    (fun a s =>
      let ws := memWords s a.cmd.w1.toNat 8
      let f := a.run.func
      if bitsOf a.cmd.w2 63 1 ≠ 0 ∨ ws.any (fun w => bitsOf w 63 16 != 0 || bitsOf w 13 8 != 0) then a.ends ldrBadCommand s
      else
        let s1 := s.modFunc f fun g => { g with evsel := if f = 64 then ws else ws.map fun w => w ||| 0x4000 }
        a.ends ldrOk (if bitOf a.cmd.w2 0 then clearPmcs s1 f else s1)) s

/-! ## Reset, boot and loss of power -/

/-- The device after a reset that leaves memory's bytes: what the spec sets at device reset is set, and the surroundings, the
grade and the free values go on (notes/assumptions/36.md). -/
def afterReset (bytes : FMap Byte) (poison : List Nat) (s : State) : State :=
  { State.reset with
    inbox := s.inbox, freeCtr := s.freeCtr, nextId := s.nextId
    mem := { Mem.start with bytes := bytes, poison := poison, host := s.mem.host, peer := s.mem.peer }
    ldr := { Loader.start with grade := s.ldr.grade } }

/-- DEVICE_RESET (spec/01_engines_together.md R29, R481). -/
def execDeviceReset (s : State) : Host.Outcome State Fault Refusal := .next (afterReset s.mem.bytes s.mem.poison s)

/-- LOSS_OF_POWER (R481): memory is as it is at power-on. -/
def execLossOfPower (s : State) : Host.Outcome State Fault Refusal := .next (afterReset .empty [] s)

/-- Does a signature of firmware verify under the root key (R487)? -/
def rootSigned (body sig : List Byte) : Bool :=
  Config.ed448Verify Config.rootKey (asciiBytes "Parnex Zenlux firmware") (Config.shake256 body) sig

/-- FIRMWARE_BOOT (R487; spec/02_bundles_and_ports.md R102): firmware that verifies fills the key slots and sets the units of the
device from its repair data. -/
def execFirmwareBoot (s : State) : Host.Outcome State Fault Refusal :=
  match s.subject with
  | .firmware f =>
    if s.ldr.booted ∨ ¬ rootSigned f.image f.sig ∨ ¬ rootSigned f.keys.flatten f.keysSig then .next s
    else
      .next (s.modLdr fun d =>
        { d with
          keys := (List.range 16).map fun k => match f.keys.getD k [] with
            | [] => none
            | key => some key
          fwDigest := Config.shake256 f.image
          grade := { code := f.grade, mxp := f.mxp, disabled := f.cores, pairs := f.pairs }
          booted := true })
  | _ => .next s

end Sys2Proof.Machine
end

