-- ==== Sys2Proof/Machine/Pages.lean ====
section
/-! DEFINITION. Commands on pages: invalidation, page replies, migration, opening versioned pages (spec/13_loader.md R471, R472;
spec/05_memory_ports.md R227, R231, R234, R235; spec/08_snapshot_engine.md R293, R321). -/

namespace Sys2Proof.Machine

/-! ## What the tables map in a range -/

/-- The leaves of a table that name something of a range, with their first addresses; those whose V system software has cleared count where
`closed` says so. -/
def tableLeaves (rd : Nat → Except WalkErr Nat) (stage1 closed : Bool) (lo hi : Nat) : List Nat → Nat → Nat → List (Nat × Leaf)
  | [], _, _ => []
  | level :: rest, base, va0 =>
    (List.range 512).flatMap fun k =>
      let size := 2 ^ (12 + 9 * level)
      let va := va0 + k * size
      if hi ≤ va ∨ va + size ≤ lo then []
      else match rd (base + 8 * k) with
        | .error _ => []
        | .ok e =>
          if field e 0 1 = 0 ∧ ¬ (closed ∧ field e 1 1 = 1) then []
          else if field e 1 1 = 0 then
            if tableMalformed e level then [] else tableLeaves rd stage1 closed lo hi rest (field e 12 40 * 2 ^ 12) va
          else if leafMalformed e level stage1 then []
          else [(va, { level := level, entry := e })]

/-- Does a 4 KiB page overlap a range? -/
def pageIn (va lo n : Nat) : Bool := decide (va / 4096 * 4096 < lo + n) && decide (lo < va / 4096 * 4096 + 4096)

/-- The pages of a leaf in a range, with the address that each has after the leaf's stage. -/
def leafPages (lo n : Nat) (e : Nat × Leaf) : List Nat :=
  ((List.range (2 ^ (leafBits e.2.level - 12))).filter fun k => pageIn (e.1 + 4096 * k) lo n).map fun k =>
    leafAddr e.2 (e.1 + 4096 * k)

/-- The root of a context's tables. -/
def tableRoot (s : State) (ctx : Nat) : Nat := (s.cfgWord ctx 7).toNat / 2 ^ 12 * 2 ^ 12

/-- The frames of local memory that the tables map in a range of a context, or with `closed` name. -/
def tableFrames (closed : Bool) (s : State) (ctx lo n : Nat) : List Nat :=
  let f := s.funcOf ctx
  if f = 64 then
    (tableLeaves (readEntry s.mem) false closed lo (lo + n) walkLevels (tableRoot s ctx) 0).flatMap fun e =>
      if field e.2.entry 6 2 = 0 then (leafPages lo n e).map fun a => a / 4096 else []
  else
    let r2 := (s.func f).s2root
    (tableLeaves (readEntry2 s.mem true r2) true closed lo (lo + n) walkLevels (tableRoot s ctx) 0).flatMap fun e =>
      (leafPages lo n e).filterMap fun a => match stage2 s.mem true r2 a with
        | .ok x => if field x.1.entry 6 2 = 0 then some (x.2 / 4096) else none
        | .error _ => none

/-- Is a cached translation one of a context in a range? -/
def TlbEntry.within (e : TlbEntry) (ctx lo n : Nat) : Bool := e.ctx == ctx && pageIn (4096 * e.page) lo n

/-- The frames of local memory that cached translations and accesses in flight name in a range. -/
def usedFrames (s : State) (ctx lo n : Nat) : List Nat :=
  let places :=
    (((s.cores.vals.flatMap fun k => k.tlb) ++ s.mem.tlb.map Prod.snd).filter fun e => e.within ctx lo n).map fun e => e.place
  let items := s.teams.vals.flatMap fun t =>
    if t.ctx ≠ ctx then []
    else t.warps.flatMap fun x => x.ops.flatMap fun o =>
      (o.items.filter fun i => pageIn (o.access i).1 lo n).filterMap fun i => i.place
  ((places ++ items).filter fun p => p.tgt == 0).map fun p => p.pa / 4096

/-- The frames of a range of a context (DEDUCED, notes/assumptions/70.md). -/
def rangeFrames (s : State) (ctx lo n : Nat) : List Nat := (tableFrames true s ctx lo n ++ usedFrames s ctx lo n).eraseDups

/-- Drops cached translations of a context in a range. -/
def dropTlb (s : State) (ctx lo n : Nat) : State :=
  { s with
    cores := s.cores.mapVals fun _ k => { k with tlb := k.tlb.filter fun e => !e.within ctx lo n }
    mem := { s.mem with tlb := s.mem.tlb.filter fun e => !e.2.within ctx lo n } }

/-! ## INVAL (R227, R234, R235) -/

/-- Is a line of some frame pinned, or one of a page of a range of a context; or does the segment of a deque lie there (R216, R234;
spec/10_team_scheduler.md R383)? -/
def framesPinned (s : State) (ctx lo n : Nat) (frames : List Nat) : Bool :=
  (s.teams.vals.any fun t => t.pins.entries.any fun e =>
    frames.contains (e.1 / 8) || (t.ctx == ctx && e.2.pages.any fun p => pageIn (4096 * p.1) lo n)) ||
    s.eng.deques.vals.any fun d => d.pages.any frames.contains

/-- The versions of lines of frames are discarded. -/
def dropChains (frames : List Nat) (s : State) : State :=
  s.modSnap fun k => { k with chains := k.chains.filter fun line _ => !frames.contains (line / 8) }

/-- Dooms the transactions that write a line of the frames, or of the range in the context (spec/08_snapshot_engine.md R321). -/
def doomCovered (s : State) (ctx lo n : Nat) (frames : List Nat) : State :=
  let hit := fun (c : Nat) (x : Warp) => match x.txn with
    | some t => t.lines.entries.any fun e => frames.contains (e.1 / 8) || (c == ctx && pageIn e.2.va lo n)
    | none => false
  { s with
    teams := s.teams.mapVals fun _ t =>
      { t with warps := t.warps.map fun x => if hit t.ctx x then x.doomTxn snapInvalidated else x } }

/-- Frames that quarantine has no entry for yet enter it, as many as it has room for: those left over, and the state. -/
def enterQuarantine (stamp : Nat) : List Nat → State → List Nat × State
  | [], s => ([], s)
  | f :: r, s =>
    if 16384 ≤ s.mem.quarantine.length then (f :: r, s)
    else enterQuarantine stamp r (s.modMem fun m => { m with quarantine := m.quarantine ++ [{ frame := f, stamp := stamp }] })

/-- The freed frames enter quarantine, over as many turns as it takes; then the command is done. -/
def invalFrames (a : Acting) (lo n stamp count : Nat) (frames : List Nat) (s : State) : State :=
  let r := enterQuarantine stamp frames s
  if r.1.isEmpty then finishCmd r.2 a.j ldrOk count
  else a.goesOn (a.ctx :: lo :: n :: stamp :: count :: r.1) r.2

/-- Is an access to a frame in flight: a lane's, a write, an update or a commit? -/
def frameUsed (s : State) (frame : Nat) : Bool :=
  (s.mem.writes.vals.any fun m => m.tgt == 0 && m.bytes.any fun b => b.1 / 4096 == frame) ||
    (s.mem.updates.vals.any fun u => u.line / 8 == frame) ||
    ((s.eng.snap.waiting.vals ++ s.eng.snap.taken.map fun k => k.commit).any fun c => c.lines.keys.any fun line => line / 8 == frame) ||
    s.teams.vals.any fun t => t.warps.any fun x => x.ops.any fun o => o.items.any fun i => i.place.any fun p => p.tgt == 0 && p.pa / 4096 == frame

/-- The invalidation, once nothing holds it back. The versions of pages that it finds closed, and does not free into quarantine, are discarded
as it completes, when no access to them is in flight (R472) (DEDUCED, notes/assumptions/70.md). -/
def invalidate (a : Acting) (lo n : Nat) (s : State) : State :=
  let frames := rangeFrames s a.ctx lo n
  let free := bitOf a.cmd.w3 0
  let closed := frames.filter fun f => !(tableFrames false s a.ctx lo n).contains f
  if framesPinned s a.ctx lo n frames ∨ 16384 ≤ s.mem.quarantine.length ∨ (¬ free ∧ closed.any (frameUsed s)) then
    a.goesOn [a.ctx, lo, n] s
  else
    let s1 := dropTlb (doomCovered s a.ctx lo n frames) a.ctx lo n
    let stamp := s.mem.epoch + 1
    let freed := if free then frames else []
    let s2 := if free then s1 else dropChains closed s1
    invalFrames a lo n stamp freed.length freed (s2.modMem fun m => { m with epoch := stamp })

/-- INVAL (R471): it waits for pins on its pages and for quarantine. -/
def execInval (s : State) : Host.Outcome State Fault Refusal :=
  onContext
    (fun a s =>
      if bitsOf a.cmd.w3 63 1 ≠ 0 then a.ends ldrBadCommand s
      else match a.run.info with
        | _ :: lo :: n :: stamp :: count :: frames => invalFrames a lo n stamp count frames s
        | _ => invalidate a a.cmd.w1.toNat a.cmd.w2.toNat s) s

/-! ## PAGE-REPLY (spec/05_memory_ports.md R231) -/

/-- PAGE_REPLY (R471): codes SUCCESS 0, INVALID 1, RETRY 2 (DEDUCED, notes/assumptions/73.md). -/
def execPageReply (s : State) : Host.Outcome State Fault Refusal :=
  onFunction
    (fun a s =>
      let f := bitsOf a.cmd.w1 22 16
      let req := bitsOf a.cmd.w1 15 0
      if bitsOf a.cmd.w1 63 23 ≠ 0 ∨ 64 < f ∨ 2 < a.cmd.w2.toNat then a.ends ldrBadCommand s
      else if a.run.func ≠ 64 ∧ a.run.func ≠ f then a.ends ldrNotPermitted s
      else if ¬ (s.func f).reqs.has req then a.ends ldrBadCommand s
      else a.ends ldrOk (endRequest s f req (a.cmd.w2 != 1))) s

/-! ## The leaf of a page, with its place -/

/-- The address and the leaf that a walk ends at; a leaf whose V is 0 counts where `opening` says so. -/
def walkEntry (rd : Nat → Except WalkErr Nat) (stage1 opening : Bool) (va : Nat) : List Nat → Nat → Option (Nat × Leaf)
  | [], _ => none
  | level :: rest, base =>
    let at_ := base + 8 * levelIndex va level
    match rd at_ with
    | .error _ => none
    | .ok e =>
      if field e 1 1 = 1 then
        if (field e 0 1 = 1 ∨ opening) ∧ ¬ leafMalformed e level stage1 then some (at_, { level := level, entry := e }) else none
      else if field e 0 1 = 0 ∨ tableMalformed e level then none
      else walkEntry rd stage1 opening va rest (field e 12 40 * 2 ^ 12)

/-- The leaf of a page in a context's own tables, with its address in device memory. -/
def ownLeaf (s : State) (ctx va : Nat) (opening : Bool) : Option (Nat × Leaf) :=
  let f := s.funcOf ctx
  if 2 ^ 57 ≤ va then none
  else if f = 64 then walkEntry (readEntry s.mem) false opening va walkLevels (tableRoot s ctx)
  else
    let r2 := (s.func f).s2root
    match walkEntry (readEntry2 s.mem true r2) true opening va walkLevels (tableRoot s ctx) with
    | some e => match stage2 s.mem true r2 e.1 with
      | .ok x => some (x.2, e.2)
      | .error _ => none
    | none => none

/-- The address in local memory of an address that a context's tables give, if it lies there. -/
def localAddr (s : State) (ctx a : Nat) : Option Nat :=
  let f := s.funcOf ctx
  if f = 64 then some a
  else match stage2 s.mem true (s.func f).s2root a with
    | .ok x => if field x.1.entry 6 2 = 0 then some x.2 else none
    | .error _ => none

/-! ## PAGE-MOVE (spec/08_snapshot_engine.md R321) -/

/-- A move of `n` frames from `old` to `new`. -/
structure FrameMove where
  old : Nat
  new : Nat
  n : Nat

/-- Does a frame lie in the range that a move leaves, or in the one that it fills? -/
def FrameMove.leaves (k : FrameMove) (f : Nat) : Bool := decide (k.old ≤ f) && decide (f < k.old + k.n)
def FrameMove.fills (k : FrameMove) (f : Nat) : Bool := decide (k.new ≤ f) && decide (f < k.new + k.n)

/-- Is a write, an update or a taken commit on its way to a frame of a move, or is a frame that it fills still in quarantine (R65, R235)? -/
def FrameMove.busy (k : FrameMove) (s : State) : Bool :=
  let hit := fun f => k.leaves f || k.fills f
  (s.mem.writes.vals.any fun m => m.tgt == 0 && m.bytes.any fun b => hit (b.1 / 4096)) ||
    (s.mem.updates.vals.any fun u => hit (u.line / 8)) ||
    (s.eng.snap.taken.any fun k => k.commit.lines.keys.any fun line => hit (line / 8)) ||
    s.mem.quarantine.any fun q => k.fills q.frame

/-- A frame after a move. -/
def FrameMove.frame (k : FrameMove) (f : Nat) : Nat := if k.leaves f then k.new + (f - k.old) else f

/-- A line after a move. -/
def FrameMove.line (k : FrameMove) (line : Nat) : Nat := k.frame (line / 8) * 8 + line % 8

/-- A place after a move. -/
def FrameMove.place (k : FrameMove) (p : Place) : Place :=
  if p.tgt = 0 then { p with pa := k.frame (p.pa / 4096) * 4096 + p.pa % 4096 } else p

/-- Data by line after a move. -/
def FrameMove.keys {β : Type} (k : FrameMove) (m : FMap β) : FMap β :=
  foldOver (fun r e => FMap.insert r (k.line e.1) e.2) FMap.empty m.entries

/-- Accesses in flight, write sets and commits that wait name the new frames. -/
def FrameMove.users (k : FrameMove) (s : State) : State :=
  let warp := fun (x : Warp) =>
    { x with
      ops := x.ops.map fun o => { o with items := o.items.map fun i => { i with place := i.place.map k.place } }
      txn := x.txn.map fun t =>
        { t with lines := ⟨(k.keys t.lines).entries.map fun e => (e.1, { e.2 with pa := e.1 * 512 })⟩ } }
  { s with
    teams := s.teams.mapVals fun _ t => { t with warps := t.warps.map warp }
    cores := s.cores.mapVals fun _ c => { c with l1 := c.l1.filter fun sec x => x.remote || !k.leaves (sec / 128) }
    eng :=
      { s.eng with
        snap :=
          { s.eng.snap with
            chains := k.keys s.eng.snap.chains
            waiting := s.eng.snap.waiting.mapVals fun _ c => { c with lines := k.keys c.lines } } } }

/-- Copies the frames' bytes and poison. -/
def FrameMove.copy (k : FrameMove) (m : Mem) : Mem :=
  let m1 := m.writeList (atAddr (k.new * 4096) (m.read (k.old * 4096) (k.n * 4096)))
  let stays := m.poison.filter fun sec => !k.fills (sec / 128)
  { m1 with poison := stays ++ (stays.filter fun sec => k.leaves (sec / 128)).map fun sec => k.frame (sec / 128) * 128 + sec % 128 }

/-- A leaf entry with another frame. -/
def withFrame (e frame : Nat) : W64 := BitVec.ofNat 64 (e / 2 ^ 52 * 2 ^ 52 + frame * 2 ^ 12 + e % 2 ^ 12)

/-- The 4 KiB frames of the page that a leaf is or belongs to: a 64 KiB group has 16. -/
def pageFrames (l : Leaf) : Nat := if field l.entry 5 1 = 1 then 16 else 2 ^ (leafBits l.level - 12)

/-- The leaf of a page names its new frame, `given` as the context's tables name it: in a 64 KiB group every entry. -/
def moveLeaf (leafAt : Nat) (l : Leaf) (given : Nat) (s : State) : State :=
  let put := fun (s : State) (at_ frame : Nat) => outsideWrite s (atAddr at_ (wordBytes 8 (withFrame (s.mem.word at_).toNat frame)))
  if field l.entry 5 1 = 1 then foldOver (fun s i => put s (leafAt / 128 * 128 + 8 * i) (given + i)) s (List.range 16)
  else put s leafAt given

/-- The move itself: `given` is the new frame as the context's tables name it. The old frames enter quarantine. -/
def movePage (a : Acting) (va leafAt : Nat) (l : Leaf) (given : Nat) (k : FrameMove) (s : State) : State :=
  let s1 := k.users (s.modMem k.copy)
  let s2 := dropTlb (moveLeaf leafAt l given s1) a.ctx va (4096 * k.n)
  let stamp := s.mem.epoch + 1
  invalFrames a va (4096 * k.n) stamp 0 ((List.range k.n).map fun i => k.old + i) (s2.modMem fun m => { m with epoch := stamp })

/-- PAGE_MOVE (R471): it moves a page of local memory, of the size of its leaf or of its 64 KiB group, to frames that the context's tables can
name, once no pin, write or update holds it and the new frames are out of quarantine (DEDUCED, notes/assumptions/71.md). -/
def execPageMove (s : State) : Host.Outcome State Fault Refusal :=
  onContext
    (fun a s =>
      let va := a.cmd.w1.toNat
      let frame := a.cmd.w2.toNat
      match a.run.info with
      | _ :: lo :: n :: stamp :: count :: frames => invalFrames a lo n stamp count frames s
      | _ =>
        match ownLeaf s a.ctx va false with
        | none => a.ends ldrBadCommand s
        | some e =>
          let size := 4096 * pageFrames e.2
          match localAddr s a.ctx (leafAddr e.2 va), localAddr s a.ctx frame with
          | some old, some new =>
            let k : FrameMove := { old := old / 4096, new := new / 4096, n := pageFrames e.2 }
            if va % size ≠ 0 ∨ frame % size ≠ 0 ∨ 2 ^ 52 ≤ frame ∨ field e.2.entry 6 2 ≠ 0 ∨ ¬ inHbm new size ∨ old = new then
              a.ends ldrBadCommand s
            else if framesPinned s a.ctx va size ((List.range k.n).map fun i => k.old + i) ∨ k.busy s ∨ 16384 ≤ s.mem.quarantine.length then
              a.goesOn [a.ctx, va, size] s
            else movePage a va e.1 e.2 (frame / 4096) k s
          | _, _ => a.ends ldrBadCommand s) s

/-! ## VER-OPEN (R472) -/

/-- The leaf entry of a page that may be opened: its address and the frame (DEDUCED, notes/assumptions/72.md). -/
def openable (s : State) (ctx va : Nat) : Option (Nat × Leaf × Nat) :=
  match ownLeaf s ctx va true with
  | none => none
  | some e =>
    let group := (List.range 16).all fun i => match ownLeaf s ctx (va / 2 ^ 16 * 2 ^ 16 + i * 2 ^ 12) true with
      | some x => x.2.level == 0 && groupAgree x.2.entry e.2.entry && field x.2.entry 12 4 == i
      | none => false
    if field e.2.entry 11 1 = 1 ∧ field e.2.entry 6 2 = 0 ∧ field e.2.entry 0 1 = 0 ∧ (field e.2.entry 5 1 = 0 ∨ group) then
      (localAddr s ctx (leafAddr e.2 va)).map fun pa => (e.1, e.2, pa / 4096)
    else none

/-- The leaf entries of the `n` pages from an address, if all may be opened. -/
def openables (s : State) (ctx : Nat) : Nat → Nat → Option (List (Nat × Leaf × Nat))
  | 0, _ => some []
  | n + 1, va =>
    match openable s ctx va with
    | none => none
    | some e => (openables s ctx n (va + 4096)).map fun l => e :: l

/-- Every line of a frame has one version, of commit time 0. -/
def openLines (frame : Nat) (s : State) : State :=
  s.modSnap fun k =>
    { k with chains := foldOver (fun m i => FMap.insert m (frame * 8 + i) { time := 0, older := [] }) k.chains (List.range 8) }

/-- Sets V in a leaf entry, in all 16 of a 64 KiB group. -/
def setValid (s : State) (e : Nat × Leaf × Nat) : State :=
  let put := fun (s : State) (at_ : Nat) => outsideWrite s (atAddr at_ (wordBytes 8 (s.mem.word at_ ||| 1)))
  if field e.2.1.entry 5 1 = 1 then foldOver (fun s i => put s (e.1 / 128 * 128 + 8 * i)) s (List.range 16) else put s e.1

/-- VER_OPEN (R472). -/
def execVerOpen (s : State) : Host.Outcome State Fault Refusal :=
  onContext
    (fun a s =>
      let va := a.cmd.w1.toNat
      let n := a.cmd.w2.toNat
      if va % 4096 ≠ 0 ∨ n % 4096 ≠ 0 ∨ bitsOf (s.ldr.device.getD 2 0) 31 0 = 0 then a.ends ldrBadCommand s
      else match openables s a.ctx (n / 4096) va with
        | none => a.ends ldrBadCommand s
        | some l =>
          let s1 := foldOver (fun s (e : Nat × Leaf × Nat) => openLines e.2.2 s) s l
          finishCmd (foldOver setValid s1 l) a.j ldrOk l.length) s

end Sys2Proof.Machine
end

