-- ==== Sys2Proof/Machine/Dispatch.lean ====
section
/-! DEFINITION. The meaning of each instruction: one arm per constructor. -/

namespace Sys2Proof.Machine

/-- What an instruction does in a state. -/
def exec (i : Instr) (s : State) : Host.Outcome State Fault Refusal :=
  match i with
  | .bundleIssue b => Sys2Proof.Machine.execBundleIssue b s
  | .seqFlagsWrite t => Sys2Proof.Machine.execSeqFlagsWrite t s
  | .streamPortRead k g ng dst => Sys2Proof.Machine.execStreamPortRead k g ng dst s
  | .intAdd u t => Sys2Proof.Machine.execIntAdd u t s
  | .intSub u t => Sys2Proof.Machine.execIntSub u t s
  | .intAdd64 u t => Sys2Proof.Machine.execIntAdd64 u t s
  | .intSub64 u t => Sys2Proof.Machine.execIntSub64 u t s
  | .intAnd u t => Sys2Proof.Machine.execIntAnd u t s
  | .intOr u t => Sys2Proof.Machine.execIntOr u t s
  | .intXor u t => Sys2Proof.Machine.execIntXor u t s
  | .intAndn u t => Sys2Proof.Machine.execIntAndn u t s
  | .intShl u t => Sys2Proof.Machine.execIntShl u t s
  | .intShr u t => Sys2Proof.Machine.execIntShr u t s
  | .intSar u t => Sys2Proof.Machine.execIntSar u t s
  | .intShl64 u t => Sys2Proof.Machine.execIntShl64 u t s
  | .intShr64 u t => Sys2Proof.Machine.execIntShr64 u t s
  | .intSar64 u t => Sys2Proof.Machine.execIntSar64 u t s
  | .intMinS32 u t => Sys2Proof.Machine.execIntMinS32 u t s
  | .intMaxS32 u t => Sys2Proof.Machine.execIntMaxS32 u t s
  | .intMinU32 u t => Sys2Proof.Machine.execIntMinU32 u t s
  | .intMaxU32 u t => Sys2Proof.Machine.execIntMaxU32 u t s
  | .intMinS64 u t => Sys2Proof.Machine.execIntMinS64 u t s
  | .intMaxS64 u t => Sys2Proof.Machine.execIntMaxS64 u t s
  | .intSel u t => Sys2Proof.Machine.execIntSel u t s
  | .intAbs u t => Sys2Proof.Machine.execIntAbs u t s
  | .intClz u t => Sys2Proof.Machine.execIntClz u t s
  | .intPopc u t => Sys2Proof.Machine.execIntPopc u t s
  | .intBrev u t => Sys2Proof.Machine.execIntBrev u t s
  | .intBfx u t => Sys2Proof.Machine.execIntBfx u t s
  | .intBfi u t => Sys2Proof.Machine.execIntBfi u t s
  | .intAddsatS32 u t => Sys2Proof.Machine.execIntAddsatS32 u t s
  | .intSubsatS32 u t => Sys2Proof.Machine.execIntSubsatS32 u t s
  | .intLea u t => Sys2Proof.Machine.execIntLea u t s
  | .intPass u t => Sys2Proof.Machine.execIntPass u t s
  | .mulLo t => Sys2Proof.Machine.execMulLo t s
  | .mulhiS32 t => Sys2Proof.Machine.execMulhiS32 t s
  | .mulhiU32 t => Sys2Proof.Machine.execMulhiU32 t s
  | .madLo t => Sys2Proof.Machine.execMadLo t s
  | .mulwS32 t => Sys2Proof.Machine.execMulwS32 t s
  | .mulwU32 t => Sys2Proof.Machine.execMulwU32 t s
  | .mul64Lo t => Sys2Proof.Machine.execMul64Lo t s
  | .dot4S8 t => Sys2Proof.Machine.execDot4S8 t s
  | .dot2S16 t => Sys2Proof.Machine.execDot2S16 t s
  | .divU32 t => Sys2Proof.Machine.execDivU32 t s
  | .divS32 t => Sys2Proof.Machine.execDivS32 t s
  | .remU32 t => Sys2Proof.Machine.execRemU32 t s
  | .remS32 t => Sys2Proof.Machine.execRemS32 t s
  | .fmaF32 u t => Sys2Proof.Machine.execFmaF32 u t s
  | .addF32 u t => Sys2Proof.Machine.execAddF32 u t s
  | .mulF32 u t => Sys2Proof.Machine.execMulF32 u t s
  | .subF32 u t => Sys2Proof.Machine.execSubF32 u t s
  | .minF32 u t => Sys2Proof.Machine.execMinF32 u t s
  | .maxF32 u t => Sys2Proof.Machine.execMaxF32 u t s
  | .fmaF16x2 u t => Sys2Proof.Machine.execFmaF16x2 u t s
  | .addF16x2 u t => Sys2Proof.Machine.execAddF16x2 u t s
  | .mulF16x2 u t => Sys2Proof.Machine.execMulF16x2 u t s
  | .fmaBf16x2 u t => Sys2Proof.Machine.execFmaBf16x2 u t s
  | .fmaF64 u t => Sys2Proof.Machine.execFmaF64 u t s
  | .addF64 u t => Sys2Proof.Machine.execAddF64 u t s
  | .mulF64 u t => Sys2Proof.Machine.execMulF64 u t s
  | .dot2F16F32 u t => Sys2Proof.Machine.execDot2F16F32 u t s
  | .fmaSatF32 u t => Sys2Proof.Machine.execFmaSatF32 u t s
  | .minF64 u t => Sys2Proof.Machine.execMinF64 u t s
  | .maxF64 u t => Sys2Proof.Machine.execMaxF64 u t s
  | .cmpEq t => Sys2Proof.Machine.execCmpEq t s
  | .cmpNe t => Sys2Proof.Machine.execCmpNe t s
  | .cmpLtS32 t => Sys2Proof.Machine.execCmpLtS32 t s
  | .cmpLeS32 t => Sys2Proof.Machine.execCmpLeS32 t s
  | .cmpLtU32 t => Sys2Proof.Machine.execCmpLtU32 t s
  | .cmpLeU32 t => Sys2Proof.Machine.execCmpLeU32 t s
  | .cmpEq64 t => Sys2Proof.Machine.execCmpEq64 t s
  | .cmpLtS64 t => Sys2Proof.Machine.execCmpLtS64 t s
  | .cmpLtU64 t => Sys2Proof.Machine.execCmpLtU64 t s
  | .cmpFeqF32 t => Sys2Proof.Machine.execCmpFeqF32 t s
  | .cmpFltF32 t => Sys2Proof.Machine.execCmpFltF32 t s
  | .cmpFleF32 t => Sys2Proof.Machine.execCmpFleF32 t s
  | .cmpFunF32 t => Sys2Proof.Machine.execCmpFunF32 t s
  | .cmpFltF64 t => Sys2Proof.Machine.execCmpFltF64 t s
  | .cmpFeqF64 t => Sys2Proof.Machine.execCmpFeqF64 t s
  | .cmpClassF32 t => Sys2Proof.Machine.execCmpClassF32 t s
  | .cmpTstz t => Sys2Proof.Machine.execCmpTstz t s
  | .cmpAny t => Sys2Proof.Machine.execCmpAny t s
  | .cmpAll t => Sys2Proof.Machine.execCmpAll t s
  | .cmpBallot t => Sys2Proof.Machine.execCmpBallot t s
  | .sfnRcp t => Sys2Proof.Machine.execSfnRcp t s
  | .sfnRsqrt t => Sys2Proof.Machine.execSfnRsqrt t s
  | .sfnSqrt t => Sys2Proof.Machine.execSfnSqrt t s
  | .sfnExp2 t => Sys2Proof.Machine.execSfnExp2 t s
  | .sfnLog2 t => Sys2Proof.Machine.execSfnLog2 t s
  | .sfnSin t => Sys2Proof.Machine.execSfnSin t s
  | .sfnCos t => Sys2Proof.Machine.execSfnCos t s
  | .sfnTanh t => Sys2Proof.Machine.execSfnTanh t s
  | .sfnDivF32 t => Sys2Proof.Machine.execSfnDivF32 t s
  | .sfnRcpF64 t => Sys2Proof.Machine.execSfnRcpF64 t s
  | .sfnSqrtF64 t => Sys2Proof.Machine.execSfnSqrtF64 t s
  | .cvtF32S32 t => Sys2Proof.Machine.execCvtF32S32 t s
  | .cvtF32U32 t => Sys2Proof.Machine.execCvtF32U32 t s
  | .cvtS32F32 t => Sys2Proof.Machine.execCvtS32F32 t s
  | .cvtU32F32 t => Sys2Proof.Machine.execCvtU32F32 t s
  | .cvtF16F32 t => Sys2Proof.Machine.execCvtF16F32 t s
  | .cvtF32F16 t => Sys2Proof.Machine.execCvtF32F16 t s
  | .cvtBf16F32 t => Sys2Proof.Machine.execCvtBf16F32 t s
  | .cvtF32Bf16 t => Sys2Proof.Machine.execCvtF32Bf16 t s
  | .cvtF64F32 t => Sys2Proof.Machine.execCvtF64F32 t s
  | .cvtF32F64 t => Sys2Proof.Machine.execCvtF32F64 t s
  | .cvtF64S64 t => Sys2Proof.Machine.execCvtF64S64 t s
  | .cvtS64F64 t => Sys2Proof.Machine.execCvtS64F64 t s
  | .cvtZbpack8 t => Sys2Proof.Machine.execCvtZbpack8 t s
  | .cvtZbunpack8 t => Sys2Proof.Machine.execCvtZbunpack8 t s
  | .cvtZbpack4 t => Sys2Proof.Machine.execCvtZbpack4 t s
  | .cvtZbunpack4 t => Sys2Proof.Machine.execCvtZbunpack4 t s
  | .cvtRoundF32 t => Sys2Proof.Machine.execCvtRoundF32 t s
  | .cvtXlaneIdx t => Sys2Proof.Machine.execCvtXlaneIdx t s
  | .cvtXlaneXor t => Sys2Proof.Machine.execCvtXlaneXor t s
  | .cvtBcast t => Sys2Proof.Machine.execCvtBcast t s
  | .cvtScanAdd t => Sys2Proof.Machine.execCvtScanAdd t s
  | .cvtRedAddF32 t => Sys2Proof.Machine.execCvtRedAddF32 t s
  | .memLdU8 u t => Sys2Proof.Machine.execMemLdU8 u t s
  | .memLdS8 u t => Sys2Proof.Machine.execMemLdS8 u t s
  | .memLdU16 u t => Sys2Proof.Machine.execMemLdU16 u t s
  | .memLdS16 u t => Sys2Proof.Machine.execMemLdS16 u t s
  | .memLd32 u t => Sys2Proof.Machine.execMemLd32 u t s
  | .memLd64 u t => Sys2Proof.Machine.execMemLd64 u t s
  | .memSt8 u t => Sys2Proof.Machine.execMemSt8 u t s
  | .memSt16 u t => Sys2Proof.Machine.execMemSt16 u t s
  | .memSt32 u t => Sys2Proof.Machine.execMemSt32 u t s
  | .memSt64 u t => Sys2Proof.Machine.execMemSt64 u t s
  | .memLdTs u t => Sys2Proof.Machine.execMemLdTs u t s
  | .memStTs u t => Sys2Proof.Machine.execMemStTs u t s
  | .memAtomAdd u t => Sys2Proof.Machine.execMemAtomAdd u t s
  | .memAtomAdd64 u t => Sys2Proof.Machine.execMemAtomAdd64 u t s
  | .memAtomMinS32 u t => Sys2Proof.Machine.execMemAtomMinS32 u t s
  | .memAtomMaxS32 u t => Sys2Proof.Machine.execMemAtomMaxS32 u t s
  | .memAtomMinU64 u t => Sys2Proof.Machine.execMemAtomMinU64 u t s
  | .memAtomAnd u t => Sys2Proof.Machine.execMemAtomAnd u t s
  | .memAtomOr u t => Sys2Proof.Machine.execMemAtomOr u t s
  | .memAtomXor u t => Sys2Proof.Machine.execMemAtomXor u t s
  | .memAtomExch u t => Sys2Proof.Machine.execMemAtomExch u t s
  | .memAtomExch64 u t => Sys2Proof.Machine.execMemAtomExch64 u t s
  | .memAtomCas u t => Sys2Proof.Machine.execMemAtomCas u t s
  | .memAtomCas64 u t => Sys2Proof.Machine.execMemAtomCas64 u t s
  | .memAtomAddF32 u t => Sys2Proof.Machine.execMemAtomAddF32 u t s
  | .memFence u t => Sys2Proof.Machine.execMemFence u t s
  | .memWaitcmp u t => Sys2Proof.Machine.execMemWaitcmp u t s
  | .memPrefetch u t => Sys2Proof.Machine.execMemPrefetch u t s
  | .memPin u t => Sys2Proof.Machine.execMemPin u t s
  | .memUnpin u t => Sys2Proof.Machine.execMemUnpin u t s
  | .memLdAcq u t => Sys2Proof.Machine.execMemLdAcq u t s
  | .memStRel u t => Sys2Proof.Machine.execMemStRel u t s
  | .memLdAcq64 u t => Sys2Proof.Machine.execMemLdAcq64 u t s
  | .memStRel64 u t => Sys2Proof.Machine.execMemStRel64 u t s
  | .memFlush u t => Sys2Proof.Machine.execMemFlush u t s
  | .memLdNc u t => Sys2Proof.Machine.execMemLdNc u t s
  | .cpCopy t => Sys2Proof.Machine.execCpCopy t s
  | .cpCopy2d t => Sys2Proof.Machine.execCpCopy2d t s
  | .cpGather t => Sys2Proof.Machine.execCpGather t s
  | .cpScatter t => Sys2Proof.Machine.execCpScatter t s
  | .cpFill t => Sys2Proof.Machine.execCpFill t s
  | .cpQuantZb8 t => Sys2Proof.Machine.execCpQuantZb8 t s
  | .cpZrlPack t => Sys2Proof.Machine.execCpZrlPack t s
  | .cpZrlUnpack t => Sys2Proof.Machine.execCpZrlUnpack t s
  | .cpStreamOpen t => Sys2Proof.Machine.execCpStreamOpen t s
  | .cpStreamClose t => Sys2Proof.Machine.execCpStreamClose t s
  | .cpBarInit t => Sys2Proof.Machine.execCpBarInit t s
  | .cpBarExpect t => Sys2Proof.Machine.execCpBarExpect t s
  | .cpBarWait t => Sys2Proof.Machine.execCpBarWait t s
  | .cpChanSend t => Sys2Proof.Machine.execCpChanSend t s
  | .cpChanRecv t => Sys2Proof.Machine.execCpChanRecv t s
  | .cpCancel t => Sys2Proof.Machine.execCpCancel t s
  | .cpPoll t => Sys2Proof.Machine.execCpPoll t s
  | .mxLdw t => Sys2Proof.Machine.execMxLdw t s
  | .mxSwap t => Sys2Proof.Machine.execMxSwap t s
  | .mxMma t => Sys2Proof.Machine.execMxMma t s
  | .mxMmaSwap t => Sys2Proof.Machine.execMxMmaSwap t s
  | .mxZero t => Sys2Proof.Machine.execMxZero t s
  | .mxDrain t => Sys2Proof.Machine.execMxDrain t s
  | .mxDrainAdd t => Sys2Proof.Machine.execMxDrainAdd t s
  | .mxDrainMax t => Sys2Proof.Machine.execMxDrainMax t s
  | .mxLdacc t => Sys2Proof.Machine.execMxLdacc t s
  | .mxScaleSet t => Sys2Proof.Machine.execMxScaleSet t s
  | .mxWait t => Sys2Proof.Machine.execMxWait t s
  | .mxRdacc t => Sys2Proof.Machine.execMxRdacc t s
  | .mxWracc t => Sys2Proof.Machine.execMxWracc t s
  | .mxMmaT t => Sys2Proof.Machine.execMxMmaT t s
  | .snapBegin t => Sys2Proof.Machine.execSnapBegin t s
  | .snapBeginRo t => Sys2Proof.Machine.execSnapBeginRo t s
  | .snapCommit t => Sys2Proof.Machine.execSnapCommit t s
  | .snapAbort t => Sys2Proof.Machine.execSnapAbort t s
  | .snapNow t => Sys2Proof.Machine.execSnapNow t s
  | .snapHold t => Sys2Proof.Machine.execSnapHold t s
  | .snapRelease t => Sys2Proof.Machine.execSnapRelease t s
  | .snapStatus t => Sys2Proof.Machine.execSnapStatus t s
  | .snapLdAt t => Sys2Proof.Machine.execSnapLdAt t s
  | .tellCommit t => Sys2Proof.Machine.execTellCommit t s
  | .tellCommitDraft t => Sys2Proof.Machine.execTellCommitDraft t s
  | .tellConfirm t => Sys2Proof.Machine.execTellConfirm t s
  | .tellNext t => Sys2Proof.Machine.execTellNext t s
  | .tellArm t => Sys2Proof.Machine.execTellArm t s
  | .tellDisarm t => Sys2Proof.Machine.execTellDisarm t s
  | .tellFork t => Sys2Proof.Machine.execTellFork t s
  | .tellReset t => Sys2Proof.Machine.execTellReset t s
  | .tellNotify t => Sys2Proof.Machine.execTellNotify t s
  | .tellCount t => Sys2Proof.Machine.execTellCount t s
  | .tqPush t => Sys2Proof.Machine.execTqPush t s
  | .tqPop t => Sys2Proof.Machine.execTqPop t s
  | .tqSteal t => Sys2Proof.Machine.execTqSteal t s
  | .tqStealAny t => Sys2Proof.Machine.execTqStealAny t s
  | .tqSize t => Sys2Proof.Machine.execTqSize t s
  | .tqInit t => Sys2Proof.Machine.execTqInit t s
  | .aceMin t => Sys2Proof.Machine.execAceMin t s
  | .aceMax t => Sys2Proof.Machine.execAceMax t s
  | .aceRd t => Sys2Proof.Machine.execAceRd t s
  | .aceSet t => Sys2Proof.Machine.execAceSet t s
  | .aceWaitlt t => Sys2Proof.Machine.execAceWaitlt t s
  | .seqBr t => Sys2Proof.Machine.execSeqBr t s
  | .seqBrr t => Sys2Proof.Machine.execSeqBrr t s
  | .seqCall t => Sys2Proof.Machine.execSeqCall t s
  | .seqCallr t => Sys2Proof.Machine.execSeqCallr t s
  | .seqRet t => Sys2Proof.Machine.execSeqRet t s
  | .seqLoop t => Sys2Proof.Machine.execSeqLoop t s
  | .seqBrk t => Sys2Proof.Machine.execSeqBrk t s
  | .seqCont t => Sys2Proof.Machine.execSeqCont t s
  | .seqEnd t => Sys2Proof.Machine.execSeqEnd t s
  | .seqYield t => Sys2Proof.Machine.execSeqYield t s
  | .seqBar t => Sys2Proof.Machine.execSeqBar t s
  | .seqBarArrive t => Sys2Proof.Machine.execSeqBarArrive t s
  | .seqSetfmt t => Sys2Proof.Machine.execSeqSetfmt t s
  | .seqTrap t => Sys2Proof.Machine.execSeqTrap t s
  | .seqRspush t => Sys2Proof.Machine.execSeqRspush t s
  | .seqRspop t => Sys2Proof.Machine.execSeqRspop t s
  | .supCsrRd t => Sys2Proof.Machine.execSupCsrRd t s
  | .supCsrWr t => Sys2Proof.Machine.execSupCsrWr t s
  | .supTret t => Sys2Proof.Machine.execSupTret t s
  | .supMark t => Sys2Proof.Machine.execSupMark t s
  | .supCntRd t => Sys2Proof.Machine.execSupCntRd t s
  | .supHalt t => Sys2Proof.Machine.execSupHalt t s
  | .supFaultRd t => Sys2Proof.Machine.execSupFaultRd t s
  | .supIcinval t => Sys2Proof.Machine.execSupIcinval t s
  | .supSync t => Sys2Proof.Machine.execSupSync t s
  | .barrierPhaseComplete => Sys2Proof.Machine.execBarrierPhaseComplete s
  | .delayExpiry => Sys2Proof.Machine.execDelayExpiry s
  | .yieldExpiry => Sys2Proof.Machine.execYieldExpiry s
  | .progressBoost => Sys2Proof.Machine.execProgressBoost s
  | .laneResultFill => Sys2Proof.Machine.execLaneResultFill s
  | .divisionComplete => Sys2Proof.Machine.execDivisionComplete s
  | .sfnComplete => Sys2Proof.Machine.execSfnComplete s
  | .teamRetire => Sys2Proof.Machine.execTeamRetire s
  | .storeQueueLeave => Sys2Proof.Machine.execStoreQueueLeave s
  | .writeAcknowledge => Sys2Proof.Machine.execWriteAcknowledge s
  | .updateApply => Sys2Proof.Machine.execUpdateApply s
  | .loadFill => Sys2Proof.Machine.execLoadFill s
  | .atomicPerform => Sys2Proof.Machine.execAtomicPerform s
  | .fenceComplete => Sys2Proof.Machine.execFenceComplete s
  | .monitorRetest => Sys2Proof.Machine.execMonitorRetest s
  | .monitorPoll => Sys2Proof.Machine.execMonitorPoll s
  | .monitorSwapOut => Sys2Proof.Machine.execMonitorSwapOut s
  | .tstoreArbiterPass => Sys2Proof.Machine.execTstoreArbiterPass s
  | .l1Eviction => Sys2Proof.Machine.execL1Eviction s
  | .l2Eviction => Sys2Proof.Machine.execL2Eviction s
  | .tableWalk => Sys2Proof.Machine.execTableWalk s
  | .translationFault => Sys2Proof.Machine.execTranslationFault s
  | .faultQueueRetry => Sys2Proof.Machine.execFaultQueueRetry s
  | .pageRequestTimeout => Sys2Proof.Machine.execPageRequestTimeout s
  | .quarantineRelease => Sys2Proof.Machine.execQuarantineRelease s
  | .eccError => Sys2Proof.Machine.execEccError s
  | .jobBegin => Sys2Proof.Machine.execJobBegin s
  | .copyCursorAdvance => Sys2Proof.Machine.execCopyCursorAdvance s
  | .copyJobComplete => Sys2Proof.Machine.execCopyJobComplete s
  | .barDecrement => Sys2Proof.Machine.execBarDecrement s
  | .streamRowWrite => Sys2Proof.Machine.execStreamRowWrite s
  | .chanMessageDelivery => Sys2Proof.Machine.execChanMessageDelivery s
  | .chanPoolRetry => Sys2Proof.Machine.execChanPoolRetry s
  | .mxRowApply => Sys2Proof.Machine.execMxRowApply s
  | .mxJobComplete => Sys2Proof.Machine.execMxJobComplete s
  | .drainUpdatePerform => Sys2Proof.Machine.execDrainUpdatePerform s
  | .arrayWaitExpiry => Sys2Proof.Machine.execArrayWaitExpiry s
  | .fmaPairIdle => Sys2Proof.Machine.execFmaPairIdle s
  | .commitTurn => Sys2Proof.Machine.execCommitTurn s
  | .commitPublish => Sys2Proof.Machine.execCommitPublish s
  | .autoCommit => Sys2Proof.Machine.execAutoCommit s
  | .heapWaitExpiry => Sys2Proof.Machine.execHeapWaitExpiry s
  | .lichenReclaim => Sys2Proof.Machine.execLichenReclaim s
  | .homeOperationPerform => Sys2Proof.Machine.execHomeOperationPerform s
  | .teamPlacement => Sys2Proof.Machine.execTeamPlacement s
  | .aceBroadcastApply => Sys2Proof.Machine.execAceBroadcastApply s
  | .flitArrival => Sys2Proof.Machine.execFlitArrival s
  | .flitInjection => Sys2Proof.Machine.execFlitInjection s
  | .overflowMove => Sys2Proof.Machine.execOverflowMove s
  | .creditReturn => Sys2Proof.Machine.execCreditReturn s
  | .ageTick => Sys2Proof.Machine.execAgeTick s
  | .throttleUpdate => Sys2Proof.Machine.execThrottleUpdate s
  | .goldenEpoch => Sys2Proof.Machine.execGoldenEpoch s
  | .reassemblyTimeout => Sys2Proof.Machine.execReassemblyTimeout s
  | .linkFrameReceive => Sys2Proof.Machine.execLinkFrameReceive s
  | .systemTimeStep => Sys2Proof.Machine.execSystemTimeStep s
  | .systemTimeSlew => Sys2Proof.Machine.execSystemTimeSlew s
  | .peerAccess => Sys2Proof.Machine.execPeerAccess s
  | .hostWrite => Sys2Proof.Machine.execHostWrite s
  | .hostRead => Sys2Proof.Machine.execHostRead s
  | .hostAtomic => Sys2Proof.Machine.execHostAtomic s
  | .doorbellWrite => Sys2Proof.Machine.execDoorbellWrite s
  | .commandComplete => Sys2Proof.Machine.execCommandComplete s
  | .launchProgressUpdate => Sys2Proof.Machine.execLaunchProgressUpdate s
  | .exportTimeout => Sys2Proof.Machine.execExportTimeout s
  | .permitBackoffExpiry => Sys2Proof.Machine.execPermitBackoffExpiry s
  | .serviceTimeout => Sys2Proof.Machine.execServiceTimeout s
  | .teamWatchdog => Sys2Proof.Machine.execTeamWatchdog s
  | .waitGraphScan => Sys2Proof.Machine.execWaitGraphScan s
  | .preemptionRequest => Sys2Proof.Machine.execPreemptionRequest s
  | .haltEdge => Sys2Proof.Machine.execHaltEdge s
  | .deviceReset => Sys2Proof.Machine.execDeviceReset s
  | .firmwareBoot => Sys2Proof.Machine.execFirmwareBoot s
  | .loadImage => Sys2Proof.Machine.execLoadImage s
  | .unloadImage => Sys2Proof.Machine.execUnloadImage s
  | .launch => Sys2Proof.Machine.execLaunch s
  | .kill => Sys2Proof.Machine.execKill s
  | .ctxCreate => Sys2Proof.Machine.execCtxCreate s
  | .ctxDestroy => Sys2Proof.Machine.execCtxDestroy s
  | .ctxConfig => Sys2Proof.Machine.execCtxConfig s
  | .inval => Sys2Proof.Machine.execInval s
  | .pageReply => Sys2Proof.Machine.execPageReply s
  | .pageMove => Sys2Proof.Machine.execPageMove s
  | .grant => Sys2Proof.Machine.execGrant s
  | .grantRevoke => Sys2Proof.Machine.execGrantRevoke s
  | .switchPreempt => Sys2Proof.Machine.execSwitchPreempt s
  | .switchResume => Sys2Proof.Machine.execSwitchResume s
  | .debugTake => Sys2Proof.Machine.execDebugTake s
  | .debugGive => Sys2Proof.Machine.execDebugGive s
  | .debugRevoke => Sys2Proof.Machine.execDebugRevoke s
  | .debugHalt => Sys2Proof.Machine.execDebugHalt s
  | .debugResume => Sys2Proof.Machine.execDebugResume s
  | .debugRead => Sys2Proof.Machine.execDebugRead s
  | .debugWrite => Sys2Proof.Machine.execDebugWrite s
  | .debugLog => Sys2Proof.Machine.execDebugLog s
  | .attest => Sys2Proof.Machine.execAttest s
  | .attestCertificate => Sys2Proof.Machine.execAttestCertificate s
  | .reinstall => Sys2Proof.Machine.execReinstall s
  | .ctxExport => Sys2Proof.Machine.execCtxExport s
  | .ctxImport => Sys2Proof.Machine.execCtxImport s
  | .devConfigDevice => Sys2Proof.Machine.execDevConfigDevice s
  | .devConfigPartition => Sys2Proof.Machine.execDevConfigPartition s
  | .devConfigHostWindow => Sys2Proof.Machine.execDevConfigHostWindow s
  | .devConfigPeerWindow => Sys2Proof.Machine.execDevConfigPeerWindow s
  | .verOpen => Sys2Proof.Machine.execVerOpen s
  | .queryDeviceMap => Sys2Proof.Machine.execQueryDeviceMap s
  | .queryConfig => Sys2Proof.Machine.execQueryConfig s
  | .queryPartition => Sys2Proof.Machine.execQueryPartition s
  | .queryEvsel => Sys2Proof.Machine.execQueryEvsel s
  | .pmcSet => Sys2Proof.Machine.execPmcSet s
  | .handlerEntryDelayExpiry => Sys2Proof.Machine.execHandlerEntryDelayExpiry s
  | .saveEnd => Sys2Proof.Machine.execSaveEnd s
  | .lossOfPower => Sys2Proof.Machine.execLossOfPower s

end Sys2Proof.Machine
end

