-- ==== Sys2Proof/Machine/Plan.lean ====
section
/-! DEFINITION. What a clk holds: the counts that advance with it, and its turns. Steps that a rule times are turns of their clk;
steps that no rule times happen by free choice, in a free order (notes/assumptions/5.md). -/

namespace Sys2Proof.Machine

/-! ## Choosing among turns -/

/-- The turns that happen in this clk, by free choice. -/
def someTurns : List Turn → State → List Turn × State
  | [], s => ([], s)
  | x :: r, s =>
    let b := freeBool s
    let t := someTurns r b.2
    (if b.1 then x :: t.1 else t.1, t.2)

/-- The turns at no stated time of this clk: some by free choice, and in a clk that comes again and again all of them, so that none waits for
ever (spec/01_engines_together.md R42; notes/assumptions/5.md). -/
def fairTurns (l : List Turn) (s : State) : List Turn × State :=
  if s.clk < s.fairAt then someTurns l s
  else
    let r := freeBelow s (2 ^ 64)
    (l, { r.2 with fairAt := s.clk + 1 + r.1 })

/-- The turns in a free order. -/
def anyOrder : List Turn → State → List Turn × State
  | [], s => ([], s)
  | x :: r, s =>
    let t := anyOrder r s
    let k := freeBelow t.2 (t.1.length + 1)
    (t.1.take k.1 ++ x :: t.1.drop k.1, k.2)

/-- A turn if a condition holds. -/
def turnIf (p : Bool) (i : Instr) (sub : Subject) : List Turn := if p then [.event i sub] else []

/-! ## Turns of warps -/

/-- Is a clk a hold that has run out: from it on the warp is held no more? -/
def ranOut (clk to_ : Nat) : Bool := to_ != 0 && decide (to_ ≤ clk)

/-- The holds of a warp that end, and its fills that are due. -/
def dueOfWarp (s : State) (w : WRef) (x : Warp) : List Turn :=
  turnIf (ranOut s.clk x.delayTo) .delayExpiry (.warp w) ++ turnIf (ranOut s.clk x.yieldTo) .yieldExpiry (.warp w) ++
    turnIf (ranOut s.clk x.backoffTo) .permitBackoffExpiry (.warp w) ++
    turnIf (ranOut s.clk x.entryTo) .handlerEntryDelayExpiry (.warp w) ++
    (x.dueFills s.clk).map fun f =>
      let i : Instr := if f.unit = unitSfn then .sfnComplete else if fixedLatency f.unit f.opc then .laneResultFill else .divisionComplete
      .event i (.op w f.id 0)

/-- The handler of a warp has used up its service time (DEDUCED, notes/assumptions/60.md). -/
def lateHandler (s : State) (t : Team) (w : WRef) (x : Warp) : List Turn :=
  match x.handlers with
  | h :: _ => turnIf (decide (rungTime s t.ctx h.rung ≤ h.served)) .serviceTimeout (.timeout (.handler w))
  | [] => []

/-- Has an operation's fill a known clk: `sup` but for its waiting operations, `cp.poll`, `scale.set`? -/
def knownFill (o : Op) : Bool :=
  (o.unit == unitSup && o.opc != 7 && o.opc != 8) || (o.unit == unitCp && o.opc == 16) || (o.unit == unitMx && o.opc == 9)

/-- The clk at which a known fill is due. -/
def knownClk (o : Op) : Nat := if o.unit = unitCp then o.clk + 4 else o.clk + 1

/-- The step that ends an operation of an engine. -/
def endsBy (o : Op) : Instr := if o.unit = unitMx then .mxJobComplete else .homeOperationPerform

/-- The turns of an operation that are due. -/
def dueOfOp (s : State) (w : WRef) (o : Op) : List Turn :=
  turnIf (knownFill o && decide (knownClk o ≤ s.clk)) (endsBy o) (.op w o.id ((o.items.head?.map fun i => i.lane).getD 0)) ++
    (match o.info with
     | [2, k] => turnIf (waitOver s k) .heapWaitExpiry (.op w o.id 0)
     | _ => []) ++
    o.items.flatMap fun i => match i.stage with
      | .failed _ _ _ _ => [.event .translationFault (.trans (.op w o.id i.lane))]
      | .retry c => turnIf (decide (c ≤ s.clk)) .faultQueueRetry (.trans (.op w o.id i.lane))
      | .walk => turnIf (isMem o.unit && o.opc == 27 && decide (o.clk < s.clk)) .tableWalk (.trans (.op w o.id i.lane))
      | _ => []

/-- The step that a lane of an operation, translated, may make at no stated time. -/
def laneStep (o : Op) (i : Item) : List Instr :=
  if isMem o.unit then
    if isStore o.opc then (if isTs o.opc i.m then [.tstoreArbiterPass] else [])
    else if isAtomic o.opc then [.atomicPerform]
    else if o.opc = 25 then [.fenceComplete]
    else if o.opc = 26 then (if i.extra.isEmpty then [.monitorRetest] else [.monitorPoll])
    else [.loadFill]
  else if o.unit = unitSnap then (if o.opc = 2 then [.commitTurn] else if o.opc = 8 then [.loadFill] else [.homeOperationPerform])
  else if knownFill o then []
  else [endsBy o]

/-- The turns of an operation at no stated time. -/
def mayOfOp (w : WRef) (o : Op) : List Turn :=
  o.items.flatMap fun i => match i.stage with
    | .walk => [.event .tableWalk (.trans (.op w o.id i.lane))]
    | .go => (laneStep o i).map fun n => .event n (.op w o.id i.lane)
    | _ => []

/-- The turns of a saved team: its waits go on (spec/05_memory_ports.md R214) (DEDUCED, notes/assumptions/80.md). -/
def waitsOf (w : WRef) (x : Warp) : List Turn :=
  x.ops.flatMap fun o => o.items.flatMap fun i =>
    if isMem o.unit && o.opc == 26 then
      match i.stage with
      | .armed => [.event .monitorRetest (.op w o.id i.lane)]
      | .go => turnIf (!i.extra.isEmpty) .monitorPoll (.op w o.id i.lane)
      | _ => []
    else turnIf (o.unit == unitCp && o.opc == 12 && i.stage == .armed) .homeOperationPerform (.op w o.id i.lane)

/-! ## Turns of jobs and teams -/

/-- The turns of a job that are due. -/
def dueOfJob (s : State) (team : Nat) (b : Job) : List Turn :=
  match b.stage with
  | .failed _ _ _ _ => [.event .translationFault (.trans (.job team b.id))]
  | .retry c => turnIf (decide (c ≤ s.clk)) .faultQueueRetry (.trans (.job team b.id))
  | _ => turnIf (b.isChan && b.begun && b.at_ != 0 && decide (b.at_ ≤ s.clk)) .chanPoolRetry (.pair team b.id)

/-- The steps of a job at no stated time; those that do not apply change nothing. A job that ends before it has begun goes on to its end
(spec/06_copy_engine.md R249 to R253). -/
def mayOfJob (team : Nat) (b : Job) : List Turn :=
  let sub := Subject.pair team b.id
  if b.stage = .walk then [.event .tableWalk (.trans (.job team b.id))]
  else if ¬ b.begun ∧ ¬ b.ending then [.event .jobBegin sub]
  else
    ((if b.unit = unitMx then [.mxRowApply, .drainUpdatePerform, .mxJobComplete]
      else [.copyCursorAdvance, .streamRowWrite, .chanMessageDelivery, .copyJobComplete] : List Instr) ++
        ([.barDecrement] : List Instr)).map fun n => Turn.event n sub

/-- The turns of a team that are due. -/
def dueOfTeam (s : State) (id : Nat) (t : Team) : List Turn :=
  if t.status = .saved then (if t.dead then t.jobs.flatMap (dueOfJob s id) else [])
  else
    ((mapIdx
      (fun i (x : Warp) =>
        let w : WRef := { team := id, warp := i }
        dueOfWarp s w x ++ (x.ops.flatMap (dueOfOp s w)) ++ if t.status = .resident then lateHandler s t w x else []) t.warps).flatten) ++
      (t.jobs.flatMap (dueOfJob s id)) ++
      turnIf (t.status == .resident && decide (t.lastIssue + 4096 ≤ s.clk)) .progressBoost (.num id) ++
      turnIf (t.status == .resident && decide (sto1 s t.ctx ≤ t.barWait)) .teamWatchdog (.num id)

/-- The turns of a team at no stated time. The cancelled jobs of a saved team that is killed go on to their ends (spec/06_copy_engine.md
R255). -/
def mayOfTeam (s : State) (id : Nat) (t : Team) : List Turn :=
  if t.status = .saved ∧ t.dead then t.jobs.flatMap (mayOfJob id) ++ [.event .teamRetire (.num id)]
  else if t.status = .saved then (mapIdx (fun i x => waitsOf { team := id, warp := i } x) t.warps).flatten
  else
    ((mapIdx
      (fun i (x : Warp) =>
        let w : WRef := { team := id, warp := i }
        turnIf (!x.sq.isEmpty) .storeQueueLeave (.warp w) ++ x.ops.flatMap (mayOfOp w)) t.warps).flatten) ++
      (t.jobs.flatMap (mayOfJob id)) ++
      (t.bars.keys.map fun k => .event .barrierPhaseComplete (.pair id k)) ++
      turnIf (t.dead || t.warps.all fun x => x.liveLanes.isEmpty) .teamRetire (.num id) ++
      turnIf (t.status == .resident && decide (mwl s t.ctx ≤ t.monWait)) .monitorSwapOut (.num id)

/-! ## Turns of the device -/

/-- Frames received right at the ports that are not down. -/
def framesOf (s : State) : List Turn :=
  ((List.range 16).filter fun p => !portDown s p).map fun p => .event .linkFrameReceive (.frame { port := p, crcOk := true })

/-- The turns of the fabric that a clk holds. Flits that would come too late come in (spec/11_fabric.md R421). -/
def dueOfFabric (s : State) : List Turn :=
  let b := s.eng.fab
  let routers := (b.flits.map fun f => f.router).eraseDups
  turnIf (s.clk % 64 == 0) .ageTick .none ++
    ((if s.clk % 256 = 0 then b.routers.keys else []).map fun r => .event .throttleUpdate (.num r)) ++
    turnIf (s.clk % 4096 == 0) .goldenEpoch .none ++
    ((List.range 72).filter routers.contains).map (fun r => .event .flitArrival (.num r)) ++
    (if b.messages.vals.any fun m => !m.overflow.isEmpty then s.cores.keys.map fun c => .event .overflowMove (.num c) else []) ++
    ((b.messages.entries.filter fun e => messageOver s e.2).map fun e => .event .reassemblyTimeout (.num e.1)) ++
    if b.messages.vals.any (Message.late s) then framesOf s else []

/-- The turns of the fabric at no stated time. -/
def mayOfFabric (s : State) : List Turn :=
  let b := s.eng.fab
  let senders := ((b.messages.vals.filter fun m => !m.toSend.isEmpty).map fun m => m.src).eraseDups
  (senders.map fun r => .event .flitInjection (.num r)) ++
    (if (outsideFlits s).isEmpty then [] else framesOf s) ++
    ((b.credits.map Prod.fst).eraseDups.map fun r => .event .creditReturn (.num r)) ++
    turnIf (s.ldr.stClk.isSome && decide (1 < deviceCount s)) .systemTimeSlew .none

/-- The turns of a core that are due: idle FMA pairs and the wait of its array. -/
def dueOfCore (s : State) (c : Nat) (k : Core) : List Turn :=
  ((k.quads.entries.filter fun q => q.2.pairActive && decide (q.2.pairUntil ≤ s.clk)).map fun q => .event .fmaPairIdle (.pair c q.1)) ++
    turnIf (k.arrayWait != 0 && decide (k.arrayWait + 63 ≤ s.clk) && !k.arrayFirst) .arrayWaitExpiry (.num c)

/-- The turns of the memory and the engines at no stated time. -/
def mayOfMemory (s : State) : List Turn :=
  let lines := fun (k : Core) => (k.l1.keys.map fun sec => sec / 16).eraseDups
  let k := s.eng.snap
  (s.mem.writes.keys.map fun n => .event .writeAcknowledge (.num n)) ++
    (s.mem.updates.keys.map fun n => .event .updateApply (.num n)) ++
    (s.cores.entries.flatMap fun e => (lines e.2).map fun n => .event .l1Eviction (.pair e.1 n)) ++
    ((s.cores.vals.flatMap lines).eraseDups.map fun n => .event .l2Eviction (.num n)) ++
    (s.mem.remote.keys.map fun key => .event .l2Eviction (.pair (key % 4) (key / 4))) ++
    (s.mem.quarantine.map fun q => .event .quarantineRelease (.num q.frame)) ++
    (k.waiting.keys.map fun n => .event .autoCommit (.num n)) ++
    ((k.taken.take 1).map fun x => .event .commitPublish (.num x.time)) ++
    (k.chains.entries.flatMap fun e => e.2.older.map fun v => .event .lichenReclaim (.pair e.1 v.time)) ++
    (s.eng.aceMsgs.keys.map fun n => .event .aceBroadcastApply (.num n))

/-- The turns of functions, contexts and commands that are due. -/
def dueOfLoader (s : State) : List Turn :=
  (s.ldr.funcs.entries.flatMap fun e =>
    (e.2.reqs.entries.filter fun r => decide (r.2.clk + sto2 s r.2.ctx < s.clk)).map fun r =>
      .event .pageRequestTimeout (.pair e.1 r.1)) ++
    (s.ldr.contexts.entries.flatMap fun e =>
      turnIf (e.2.traps.any (CtxTrap.overdue (serviceOver s e.1) 2)) .serviceTimeout (.timeout (.context e.1)) ++
        turnIf (s.clk % 2 ^ 20 == 0 && e.2.scanSince.isSome) .waitGraphScan (.num e.1)) ++
    (s.ldr.journal.entries.flatMap fun e =>
      turnIf (e.2.state == .running && e.2.opc == 3 && s.clk % 2 ^ 20 == 0) .launchProgressUpdate (.num e.1) ++
        turnIf (e.2.state == .running && e.2.opc == 0x10) .exportTimeout (.num e.1)) ++
    turnIf (s.clk % 2 ^ 48 == bitsOf (s.ldr.device.getD 5 0) 47 0) .systemTimeStep .none ++
    ((s.eng.snap.waiting.entries.filter fun e => e.2.since.any (waitOver s)).map fun e => .event .heapWaitExpiry (.num e.1)) ++
    (s.eng.aceMsgs.entries.filter fun e => decide (e.2.due ≤ s.clk)).map fun e => .event .aceBroadcastApply (.num e.1)

/-- The turns of functions, cores that save, and commands at no stated time. -/
def mayOfLoader (s : State) : List Turn :=
  let waits := fun (r : Nat) => (s.ldr.contexts.vals.filter fun c => c.traps.any (CtxTrap.overdue (fun _ => true) r)).map fun c => c.func
  ((s.ldr.funcs.entries.filter fun e => !e.2.cores.isEmpty).map fun e => .event .teamPlacement (.num e.1)) ++
    ((s.cores.entries.filter fun e => !e.2.save.isEmpty).map fun e => .event .saveEnd (.num e.1)) ++
    ((waits 3).eraseDups.map fun f => .event .serviceTimeout (.timeout (.partition f))) ++
    turnIf (!(waits 4).isEmpty) .serviceTimeout (.timeout .device) ++
    s.ldr.journal.entries.flatMap fun e =>
      if e.2.busy then [.command e.1]
      else match e.2.state with
        | .recorded _ => []
        | _ => [.event .commandComplete (.num e.1)]

/-- Has a team been frozen for so long that its save must come to its end (spec/12_supervisor.md R456)? -/
def Team.lateSave (t : Team) (clk : Nat) : Bool := t.status == .saving && decide (t.savedAt + 2 ^ 15 ≤ clk)

/-- The steps on which a late save waits are taken in each clk, so that it ends within the 50,000 clk of R456: those of its teams, of flits that
wait, of commits (DEDUCED, notes/assumptions/23.md). -/
def dueSaves (s : State) : List Turn :=
  let late := s.teams.entries.filter fun e => e.2.lateSave s.clk
  if late.isEmpty then []
  else
    let b := s.eng.fab
    (late.flatMap fun e => mayOfTeam s e.1 e.2) ++
      (((b.messages.vals.filter fun m => !m.toSend.isEmpty).map fun m => m.src).eraseDups.map fun r => .event .flitInjection (.num r)) ++
      ((b.credits.map Prod.fst).eraseDups.map fun r => .event .creditReturn (.num r)) ++
      (s.eng.snap.waiting.keys.map fun n => .event .autoCommit (.num n)) ++
      ((s.eng.snap.taken.take 1).map fun x => .event .commitPublish (.num x.time)) ++
      ((late.map fun e => e.2.core).eraseDups.map fun c => .event .saveEnd (.num c))

/-- The halts whose edge has come. -/
def dueHalts (s : State) : List Turn :=
  (s.ldr.halts.entries.filter fun e => !e.2.halted && decide (e.2.edge ≤ s.clk)).map fun e => .event .haltEdge (.num e.1)

/-- The cores that run teams. -/
def busyCores (s : State) : List Nat :=
  let on := (s.teams.vals.filter fun t => t.status != .saved && !t.dead).map fun t => t.core
  (List.range 256).filter on.contains

/-- The issue turns of a clk. -/
def issueTurns (s : State) : List Turn := (busyCores s).flatMap fun c => [0, 1, 2, 3].map fun q => .issue c q

/-- The turns of a clk, in order. -/
def planClk (s : State) : State :=
  let due := dueOfFabric s ++ (s.teams.entries.flatMap fun e => dueOfTeam s e.1 e.2) ++
    (s.cores.entries.flatMap fun e => dueOfCore s e.1 e.2) ++ dueOfLoader s ++ dueSaves s
  let may := (s.teams.entries.flatMap fun e => mayOfTeam s e.1 e.2) ++ mayOfFabric s ++ mayOfMemory s ++ mayOfLoader s
  let r := fairTurns may s
  let o := anyOrder r.1 r.2
  { o.2 with agenda := due ++ o.1 ++ dueHalts s ++ issueTurns s }

/-! ## What advances with the clk -/

/-- The warps of a core that came back in a handler and have no permit yet, by quad, then slot (spec/12_supervisor.md R438). -/
def permitSeekers (s : State) (core : Nat) : List WRef :=
  let ts := s.teams.entries.filter fun e => e.2.core == core && e.2.status == .resident && decide (e.2.readyAt ≤ s.clk)
  (List.range 64).flatMap fun k => ts.flatMap fun e => (e.2.refs e.1).filter fun w => match e.2.warps[w.warp]? with
    | some x => x.owesPermit && x.quad * 16 + x.slot == k
    | none => false

/-- Teams frozen from this clk on give up their permits; warps that came back take theirs. -/
def turnPermits (s : State) : State :=
  let frozen := (s.teams.entries.filter fun e => e.2.status == .saving && e.2.savedAt == s.clk).map Prod.fst
  let s1 := foldOver returnPermits s frozen
  foldOver takePermit s1 ((busyCores s1).flatMap (permitSeekers s1))

/-- Performance events whose places are not modelled, L2 misses, HBM sectors read and TLB misses, are counted freely
(spec/12_supervisor.md R447; notes/assumptions/19.md). -/
def driftCounters (s : State) (c : Nat) : State :=
  let sel := (s.func (s.core c).func).evsel
  let loose := fun (i : Nat) => let e := sel.getD i 0; bitOf e 15 && (bitsOf e 7 0 == 5 || bitsOf e 7 0 == 6 || bitsOf e 7 0 == 8)
  foldOver
    (fun s i =>
      if loose i then
        let r := freeWord s
        r.2.modCore c fun k => { k with pmcs := modifyAt (fun v => v + r.1.setWidth 48) i k.pmcs }
      else s)
    s (List.range 8)

/-- The next clk begins. -/
def nextClk (s : State) : State :=
  let s1 := fabricTurn { s with clk := s.clk + 1 }
  let s2 := { s1 with teams := s1.teams.mapVals fun _ t => countTeam t }
  let s3 := s2.modLdr fun d => { d with contexts := d.contexts.mapVals fun k c => scanCount s2 k c }
  let s4 := foldOver settleArray s3 ((s3.cores.filter fun _ k => k.arrayWait != 0).keys)
  foldOver driftCounters (turnPermits s4) (busyCores s4)

/-- The turn of a clk: counts advance and the turns of the new clk are laid down. -/
def tick (s : State) : State := planClk (nextClk s)

end Sys2Proof.Machine
end

