-- ==== Sys2Proof/Machine/Turns.lean ====
section
/-! DEFINITION. The turns of the agenda: a quad looks at its warps, picks one and issues its bundle; a step of the device is
made; a command acts (spec/03_warp_sequencer.md R148, R149; notes/assumptions/5.md). -/

namespace Sys2Proof.Machine

/-! ## What a warp would issue -/

/-- Is a warp kept from issuing by nothing but its bundle: its team runs, no hold, marker, halt or handler of another warp stops
it (R23, R96, R100, R143, R148; spec/12_supervisor.md R435, R438, R463)? -/
def mayIssue (s : State) (w : WRef) (t : Team) (x : Warp) : Bool :=
  !t.dead && (t.status == .resident || (t.status == .saving && decide (s.clk < t.savedAt))) && decide (t.readyAt ≤ s.clk) &&
    decide (x.delayTo ≤ s.clk) && decide (x.yieldTo ≤ s.clk) && decide (x.backoffTo ≤ s.clk) && decide (x.entryTo ≤ s.clk) &&
    x.halted.isNone && !x.owesPermit &&
    (x.marker.all fun e => !(x.lane e.2).live || (x.elem e.1 offY e.2).filled) &&
    (s.ldr.halts.vals.all fun g => g.issuer != some w) &&
    (x.ops.all fun o => !(o.unit == unitSup && (o.opc == 2 || o.opc == 7))) &&
    (mapIdx (fun i (y : Warp) => i == w.warp || y.handlers.all fun h => h.rung != 1) t.warps).all id

/-- What an issue of a warp would come to. -/
inductive Act where
  /-- Its fetch or its form traps. -/
  | trap (q : TrapReq)
  /-- Its bundle, as the instruction that it decodes to. -/
  | run (i : Instr)
  deriving DecidableEq, Repr

/-- A warp that can issue, and how it stands: whether it is issuable (R148), or the power grant alone holds it; whether its bundle
would activate the quad's FMA pair (spec/10_team_scheduler.md R378). -/
structure Cand where
  w : WRef
  slot : Nat
  prio : Nat
  boost : Bool
  readyWait : Nat
  act : Act
  issuable : Bool
  picks : Bool
  needs : Bool
  deriving DecidableEq, Repr

/-- Does a plan commit or skip? -/
def Plan.goes : Plan → Bool
  | .commit _ => true
  | .skip => true
  | _ => false

/-- Does a plan stop nothing but time? -/
def Plan.holds : Plan → Bool
  | .hold => true
  | _ => false

/-- The quad's FMA pair as if active, or as if no pair could become active. -/
def pairOpen (s : State) (core quad : Nat) : State := s.modQuad core quad fun q => { q with pairActive := true }
def pairShut (s : State) (core : Nat) : State := s.modCore core fun k => { k with arrayFirst := true }

/-- A candidate of a warp with what it would do (DEDUCED, notes/assumptions/7.md). -/
def Cand.of (w : WRef) (x : Warp) (act : Act) (issuable picks needs : Bool) : Cand :=
  { w := w, slot := x.slot, prio := x.prio, boost := x.boost, readyWait := x.readyWait, act := act, issuable := issuable,
    picks := picks, needs := needs }

/-- The instruction at the chosen address of a warp, or the trap of its fetch (class 1) or form (class 2) (R89, R92). -/
def readBundle (s : State) (core ctx : Nat) (c : Choice) : Act × State :=
  match fetch s core ctx c.pc with
  | (.error code, s1) => (.trap (TrapReq.pre code 1 0 c.active c.pc), s1)
  | (.ok bs, s1) =>
    match decode bs with
    | .ok i => (.run i, s1)
    | .error (.illegalBundle mask) => (.trap (TrapReq.pre codeIllegalBundle 2 mask c.active c.pc), s1)
    | .error _ => (.trap (TrapReq.pre codeIllegalBundle 2 0 c.active c.pc), s1)

/-- How a warp stands that would run an instruction. -/
def standing (s : State) (core quad : Nat) (w : WRef) (x : Warp) (i : Instr) : Option Cand :=
  match toBundle i with
  | none => none
  | some b =>
    let plan := fun s => planIssue s w (bundleHeader b) (bundleMoves b)
    let p := plan s
    if ((s.core core).quad quad).pairActive then
      if p.holds then none else some (Cand.of w x (.run i) p.goes true false)
    else if p.holds then
      if (plan (pairOpen s core quad)).goes then some (Cand.of w x (.run i) false false true) else none
    else some (Cand.of w x (.run i) p.goes true (p.goes && (plan (pairShut s core)).holds))

/-- Is the bundle chosen held for the clk of its replay (R99)? Another bundle that the next pick chooses (R24) is not (DEDUCED,
notes/assumptions/93.md). -/
def heldReplay (clk : Nat) (x : Warp) (c : Choice) : Bool := x.replayPc == some c.pc && decide (clk < x.replayTo)

/-- A warp of a quad looked at in this clk. -/
def lookAt (s : State) (core quad : Nat) (w : WRef) (t : Team) (x : Warp) : Option Cand × State :=
  if ¬ mayIssue s w t x then (none, s)
  else
    match x.chooseAt s.clk with
    | none => (none, s)
    | some c =>
      if heldReplay s.clk x c then (none, s)
      else match readBundle s core t.ctx c with
      | (.trap q, s1) => (some (Cand.of w x (.trap q) false true false), s1)
      | (.run i, s1) => (standing s1 core quad w x i, s1)

/-- The warps of a quad, in slot order. -/
def quadRefs (s : State) (core quad : Nat) : List WRef :=
  let ts := s.teams.entries.filter fun e => e.2.core == core && e.2.status != .saved
  (List.range 16).flatMap fun k => ts.flatMap fun e => (e.2.refs e.1).filter fun w => match e.2.warps[w.warp]? with
    | some x => x.quad == quad && x.slot == k
    | none => false

/-- A candidate that the quad cannot pick: it is in the second clk of another warp's split bundle (R103, R149). Its ready-wait goes on. -/
def Cand.passedOver (c : Cand) : Cand := { c with picks := false, needs := false }

/-- The candidates among warps; a quad in the second clk of a split bundle picks that bundle alone (R103, R149). -/
def lookAll (core quad : Nat) : List WRef → State → List Cand × State
  | [], s => ([], s)
  | w :: r, s =>
    match s.team? w.team, s.warp? w with
    | some t, some x =>
      let other := s.clk ≠ 0 ∧ ((s.core core).quad quad).busy = s.clk ∧ x.split.map Prod.fst ≠ some s.clk
      let a := lookAt s core quad w t x
      let rest := lookAll core quad r a.2
      ((if other then a.1.toList.map Cand.passedOver else a.1.toList) ++ rest.1, rest.2)
    | _, _ => lookAll core quad r s

/-- The slot that a log in replay mode allows (spec/12_supervisor.md R467). -/
def replayAllows (s : State) (core quad : Nat) (c : Cand) : Bool :=
  match replaySlot s core quad with
  | none => true
  | some n => n == some c.slot

/-- The candidates of a quad. -/
def lookQuad (s : State) (core quad : Nat) : List Cand × State :=
  let r := lookAll core quad (quadRefs s core quad) s
  (r.1.filter (replayAllows s core quad), r.2)

/-! ## The choice (R149; spec/10_team_scheduler.md R378) -/

/-- A candidate's place in the choice of R149, to be compared from the left. -/
def Cand.rank (c : Cand) : List Nat :=
  if 512 ≤ c.readyWait then [0, 0, 0, 2 ^ 64 - c.readyWait, c.slot]
  else if c.boost then [1, 0, 0, 2 ^ 64 - c.readyWait, c.slot]
  else [1, 1, 8 - c.prio, 2 ^ 64 - c.readyWait, c.slot]

/-- The first of candidates by R149. -/
def pickOf : List Cand → Option Cand
  | [] => none
  | c :: r =>
    match pickOf r with
    | none => some c
    | some d => if comesBefore d.rank c.rank then some d else some c

/-- The place of a candidate among those of all quads that would activate an FMA pair: BOOST first, then by R149. -/
def Cand.grantRank (c : Cand) : List Nat := (if c.boost then 0 else 1) :: c.rank

/-- The units that the core's grant leaves. -/
def freeUnits (s : State) (core : Nat) : Nat :=
  grantOf s core - (activePairs (s.core core) + (s.core core).activeQuarters s.clk)

/-- The picks of later quads that would activate their pair and go before a candidate. -/
def ahead (core : Nat) (c : Cand) : List Nat → State → Nat × State
  | [], s => (0, s)
  | q :: r, s =>
    let l := lookQuad s core q
    let n := match pickOf (l.1.filter fun d => d.picks || d.needs) with
      | some d => if d.needs && comesBefore d.grantRank c.grantRank then 1 else 0
      | none => 0
    let rest := ahead core c r l.2
    (n + rest.1, rest.2)

/-- A candidate that the power grant holds, where its bundle would activate the quad's FMA pair: it is not issuable (R148). -/
def Cand.withoutGrant (c : Cand) : Cand := if c.needs then { c with issuable := false, picks := false } else c

/-- The candidates of a quad under the core's power grant: a pick that would activate the quad's FMA pair is held while earlier
ones of other quads take the units left, and with it every other such candidate (DEDUCED, notes/assumptions/41.md). -/
def grantQuad (s : State) (core quad : Nat) (cs : List Cand) : List Cand × State :=
  match pickOf (cs.filter fun c => c.picks) with
  | none => (cs, s)
  | some c =>
    if ¬ c.needs then (cs, s)
    else
      let a := ahead core c ((List.range 4).filter fun q => decide (quad < q)) s
      (if a.1 < freeUnits s core then cs else cs.map Cand.withoutGrant, a.2)

/-- A quad's pick. -/
def choosePick (cs : List Cand) : Option Cand := pickOf (cs.filter fun c => c.picks)

/-! ## An issue turn -/

/-- The committed bundles of a warp. -/
def committedOf (s : State) (w : WRef) : Nat :=
  match s.warp? w with
  | some x => x.committed.toNat
  | none => 0

/-- The warps that were issuable and did not issue wait on (R148) (DEDUCED, notes/assumptions/40.md). -/
def countWaits (pick : Option WRef) (committed : Bool) (s : State) (cs : List Cand) : State :=
  foldOver
    (fun s c =>
      if ¬ c.issuable ∨ (committed ∧ pick = some c.w) then s
      else s.modWarp c.w fun x => { x with readyWait := x.readyWait + 1 })
    s cs

/-- The counts of a quad's clk, after its issue (R148; spec/12_supervisor.md R447, R467). -/
def closeIssue (core quad : Nat) (cs : List Cand) (pick : Option Cand) (before : Nat) (s : State) : State :=
  let done := match pick with
    | some c => committedOf s c.w != before
    | none => false
  let s1 := countWaits (pick.map fun c => c.w) done { s with issuing := none } cs
  let s2 := if !done && cs.any (fun c => c.issuable) then countEvent s1 core 0x02 else s1
  let s3 := foldOver (fun s (_ : Cand) => countEvent s core 0x03) s2 (cs.filter fun c => c.needs && (!c.picks || !(pick == some c)))
  let s4 := recordClk s3 core quad (if done then pick.map fun c => c.slot else none)
  replayClk s4 core quad done

/-- An issue turn of a quad: it looks at its warps, and the one that it picks issues. -/
def issueTurn (s : State) (core quad : Nat) : Host.Outcome State Fault Refusal :=
  let l := lookQuad s core quad
  let g := grantQuad l.2 core quad l.1
  match choosePick g.1 with
  | none => .next (closeIssue core quad g.1 none 0 g.2)
  | some c =>
    let before := committedOf g.2 c.w
    match c.act with
    | .trap q => .next (closeIssue core quad g.1 (some c) before (takeTrap g.2 c.w q))
    | .run i =>
      match exec i { g.2 with issuing := some c.w } with
      | .next t => .next (closeIssue core quad g.1 (some c) before t)
      | r => r

/-! ## Other turns -/

/-- A step of the device on a subject. -/
def eventTurn (s : State) (i : Instr) (sub : Subject) : Host.Outcome State Fault Refusal :=
  match exec i { s with subject := sub } with
  | .next t => .next { t with subject := .none }
  | r => r

/-- A turn of a command: its entry is decoded, and it acts; an entry that names no command is BAD-COMMAND
(spec/13_loader.md R470). -/
def commandTurn (s : State) (j : Nat) : Host.Outcome State Fault Refusal :=
  let s1 := { s with curCmd := some j }
  match s.ldr.journal.find? j with
  | none => .next s
  | some c =>
    match decodeCommand c.entry with
    | .error _ => .next { badEntry s1 with curCmd := none }
    | .ok i =>
      match exec i s1 with
      | .next t => .next { t with curCmd := none }
      | r => r

/-- A turn. -/
def runTurn (s : State) : Turn → Host.Outcome State Fault Refusal
  | .issue core quad => issueTurn s core quad
  | .event i sub => eventTurn s i sub
  | .command j => commandTurn s j

/-- Memory outside this device is written there: old code is kept, monitors on it test again (spec/02_bundles_and_ports.md R106;
spec/05_memory_ports.md R212, R213). -/
def writeAbroad (s : State) (tgt dev : Nat) (l : List (Nat × Byte)) : State :=
  pushTurns ((keepOldCode s tgt dev l).modMem fun m => m.writeAt tgt dev l) (monitorTurns s tgt dev l)

/-- What comes from outside. -/
def takeStimulus (s : State) : Stimulus → Host.Outcome State Fault Refusal
  | .step i sub => eventTurn s i sub
  | .hostWrite a b => .next (writeAbroad s 1 0 [(a, b)])
  | .peerWrite d a b => .next (writeAbroad s 2 d [(a, b)])
  | .queue n q => .next (s.modLdr fun l => { l with queues := l.queues.insert n q })

/-- The next turn: what comes from outside first, then the agenda of the clk; when it is empty, the next clk begins. -/
def nextTurn (s : State) : Host.Outcome State Fault Refusal :=
  match s.inbox with
  | x :: r => takeStimulus { s with inbox := r } x
  | [] =>
    match s.agenda with
    | [] => .next (tick s)
    | x :: r => runTurn { s with agenda := r } x

/-! ## A word placed to run next -/

/-- An image at the code area's start, in slot 0 of context 1. -/
def wordImage : Image :=
  { ctx := 1, slot := 0, base := Config.reservedBase, len := 512, exec := true, va := none, step := Config.steppingId, schk := false, w32 := false,
    tvec0 := 0, tvec1 := 0, ir := false, nf := 0, entries := [0], bytes := [], digest := [], replaced := none, unloading := false }

/-- A launch of one warp of that image, with a matrix engine and 4 KiB of team store. -/
def wordLaunch : Launch :=
  { ctx := 1, image := 1, prio := 0, grant := 0, acec := false, matrix := true, snap := false, fuse := false, data := 0, arg := 0,
    tsu := 1, order := 0, extents := [1], roles := [(1, 64)], entries := [0], edges := [], state := .running, total := 1, next := 1,
    retired := [], lastCore := some 0, snapTime := none, clusters := [], killed := none }

/-- Its context: address-space number 1 of the physical function, the least value of every field of its configuration. -/
def wordContext : Context :=
  { newContext 64 [8, 0, 0, 7, 0x52900000 + 0x3000, 0, 0, 0] with slots := some 1 :: List.replicate 15 none }

/-- Its team, on core 0. -/
def wordTeam (s : State) : Team :=
  { launch := 1, index := 0, ctx := 1, core := 0, status := .resident, warps := [startWarp s wordLaunch wordImage 0 0 0 0 (0, 0, 64)],
    tsBase := 0, tsSize := 4096, tstore := .empty, tsPoison := [], arb := [], bars := .empty, scale := .empty, scalePrev := .empty,
    scaleClk := 0, pins := .empty, mx := none, owner := true, jobs := [], lastIssue := s.clk, lastCommit := s.clk, barWait := 0, monWait := 0,
    savedAt := 0, readyAt := s.clk, wake := false, swapped := false, dead := false, startedAt := s.clk, mxFailed := [],
    mxWaited := .empty }

/-- A bundle stands at the entry of the only team, a warp of which issues next (notes/assumptions/17.md). -/
def State.placeBundle (s : State) (bs : List Byte) : State :=
  { s with
    inbox := [], agenda := [.issue 0 0], issuing := none, teams := FMap.empty.insert 1 (wordTeam s), cores := s.cores.erase 0,
    mem := s.mem.writeList (atAddr Config.reservedBase bs),
    ldr :=
      { s.ldr with
        contexts := FMap.empty.insert 1 wordContext, images := FMap.empty.insert 1 wordImage,
        launches := FMap.empty.insert 1 wordLaunch, halts := .empty, nextHandle := 2, codeTop := Config.reservedBase + 512 } }

/-- A command stands in the journal, and acts next. -/
def State.placeCommand (s : State) (bs : List Byte) : State :=
  { s with
    inbox := [], agenda := [.command 1],
    ldr :=
      { s.ldr with
        journal := FMap.empty.insert 1
          { queue := 0, func := 64, entry := bs, state := .accepted, cur0 := 0, cur1 := 0, clkIn := s.clk, clkOut := 0, info := [] },
        nextJ := 2 } }

/-- Places an instruction whose bits the table numbers as `w`: a bundle, or a command where it has more than 256 bits. -/
def State.placeWord (s : State) (nbits w : Nat) : State :=
  if nbits ≤ 256 then s.placeBundle (tableBytes nbits w) else s.placeCommand (tableBytes nbits w)

end Sys2Proof.Machine
end

