-- ==== Sys2Proof/Machine/Step.lean ====
section
/-! DEFINITION. One step of the machine (notes/assumptions/5.md, 17.md). -/

namespace Sys2Proof.Machine

/-- One step: the next stimulus from outside, the next turn of the clk, or the begin of the next clk
(DESIGN CHOICE, notes/assumptions/5.md). -/
def step (s : State) : Host.Outcome State Fault Refusal := nextTurn s

/-- The state in which an instruction, its bits numbered as spec/opcode_table.json numbers them, is what `step` runs next
(DESIGN CHOICE, notes/assumptions/17.md). -/
def State.withFetchWord (s : State) (nbits w : Nat) : State := s.placeWord nbits w

end Sys2Proof.Machine
end

