-- ==== Sys2Proof/Machine/Flits.lean ====
section
/-! DEFINITION. The bits of a flit: its mesh or link header, the payload of a head flit, the data that the other flits carry
(spec/11_fabric.md R401 to R404). The network holds messages and the numbers of their flits; this is how they stand on a hop. -/

namespace Sys2Proof.Machine

/-- The header of a flit within the device (R402). -/
def meshHeader (m : Message) (age seqno : Nat) : W64 :=
  BitVec.ofNat 12 age ++ 0#1 ++ BitVec.ofNat 4 seqno ++ BitVec.ofNat 10 m.msgid ++ BitVec.ofNat 7 m.src ++ BitVec.ofNat 7 m.dst ++
    BitVec.ofNat 3 m.dstEp ++ BitVec.ofNat 3 m.cls ++ 0#1 ++ BitVec.ofNat 16 m.ctx

/-- The header of a flit between devices (R403). -/
def linkHeader (m : Message) (age seqno : Nat) : W64 :=
  BitVec.ofNat 12 age ++ 1#1 ++ BitVec.ofNat 4 seqno ++ BitVec.ofNat 9 m.msgid ++ BitVec.ofNat 19 m.ddev ++ BitVec.ofNat 19 m.sdev

/-- The header of a flit. -/
def flitHeader (m : Message) (age seqno : Nat) : W64 := if m.xd then linkHeader m age seqno else meshHeader m age seqno

/-- The payload of a head flit: NFLIT − 1, CLASS, of a link message CTX; the description of the access, whose layout the spec does not state,
stands in the other bits: free values (R404) (notes/assumptions/18.md). -/
def headPayload (n : Nat) (m : Message) : BitVec 512 :=
  let d := Config.flitPayload n 0
  d.extractLsb' 32 480 ++ (if m.xd then BitVec.ofNat 16 m.ctx else d.extractLsb' 16 16) ++ d.extractLsb' 7 9 ++ BitVec.ofNat 3 m.cls ++
    BitVec.ofNat 4 (m.nflit - 1)

/-- The data that a message carries, where the state holds it: of a write, an update, a line that an engine job reads, an access from outside or
its answer. A response of a lane stands for what its home holds when it fills (notes/assumptions/18.md). -/
def messageData (s : State) : Purpose → List Byte
  | .write id => ((s.mem.writes.find? id).map fun w => w.bytes.map Prod.snd).getD []
  | .update id => ((s.mem.updates.find? id).map fun u => u.bytes.map Prod.snd).getD []
  | .data _ _ line => s.mem.homeBytes (512 * line) 512
  | .access id => ((s.ldr.outs.find? id).map fun a => if a.kind = .write then a.bytes.map Prod.snd else wordBytes 8 a.operand).getD []
  | .answer id => ((s.ldr.outs.find? id).map fun a => a.answer.bytes).getD []
  | _ => []

/-- The payload of flit `k` of message `n`: 64 bytes of its data, lowest first, and free bits where it carries none (R401). -/
def flitPayload (s : State) (n : Nat) (m : Message) (k : Nat) : BitVec 512 :=
  if k = 0 then headPayload n m
  else
    let part := ((messageData s m.purpose).drop (64 * (k - 1))).take 64
    let d := Config.flitPayload n k
    BitVec.ofNat 512
      (foldOver (fun (v : Nat) (b : Byte × Nat) => v + b.1.toNat * 2 ^ (8 * b.2)) 0 (part.zip (List.range 64)) +
        (d.toNat >>> (8 * part.length)) * 2 ^ (8 * part.length))

/-- A flit: its header in bits [63:0], its payload in bits [575:64] (R401). -/
def flitBits (s : State) (f : Flit) : Option (BitVec 576) :=
  (s.eng.fab.messages.find? f.msg).map fun m => flitPayload s f.msg m f.seqno ++ flitHeader m f.age f.seqno

end Sys2Proof.Machine
end

