-- ==== Sys2Proof/Safety.lean ====
section
/-! DEFINITION. What runs and what holds in them: a step from a state to the next, runs, and the forms that every state of a run
keeps. -/

namespace Sys2Proof.Machine

/-- One step of the machine leads from `s` to `t`. -/
def Goes (s t : State) : Prop := step s = .next t

/-- `t` is reached from `s` in some number of steps. -/
inductive Reaches : State → State → Prop where
  | refl (s : State) : Reaches s s
  | step {s t u : State} : Reaches s t → Goes t u → Reaches s u

/-- Is the memory of a state in its canonical form: device, host and peer memory (INVENTORY.md, State)? -/
def Mem.canonical (m : Mem) : Bool := m.bytes.wf && m.host.wf && m.peer.wf

/-- Is no instruction under way: between two steps no warp issues, no step has a subject, no command acts? -/
def State.atRest (s : State) : Bool := s.issuing.isNone && decide (s.subject = .none) && s.curCmd.isNone

/-- A property that every step keeps. -/
def Kept (p : State → Prop) : Prop := ∀ s t : State, p s → Goes s t → p t

end Sys2Proof.Machine
end

