-- ==== Sys2Proof/Safety/Issue.lean ====
section
/-! DEFINITION. The terms of the claims about issue: a bundle of one move that meets no hold, what it moves, and what an issue
leaves as it was. -/

namespace Sys2Proof.Machine

/-- An issue of one move: the warp that issues, as its team and itself stand before it, the choice of R24, the source that the
move reads, and the lanes that perform it. -/
structure Scene where
  w : WRef
  tm : Team
  x : Warp
  c : Choice
  r : RSrc
  ls : List Nat

/-- May lane `l` read a source now: a result is filled and untagged, a stream's element has come, nothing is poisoned (R36, R92;
spec/05_memory_ports.md R223)? -/
def readable (x : Warp) (r : RSrc) (l : Nat) : Bool :=
  (match r with
   | .result u off => (x.elem u off l).filled && (x.elem u off l).tag == 0
   | .stream k => !streamWaits x k l && streamTag x k l == 0
   | _ => true) &&
    !((srcCodes r ++ match r with
        | .stream k => [portCode 11 (6 + k)]
        | _ => []).any fun p => x.poison.contains (p, l))

/-- Does lane `l` perform a move with guard `g` (R90)? -/
def takesPart (x : Warp) (g : BitVec 4) (ng : Bool) (l : Nat) : Bool := if g = 15 then !ng else x.guard g.toNat l != ng

/-- A warp issues a trigger of opcode `n` of unit `u`, which some of its active lanes perform, and every read of it can be made now: of its source,
and of the operands and the mode that the operation finds in its ports (spec/05_memory_ports.md R223). -/
structure Scene.Of (k : Scene) (s : State) (t : Trig) (u n : Nat) : Prop where
  issuing : s.issuing = some k.w
  team : s.team? k.w.team = some k.tm
  warp : s.warp? k.w = some k.x
  choice : k.x.chooseAt s.clk = some k.c
  source : loneSource s k.tm k.x t.src = some k.r
  lanes : k.ls = k.c.active.filter (takesPart k.x t.g t.ng)
  some_lane : k.ls ≠ []
  reads : ∀ l ∈ k.ls, readable k.x k.r l = true
  clean : ∀ l ∈ k.ls, ∀ off, off < 4 → off ≠ landing u n → k.x.poison.contains (portCode u off, l) = false

/-- The value that the move brings to a lane. -/
def Scene.val (k : Scene) (s : State) (l : Nat) : W64 := readSrc s k.tm k.w.warp k.x (maskOf k.c.active) k.c.pc k.r l

/-- The operand at offset `off` that opcode `n` of unit `u` takes in a lane: what the trigger brings where it lands there (R87),
else what the port holds. -/
def Scene.arg (k : Scene) (s : State) (u n off l : Nat) : W64 := if off = landing u n then k.val s l else k.x.port u off l

/-- Is no loop level open in a warp? -/
def Warp.noLoops (x : Warp) : Bool := x.halves.all fun h => h.levels.isEmpty

/-- What an issue leaves of the device: everything but cores and teams, and steps put on the agenda. -/
structure DeviceKept (s s' : State) : Prop where
  clk : s'.clk = s.clk
  inbox : s'.inbox = s.inbox
  issuing : s'.issuing = s.issuing
  subject : s'.subject = s.subject
  curCmd : s'.curCmd = s.curCmd
  freeCtr : s'.freeCtr = s.freeCtr
  mem : s'.mem = s.mem
  ldr : s'.ldr = s.ldr
  eng : s'.eng = s.eng

/-- What an issue leaves of a core: everything but its counters, its quads and the clk marks of its engines. -/
structure CoreKept (c c' : Core) : Prop where
  permits : c'.permits = c.permits
  fused : c'.fused = c.fused
  l1 : c'.l1 = c.l1
  tlb : c'.tlb = c.tlb
  buffer : c'.buffer = c.buffer
  func : c'.func = c.func
  aceCopies : c'.aceCopies = c.aceCopies
  mx : c'.mx = c.mx
  arrayWait : c'.arrayWait = c.arrayWait
  arrayFirst : c'.arrayFirst = c.arrayFirst
  save : c'.save = c.save
  saveQueue : c'.saveQueue = c.saveQueue
  saveKill : c'.saveKill = c.saveKill
  slots : c'.slots = c.slots

/-- What an issue leaves of its team: everything but its warps, its jobs, its arbiter, its barriers, its
scales and the clk of its last issue and commit. -/
structure TeamKept (t t' : Team) : Prop where
  launch : t'.launch = t.launch
  index : t'.index = t.index
  ctx : t'.ctx = t.ctx
  core : t'.core = t.core
  status : t'.status = t.status
  tsBase : t'.tsBase = t.tsBase
  tsSize : t'.tsSize = t.tsSize
  tstore : t'.tstore = t.tstore
  tsPoison : t'.tsPoison = t.tsPoison
  pins : t'.pins = t.pins
  mx : t'.mx = t.mx
  owner : t'.owner = t.owner
  dead : t'.dead = t.dead
  startedAt : t'.startedAt = t.startedAt
  warps : t'.warps.length = t.warps.length

/-- What an issue leaves of the rest of the device: other teams, other warps of the team (they lose a boost, R148), cores. -/
structure OthersKept (k : Scene) (s s' : State) : Prop where
  teams : ∀ j, j ≠ k.w.team → s'.team? j = s.team? j
  team : ∃ t', s'.team? k.w.team = some t' ∧ TeamKept k.tm t'
  warps : ∀ j, j ≠ k.w.warp →
    s'.warp? { team := k.w.team, warp := j } =
      (s.warp? { team := k.w.team, warp := j }).map fun y => { y with boost := false }
  cores : ∀ c, CoreKept (s.core c) (s'.core c)

/-- What an issue leaves of its warp: its place, guards, flags, control bits, and its holds of other kinds; the ports of units other
than `u`; and the registers of its lanes. -/
structure WarpKept (u : Nat) (x x' : Warp) : Prop where
  role : x'.role = x.role
  quad : x'.quad = x.quad
  slot : x'.slot = x.slot
  budget : x'.budget = x.budget
  guards : x'.guards = x.guards
  sticky : x'.sticky = x.sticky
  sched : x'.sched = x.sched
  w32 : x'.w32 = x.w32
  prio : x'.prio = x.prio
  halted : x'.halted = x.halted
  backoffTo : x'.backoffTo = x.backoffTo
  entryTo : x'.entryTo = x.entryTo
  regs : ∀ l, (x'.lane l).regs = (x.lane l).regs
  ports : ∀ v, v ≠ u → x'.unit v = x.unit v

/-- What an issue that acts on none of them leaves of its warp: the operations in flight, the store queue, the transaction, the schedule
check, the handlers; of its lanes formats, return stacks and life. -/
structure InnerKept (x x' : Warp) : Prop where
  ops : x'.ops = x.ops
  sq : x'.sq = x.sq
  txn : x'.txn = x.txn
  schk : x'.schk = x.schk
  handlers : x'.handlers = x.handlers
  lanes : ∀ l, (x'.lane l).nfr = (x.lane l).nfr ∧ (x'.lane l).rstack = (x.lane l).rstack ∧ (x'.lane l).live = (x.lane l).live

/-- The counts and holds that an issue leaves (R24, R93, R96, R100): ages, one more committed bundle, the warp held to the next clk. -/
structure Issued (c : Choice) (s : State) (x x' : Warp) : Prop where
  committed : x'.committed = x.committed + 1
  delay : x'.delayTo = s.clk + 1
  readyWait : x'.readyWait = 0
  boost : x'.boost = false
  ages : ∀ l, (x'.lane l).age =
    if c.active.contains l then 0
    else if c.cand.contains l then Nat.min ((x.lane l).age + 1) 511 else (x.lane l).age

/-- Where no loop is open, active lanes go on to the next bundle and the others stay (R89, R131). -/
def SteppedOn (c : Choice) (x x' : Warp) : Prop :=
  x.noLoops = true →
    x'.halves = x.halves ∧ ∀ l, (x'.lane l).pc = if c.active.contains l then nextPc c.pc else (x.lane l).pc

/-- Where no loop is open, no lane's wait changes. -/
def WaitsKept (x x' : Warp) : Prop := x.noLoops = true → ∀ l, (x'.lane l).wait = (x.lane l).wait

/-- The operands of the unit whose opcode is triggered (R33, R35, R87): the landing port takes the value in the performing lanes, other
lanes' ports stay, and the trigger's number is the performing lanes' last. -/
structure Landed (k : Scene) (s : State) (u n : Nat) (x' : Warp) : Prop where
  operand : ∀ l off, off < 4 → x'.port u off l = if l ∈ k.ls then k.arg s u n off l else k.x.port u off l
  others : ∀ l, l ∉ k.ls → x'.elem u offY l = k.x.elem u offY l ∧ x'.elem u offY2 l = k.x.elem u offY2 l
  last : ∀ l ∈ k.ls, (x'.unit u).last.find? l = some s.nextId

/-- The results of the performing lanes stand unfilled and untagged (R33). -/
def Unfilled (k : Scene) (u : Nat) (x' : Warp) : Prop :=
  ∀ l ∈ k.ls, (x'.elem u offY l).filled = false ∧ (x'.elem u offY l).tag = 0 ∧
    (x'.elem u offY2 l).filled = false ∧ (x'.elem u offY2 l).tag = 0

/-- The results of the performing lanes are filled with values (R117, R118). -/
def FilledWith (k : Scene) (u : Nat) (x' : Warp) (y y2 : Nat → W64) : Prop :=
  ∀ l ∈ k.ls, x'.elem u offY l = .value (y l) ∧ x'.elem u offY2 l = .value (y2 l)

/-- The issue of a trigger, but for what it starts: the device, the other teams and warps, the warp's other parts, its counts. -/
structure TriggerIssue (k : Scene) (s s' : State) (u n : Nat) (x' : Warp) : Prop where
  warp : s'.warp? k.w = some x'
  device : DeviceKept s s'
  others : OthersKept k s s'
  kept : WarpKept u k.x x'
  issued : Issued k.c s k.x x'
  landed : Landed k s u n x'
  yieldTo : ¬ (u = 16 ∧ n = 9) → x'.yieldTo = k.x.yieldTo
  bars : ¬ (u = 16 ∧ (n = 10 ∨ n = 11)) → ∀ t', s'.team? k.w.team = some t' → t'.bars = k.tm.bars

end Sys2Proof.Machine
end

