-- ==== Sys2Proof/Safety/Engines.lean ====
section
/-! DEFINITION. The terms of the claims about triggers of the memory units and the engines: their opcodes in order, and what the issue
of each leaves beside the operation or the job that it starts. -/

namespace Sys2Proof.Machine

/-- The issue of a trigger that starts an operation or a job: its results stand unfilled, lanes go on, formats and stacks stay. -/
structure EngineIssue (k : Scene) (s s' : State) (u n : Nat) (x' : Warp) : Prop where
  issue : TriggerIssue k s s' u n x'
  agenda : s'.agenda = s.agenda
  fills : x'.fills = k.x.fills
  schk : ¬ (u = 17 ∧ n = 1) → x'.schk = k.x.schk
  sq : u ≠ 8 → u ≠ 9 → x'.sq = k.x.sq
  txn : x'.txn = k.x.txn
  handlers : x'.handlers = k.x.handlers
  lanes : ∀ l, (x'.lane l).nfr = (k.x.lane l).nfr ∧ (x'.lane l).rstack = (k.x.lane l).rstack ∧ (x'.lane l).live = (k.x.lane l).live
  stepped : SteppedOn k.c k.x x'
  unfilled : Unfilled k u x'

/-! ## Memory units (spec/05_memory_ports.md R197 to R206) -/

/-- Kinds of memory operations. -/
inductive MemKind where
  | load
  | store
  | atomic
  | other
  deriving DecidableEq, Repr

/-- The memory operations: width in bytes and kind (R198). The width of `waitcmp` is 4 or 8 by its control word. -/
def memRows (u : Fin 2) (t : Trig) : List (Instr × Nat × MemKind) :=
  [(.memLdU8 u t, 1, .load), (.memLdS8 u t, 1, .load), (.memLdU16 u t, 2, .load), (.memLdS16 u t, 2, .load),
   (.memLd32 u t, 4, .load), (.memLd64 u t, 8, .load), (.memSt8 u t, 1, .store), (.memSt16 u t, 2, .store),
   (.memSt32 u t, 4, .store), (.memSt64 u t, 8, .store), (.memLdTs u t, 4, .load), (.memStTs u t, 4, .store),
   (.memAtomAdd u t, 4, .atomic), (.memAtomAdd64 u t, 8, .atomic), (.memAtomMinS32 u t, 4, .atomic),
   (.memAtomMaxS32 u t, 4, .atomic), (.memAtomMinU64 u t, 8, .atomic), (.memAtomAnd u t, 4, .atomic),
   (.memAtomOr u t, 4, .atomic), (.memAtomXor u t, 4, .atomic), (.memAtomExch u t, 4, .atomic),
   (.memAtomExch64 u t, 8, .atomic), (.memAtomCas u t, 4, .atomic), (.memAtomCas64 u t, 8, .atomic),
   (.memAtomAddF32 u t, 4, .atomic), (.memFence u t, 1, .other), (.memWaitcmp u t, 4, .other), (.memPrefetch u t, 1, .other),
   (.memPin u t, 1, .other), (.memUnpin u t, 1, .other), (.memLdAcq u t, 4, .load), (.memStRel u t, 4, .store),
   (.memLdAcq64 u t, 8, .load), (.memStRel64 u t, 8, .store), (.memFlush u t, 1, .other), (.memLdNc u t, 4, .load)]

/-- Is a lane's access one of team store (R199)? -/
def toTeamStore (n : Nat) (kind : MemKind) (m : W64) : Bool :=
  decide (kind ≠ .other) && (n == 10 || n == 11 || m.toNat / 128 % 4 == 1)

/-- Does a mode pass the checks of R197 for an opcode? -/
def memModeOk (n : Nat) (kind : MemKind) (m : W64) : Bool :=
  decide (m.toNat < 512) && decide (m.toNat / 128 % 4 ≤ 1) && decide (m.toNat % 8 ≤ 4) &&
    (decide (kind ≠ .other) || n == 25 || m.toNat / 128 % 4 == 0)

/-- The width of a lane's access (R198, R212). -/
def memBytes (n w : Nat) (c : W64) : Nat := if n = 26 ∧ c.toNat / 4 % 2 = 1 then 8 else w

/-- The checks of R199 for a lane: control word, alignment, the team's slice. -/
def memLaneOk (n w : Nat) (kind : MemKind) (tsSize : Nat) (a c m : W64) : Bool :=
  memModeOk n kind m && (n != 26 || decide (c.toNat < 8)) && a.toNat % memBytes n w c == 0 &&
    (!toTeamStore n kind m || (decide (a.toNat < 2 ^ 19) && decide (a.toNat + w ≤ tsSize)))

/-- The bytes of a store's lane: the low bytes of its operand, rising (R198). -/
def storedBytes (w : Nat) (a b : W64) : List (Nat × Byte) :=
  (List.range w).map fun i => (a.toNat + i, BitVec.ofNat 8 (b.toNat / 2 ^ (8 * i)))

/-! ## Engines -/

/-- The copy opcodes that submit jobs, with their numbers (spec/06_copy_engine.md R238, R239). -/
def copyJobRows (t : Trig) : List (Nat × Instr) :=
  [(0, .cpCopy t), (1, .cpCopy2d t), (2, .cpGather t), (3, .cpScatter t), (4, .cpFill t), (5, .cpQuantZb8 t), (6, .cpZrlPack t),
   (7, .cpZrlUnpack t), (8, .cpStreamOpen t), (10, .cpBarInit t), (11, .cpBarExpect t), (13, .cpChanSend t), (14, .cpChanRecv t)]

/-- The matrix opcodes that submit jobs, with their numbers (spec/07_matrix_engine.md R261, R263). -/
def mxJobRows (t : Trig) : List (Nat × Instr) :=
  [(0, .mxLdw t), (1, .mxSwap t), (2, .mxMma t), (3, .mxMmaSwap t), (4, .mxZero t), (5, .mxDrain t), (6, .mxDrainAdd t),
   (7, .mxDrainMax t), (8, .mxLdacc t), (11, .mxRdacc t), (12, .mxWracc t), (13, .mxMmaT t)]

/-- The snapshot opcodes that act for the warp, with their numbers, and the words that they take (spec/08_snapshot_engine.md R298,
R299): a begin names a held slot only with HELD, and no transaction is open. -/
def snapRows (t : Trig) : List (Nat × Instr × (Warp → Nat → Bool)) :=
  [(0, .snapBegin t, fun x v => decide (v < 2 ^ 13) && (v / 4096 == 1 || v == 0) && x.txn.isNone),
   (1, .snapBeginRo t, fun x v => decide (v < 2 ^ 13) && (v / 4096 == 1 || v == 0) && x.txn.isNone),
   (2, .snapCommit t, fun _ v => v == 0), (3, .snapAbort t, fun _ v => v == 0), (4, .snapNow t, fun _ v => v == 0),
   (5, .snapHold t, fun _ v => decide (v < 2 ^ 17) && v / 4096 % 16 == 0), (6, .snapRelease t, fun _ v => decide (v < 4096)),
   (7, .snapStatus t, fun _ v => v == 0)]

/-- The tell opcodes with their numbers and the operands that they take (spec/09_tell_unit.md R331, R332); `commit` and a draft's commit
are one opcode. -/
def tellRows (t : Trig) : List (Nat × Instr × (Nat → Nat → Nat → Bool)) :=
  [(0, .tellCommit t, fun _ b _ => decide (b < 2 ^ 26)), (0, .tellCommitDraft t, fun _ b _ => decide (b < 2 ^ 26)),
   (1, .tellConfirm t, fun _ b _ => decide (b ≤ 16)), (2, .tellNext t, fun _ _ _ => true),
   (3, .tellArm t, fun _ b c => decide (c ≤ 16) && b % 128 == 0), (4, .tellDisarm t, fun _ b _ => decide (b < 2 ^ 16)),
   (5, .tellFork t, fun _ b _ => decide (b < 2 ^ 28)),
   (6, .tellReset t, fun a _ _ => decide (a < 2 ^ 18) && a / 2 ^ 16 != 3), (7, .tellNotify t, fun a _ _ => decide (a < 2 ^ 24)),
   (8, .tellCount t, fun _ b _ => decide (b ≤ 9))]

/-- The deque opcodes, with the operands that they take (spec/10_team_scheduler.md R382 to R386). -/
def tqRows (t : Trig) : List (Nat × Instr × (Nat → Nat → Nat → Bool)) :=
  [(0, .tqPush t, fun a _ _ => decide (a < 4096)), (1, .tqPop t, fun a _ _ => decide (a < 4096)),
   (2, .tqSteal t, fun a _ _ => decide (a < 4096)),
   (3, .tqStealAny t, fun a _ _ => decide (a < 2 ^ 29) && a / 4096 % 16 == 0 && decide (1 ≤ a / 2 ^ 16) && decide (a / 2 ^ 16 ≤ 4096)),
   (4, .tqSize t, fun a _ _ => decide (a < 4096)),
   (5, .tqInit t, fun a b c => decide (a < 4096) && decide (c < 2 ^ 28) && c % 512 == 0 && b % 2 ^ 57 % 4096 == 0)]

/-- The Ace opcodes (spec/10_team_scheduler.md R390, R391): the selector's reserved bits are zero, and a cluster register is 0 to 15. -/
def aceRows (t : Trig) : List (Nat × Instr) :=
  [(0, .aceMin t), (1, .aceMax t), (2, .aceRd t), (3, .aceSet t), (4, .aceWaitlt t)]

/-- Does a selector pass the checks (R390)? -/
def selectorOk (a : Nat) : Bool := decide (a < 512) && a / 128 % 2 == 0 && (a / 64 % 2 == 1 || decide (a % 64 ≤ 15))

/-- The sup opcodes that wait for what they act on (spec/12_supervisor.md R445, R449, R450), with the operands that they take. -/
def supWaitRows (t : Trig) : List (Nat × Instr × (Warp → Nat → Bool)) :=
  [(2, .supTret t, fun x a => !x.handlers.isEmpty && decide (a ≤ 2)),
   (7, .supIcinval t, fun _ a => decide (a < 2 ^ 32) && a % 32 == 0), (8, .supSync t, fun _ _ => true)]

/-- Does the warp have neither a sync nor a commit in flight (R304, R450)? -/
def engineOpen (x : Warp) : Prop :=
  ∀ o ∈ x.ops, ¬ (o.unit = 17 ∧ o.opc = 8) ∧ ¬ (o.unit = 12 ∧ o.opc = 2)

/-- An operation with one item for each performing lane, with the lane's operands. -/
def opStarted (k : Scene) (s : State) (u n : Nat) (mode : W64) (stage : Nat → Stage) (m : Nat → W64) : Op :=
  { id := s.nextId, unit := u, opc := n, mode := mode, pc := k.c.pc, clk := s.clk, info := [],
    items := k.ls.map fun l =>
      { Item.start l (k.arg s u n offA l) (k.arg s u n offB l) (k.arg s u n offC l) s.mem.epoch with
        m := m l, stage := stage l } }

end Sys2Proof.Machine
end

