-- ==== Sys2Proof/Safety/Lanes.lean ====
section
/-! DEFINITION. The terms of the claims about the lane function units: each opcode with its instruction and the value that it gives,
written from the tables of spec/04_lane_units.md (R166 to R192), opcode 0 first. -/

namespace Sys2Proof.Machine

/-! ## Integers (R157, R166 to R170, R174) -/

/-- Bits [31:0] as an unsigned and as a signed number; all bits as a signed number. -/
def nat32 (a : W64) : Nat := a.toNat % 2 ^ 32
def int32 (a : W64) : Int := if nat32 a < 2 ^ 31 then (nat32 a : Int) else (nat32 a : Int) - 2 ^ 32
def int64 (a : W64) : Int := if a.toNat < 2 ^ 63 then (a.toNat : Int) else (a.toNat : Int) - 2 ^ 64

/-- A number wrapped to 32 bits, zero-extended to a port; a number wrapped to 64 bits. -/
def put32 (x : Int) : W64 := BitVec.ofNat 64 (x % 2 ^ 32).toNat
def put64 (x : Int) : W64 := BitVec.ofNat 64 (x % 2 ^ 64).toNat

/-- A sum kept within signed 32 bits, and status 4 where it was clamped. -/
def put32Sat (x : Int) : W64 × W64 :=
  if x < -2147483648 then (put32 (-2147483648), 4) else if 2147483647 < x then (put32 2147483647, 4) else (put32 x, 0)

/-- Length and mask of a field control word (R167). -/
def ctrlLen (k : Nat) : Nat := min (k / 256 % 64) (32 - k % 32)

/-- The integer operations of int0 and int1 (R166, R167). -/
def intRows (u : Fin 2) (t : Trig) : List (Instr × (W64 → W64 → W64 → W64 × W64)) :=
  [(.intAdd u t, fun a b _ => (put32 (nat32 a + nat32 b), 0)),
   (.intSub u t, fun a b _ => (put32 (nat32 a - nat32 b), 0)),
   (.intAdd64 u t, fun a b _ => (put64 (a.toNat + b.toNat), 0)),
   (.intSub64 u t, fun a b _ => (put64 (a.toNat - b.toNat), 0)),
   (.intAnd u t, fun a b _ => (a &&& b, 0)),
   (.intOr u t, fun a b _ => (a ||| b, 0)),
   (.intXor u t, fun a b _ => (a ^^^ b, 0)),
   (.intAndn u t, fun a b _ => (a &&& ~~~b, 0)),
   (.intShl u t, fun a b _ => (if 32 ≤ b.toNat then 0 else put32 (nat32 a * 2 ^ b.toNat), 0)),
   (.intShr u t, fun a b _ => (if 32 ≤ b.toNat then 0 else put32 (nat32 a / 2 ^ b.toNat), 0)),
   (.intSar u t, fun a b _ =>
     (if 32 ≤ b.toNat then (if int32 a < 0 then 0xFFFFFFFF else 0) else put32 (int32 a / 2 ^ b.toNat), 0)),
   (.intShl64 u t, fun a b _ => (if 64 ≤ b.toNat then 0 else put64 (a.toNat * 2 ^ b.toNat), 0)),
   (.intShr64 u t, fun a b _ => (if 64 ≤ b.toNat then 0 else put64 (a.toNat / 2 ^ b.toNat), 0)),
   (.intSar64 u t, fun a b _ =>
     (if 64 ≤ b.toNat then (if int64 a < 0 then put64 (-1) else 0) else put64 (int64 a / 2 ^ b.toNat), 0)),
   (.intMinS32 u t, fun a b _ => (put32 (min (int32 a) (int32 b)), 0)),
   (.intMaxS32 u t, fun a b _ => (put32 (max (int32 a) (int32 b)), 0)),
   (.intMinU32 u t, fun a b _ => (put32 (min (nat32 a) (nat32 b) : Nat), 0)),
   (.intMaxU32 u t, fun a b _ => (put32 (max (nat32 a) (nat32 b) : Nat), 0)),
   (.intMinS64 u t, fun a b _ => (put64 (min (int64 a) (int64 b)), 0)),
   (.intMaxS64 u t, fun a b _ => (put64 (max (int64 a) (int64 b)), 0)),
   (.intSel u t, fun a b c => (if c ≠ 0 then a else b, 0)),
   (.intAbs u t, fun a _ _ => (put32 (int32 a).natAbs, if nat32 a = 0x80000000 then 4 else 0)),
   (.intClz u t, fun a _ _ => (BitVec.ofNat 64 (if nat32 a = 0 then 32 else 31 - Nat.log2 (nat32 a)), 0)),
   (.intPopc u t, fun a _ _ => (BitVec.ofNat 64 (((List.range 64).filter fun i => a.getLsbD i).length), 0)),
   (.intBrev u t, fun a _ _ =>
     (BitVec.ofNat 64 (((List.range 32).map fun i => if a.getLsbD i then 2 ^ (31 - i) else 0).sum), 0)),
   (.intBfx u t, fun a b _ =>
     let n := ctrlLen (nat32 b)
     let f := nat32 a / 2 ^ (nat32 b % 32) % 2 ^ n
     (if nat32 b / 2 ^ 16 % 2 = 1 ∧ 0 < n ∧ 2 ^ (n - 1) ≤ f then put32 (f - 2 ^ n) else put32 f, 0)),
   (.intBfi u t, fun a b c =>
     let n := ctrlLen (nat32 c)
     let p := nat32 c % 32
     (put32 (nat32 a / 2 ^ (p + n) * 2 ^ (p + n) + nat32 b % 2 ^ n * 2 ^ p + nat32 a % 2 ^ p), 0)),
   (.intAddsatS32 u t, fun a b _ => put32Sat (int32 a + int32 b)),
   (.intSubsatS32 u t, fun a b _ => put32Sat (int32 a - int32 b)),
   (.intLea u t, fun a b c => (put64 (a.toNat + int32 b * 2 ^ c.toNat), 0)),
   (.intPass u t, fun a _ _ => (a, 0))]

/-- Part `i` of `w` bits as a signed number. -/
def part (w i : Nat) (a : W64) : Int :=
  let p := a.toNat / 2 ^ (w * i) % 2 ^ w
  if p < 2 ^ (w - 1) then (p : Int) else (p : Int) - 2 ^ w

/-- The multiplications of mul0, opcodes 0 to 8 (R169). -/
def mulRows (t : Trig) : List (Instr × (W64 → W64 → W64 → W64)) :=
  [(.mulLo t, fun a b _ => put32 (nat32 a * nat32 b)),
   (.mulhiS32 t, fun a b _ => put32 (int32 a * int32 b / 2 ^ 32)),
   (.mulhiU32 t, fun a b _ => put32 (nat32 a * nat32 b / 2 ^ 32 : Nat)),
   (.madLo t, fun a b c => put32 (nat32 a * nat32 b + nat32 c)),
   (.mulwS32 t, fun a b _ => put64 (int32 a * int32 b)),
   (.mulwU32 t, fun a b _ => put64 (nat32 a * nat32 b)),
   (.mul64Lo t, fun a b _ => put64 (a.toNat * b.toNat)),
   (.dot4S8 t, fun a b c =>
     put32 (int32 c + part 8 0 a * part 8 0 b + part 8 1 a * part 8 1 b + part 8 2 a * part 8 2 b + part 8 3 a * part 8 3 b)),
   (.dot2S16 t, fun a b c => put32 (int32 c + part 16 0 a * part 16 0 b + part 16 1 a * part 16 1 b))]

/-- The divisions of mul0, opcodes 9 to 12 (R169). -/
def divRows (t : Trig) : List (Instr × (W64 → W64 → W64 × W64)) :=
  [(.divU32 t, fun a b => if nat32 b = 0 then (0xFFFFFFFF, 8) else (put32 (nat32 a / nat32 b : Nat), 0)),
   (.divS32 t, fun a b =>
     if nat32 b = 0 then (if 0 ≤ int32 a then 0x7FFFFFFF else 0x80000000, 8)
     else if nat32 a = 0x80000000 ∧ nat32 b = 0xFFFFFFFF then (0x80000000, 4)
     else (put32 (Int.tdiv (int32 a) (int32 b)), 0)),
   (.remU32 t, fun a b => if nat32 b = 0 then (put32 (nat32 a), 8) else (put32 (nat32 a % nat32 b : Nat), 0)),
   (.remS32 t, fun a b => if nat32 b = 0 then (put32 (nat32 a), 8) else (put32 (Int.tmod (int32 a) (int32 b)), 0))]

/-- The number of significant bits of the magnitude of a lane's truncated quotient, 0 for a zero divisor (R170). -/
def quotBits (signed : Bool) (a b : W64) : Nat :=
  let q := if nat32 b = 0 then 0
    else if signed then (int32 a).natAbs / (int32 b).natAbs else nat32 a / nat32 b
  if q = 0 then 0 else Nat.log2 q + 1

/-- The class bit of binary32 bits (R175). -/
def class32 (x : Nat) : Nat :=
  let neg := x / 2 ^ 31 = 1
  let ex := x / 2 ^ 23 % 256
  let fr := x % 2 ^ 23
  if ex = 255 then (if fr = 0 then (if neg then 2 else 9) else if fr / 2 ^ 22 = 1 then 1 else 0)
  else if ex = 0 then (if fr = 0 then (if neg then 5 else 6) else if neg then 4 else 7)
  else if neg then 3 else 8

/-- The conditions of cmp0 that raise nothing, opcodes 0 to 8, 15 and 16 with their numbers (R174). -/
def cmpRows (t : Trig) : List (Nat × Instr × (W64 → W64 → Bool)) :=
  [(0, .cmpEq t, fun a b => decide (nat32 a = nat32 b)),
   (1, .cmpNe t, fun a b => decide (nat32 a ≠ nat32 b)),
   (2, .cmpLtS32 t, fun a b => decide (int32 a < int32 b)),
   (3, .cmpLeS32 t, fun a b => decide (int32 a ≤ int32 b)),
   (4, .cmpLtU32 t, fun a b => decide (nat32 a < nat32 b)),
   (5, .cmpLeU32 t, fun a b => decide (nat32 a ≤ nat32 b)),
   (6, .cmpEq64 t, fun a b => decide (a = b)),
   (7, .cmpLtS64 t, fun a b => decide (int64 a < int64 b)),
   (8, .cmpLtU64 t, fun a b => decide (a.toNat < b.toNat)),
   (15, .cmpClassF32 t, fun a b => b.getLsbD (class32 (nat32 a))),
   (16, .cmpTstz t, fun a b => decide (a &&& b = 0))]

/-! ## Floating point (R159, R161 to R164, R171 to R185) -/

/-- The operations of fma0 and fma1 with their latencies (R171): each rounds the exact value once (`fmaBits`, `addBits` and the
others of Machine/Float.lean). -/
def fmaRows (u : Fin 2) (t : Trig) : List (Instr × Nat × (FEnv → W64 → W64 → W64 → FRes)) :=
  [(.fmaF32 u t, 4, fun v a b c => fmaBits f32 v (nat32 a) (nat32 b) (nat32 c)),
   (.addF32 u t, 4, fun v a b _ => addBits f32 v (nat32 a) (nat32 b)),
   (.mulF32 u t, 4, fun v a b _ => mulBits f32 v (nat32 a) (nat32 b)),
   (.subF32 u t, 4, fun v a b _ => subBits f32 v (nat32 a) (nat32 b)),
   (.minF32 u t, 4, fun v a b _ => minMaxBits f32 v false (nat32 a) (nat32 b)),
   (.maxF32 u t, 4, fun v a b _ => minMaxBits f32 v true (nat32 a) (nat32 b)),
   (.fmaF16x2 u t, 4, fun v a b c => packed (fmaBits f16 v) a b c),
   (.addF16x2 u t, 4, fun v a b _ => packed (fun a b _ => addBits f16 v a b) a b 0),
   (.mulF16x2 u t, 4, fun v a b _ => packed (fun a b _ => mulBits f16 v a b) a b 0),
   (.fmaBf16x2 u t, 4, fun v a b c => packed (fmaBits bf16 v) a b c),
   (.fmaF64 u t, 8, fun v a b c => fmaBits f64 v a.toNat b.toNat c.toNat),
   (.addF64 u t, 8, fun v a b _ => addBits f64 v a.toNat b.toNat),
   (.mulF64 u t, 8, fun v a b _ => mulBits f64 v a.toNat b.toNat),
   (.dot2F16F32 u t, 4, fun v a b c => dot2Bits v (nat32 a) (nat32 b) (nat32 c)),
   (.fmaSatF32 u t, 4, fun v a b c => clampUnit (fmaBits f32 v (nat32 a) (nat32 b) (nat32 c))),
   (.minF64 u t, 8, fun v a b _ => minMaxBits f64 v false a.toNat b.toNat),
   (.maxF64 u t, 8, fun v a b _ => minMaxBits f64 v true a.toNat b.toNat)]

/-- The floating-point conditions of cmp0, with their numbers (R174): what NaNs do, and what values that are none compare. -/
def fcmpRows (t : Trig) : List (Nat × Instr × (FEnv → W64 → W64 → FRes)) :=
  [(9, .cmpFeqF32 t, floatCond f32 false false eqBits),
   (10, .cmpFltF32 t, floatCond f32 true false ltBits),
   (11, .cmpFleF32 t, floatCond f32 true false fun f a b => ltBits f a b || eqBits f a b),
   (12, .cmpFunF32 t, floatCond f32 false true fun _ _ _ => false),
   (13, .cmpFltF64 t, floatCond f64 true false ltBits),
   (14, .cmpFeqF64 t, floatCond f64 false false eqBits)]

/-- The operations of sfn0 with their latencies (R177); the approximate ones give a value that Config leaves open within R177's bounds
(`approxOp`, notes/assumptions/14.md). -/
def sfnRows (t : Trig) : List (Instr × Nat × (FEnv → W64 → W64 → FRes)) :=
  [(.sfnRcp t, 8, fun v a _ => approxOp 0 v (nat32 a)),
   (.sfnRsqrt t, 8, fun v a _ => approxOp 1 v (nat32 a)),
   (.sfnSqrt t, 10, fun v a _ => sqrtBits f32 v (unpack f32 v.fz32 (nat32 a))),
   (.sfnExp2 t, 8, fun v a _ => approxOp 3 v (nat32 a)),
   (.sfnLog2 t, 8, fun v a _ => approxOp 4 v (nat32 a)),
   (.sfnSin t, 12, fun v a _ => approxOp 5 v (nat32 a)),
   (.sfnCos t, 12, fun v a _ => approxOp 6 v (nat32 a)),
   (.sfnTanh t, 12, fun v a _ => approxOp 7 v (nat32 a)),
   (.sfnDivF32 t, 16, fun v a b => divBits f32 v (unpack f32 v.fz32 (nat32 a)) (unpack f32 v.fz32 (nat32 b))),
   (.sfnRcpF64 t, 20, fun v a _ => divBits f64 v (.fin false 1 0) (unpack f64 false a.toNat)),
   (.sfnSqrtF64 t, 20, fun v a _ => sqrtBits f64 v (unpack f64 false a.toNat))]

/-- The conversions of cvt0, with their numbers (R180 to R182). -/
def convRows (t : Trig) : List (Nat × Instr × (FEnv → W64 → FRes)) :=
  [(0, .cvtF32S32 t, fun v a => ofInt f32 v (int32 a)),
   (1, .cvtF32U32 t, fun v a => ofInt f32 v (nat32 a)),
   (2, .cvtS32F32 t, fun v a => low32 (toInt (unpack f32 v.fz32 (nat32 a)) (-2147483648) 2147483647)),
   (3, .cvtU32F32 t, fun v a => low32 (toInt (unpack f32 v.fz32 (nat32 a)) 0 4294967295)),
   (4, .cvtF16F32 t, fun v a => convert f16 v (unpack f32 v.fz32 (nat32 a))),
   (5, .cvtF32F16 t, fun v a => convert f32 v (unpack f16 v.fz16 (a.toNat % 65536))),
   (6, .cvtBf16F32 t, fun v a => convert bf16 v (unpack f32 v.fz32 (nat32 a))),
   (7, .cvtF32Bf16 t, fun v a => convert f32 v (unpack bf16 v.fz16 (a.toNat % 65536))),
   (8, .cvtF64F32 t, fun v a => convert f64 v (unpack f32 v.fz32 (nat32 a))),
   (9, .cvtF32F64 t, fun v a => convert f32 v (unpack f64 false a.toNat)),
   (10, .cvtF64S64 t, fun v a => ofInt f64 v (int64 a)),
   (11, .cvtS64F64 t, fun _ a => toInt (unpack f64 false a.toNat) (-9223372036854775808) 9223372036854775807),
   (16, .cvtRoundF32 t, fun v a => roundIntegral f32 v (unpack f32 v.fz32 (nat32 a)))]

/-- What a lane fills from a floating-point result (R159, R164): the bits in .y, the exceptions in .y2, and whether it traps. -/
def floatLane (nfr : BitVec 16) (l : Nat) (r : FRes) : LaneRes :=
  { lane := l, y := BitVec.ofNat 64 r.bits, y2 := r.exc.setWidth 64, exc := r.exc, trap := meetsEnables nfr r.exc }

/-- What a lane fills from an integer result: no exception (R159). -/
def plainLane (l : Nat) (y y2 : W64) : LaneRes := { lane := l, y := y, y2 := y2, exc := 0, trap := false }

/-- The lanes among `ls` of the half of lane `l`; of a native warp all of them (R154, R176, R186). -/
def halfMates (x : Warp) (ls : List Nat) (l : Nat) : List Nat :=
  if x.w32 then ls.filter fun m => decide (m / 32 = l / 32) else ls

/-- The votes of cmp0 (R176): of the performing lanes of a half, lane numbers within the half, and the test of their .a. -/
def voteRows (t : Trig) : List (Nat × Instr × (List (Nat × Bool) → W64)) :=
  [(17, .cmpAny t, fun p => if p.any Prod.snd then 1 else 0),
   (18, .cmpAll t, fun p => if p.all Prod.snd then 1 else 0),
   (19, .cmpBallot t, fun p => BitVec.ofNat 64 ((p.filter Prod.snd).map fun e => 2 ^ e.1).sum)]

/-- The lane that number `n` names for lane `l`: modulo the lanes of its warp or half (R183, R186). -/
def laneNamed (x : Warp) (l n : Nat) : Nat := if x.w32 then l / 32 * 32 + n % 32 else n % 64

/-- The cross-lane moves of cvt0 (R183): the lane whose .a a lane takes, from each lane's .b and the performing lanes of its half. -/
def crossRows (t : Trig) : List (Nat × Instr × (Warp → (Nat → W64) → List Nat → Nat → Nat)) :=
  [(17, .cvtXlaneIdx t, fun x b _ l => laneNamed x l (b l).toNat),
   (18, .cvtXlaneXor t, fun x b _ l => laneNamed x l ((if x.w32 then l % 32 else l) ^^^ ((b l).toNat % 64))),
   (19, .cvtBcast t, fun x b p l => laneNamed x l (b (minOf p 0)).toNat)]

/-- The results of a pack over one group of lanes (R188, R189): `scale` the entries of the set that the NFR of the group's lowest lane
selects, `a` the lanes' values. -/
def packRes (zb8 : Bool) (scale : Nat → Nat → Int) (nfr : Nat → BitVec 16) (a : Nat → W64) (q : List Nat) : List LaneRes :=
  let v := nfr (minOf q 0)
  let val := fun l => unpack f32 (envOf v).fz32 (nat32 (a l))
  let most := foldOver magMax (some (0, 0)) ((q.filter fun l => !(val l).isNan).map fun l => (val l).mag)
  let h := headerOf zb8 (nfrRule v == 1) (scale (nfrSet v)) most
  q.map fun l =>
    let e := packElem zb8 (scale (nfrSet v)) h.1 h.2 (val l)
    floatLane (nfr l) l { bits := (h.2 * 16 + h.1) * 256 + e.1, exc := e.2 }

/-- The value of an unpacked element (R187, R190): its header's scale and its magnitude, rounded to binary32. -/
def unpackRes (zb8 : Bool) (scale : Nat → Nat → Int) (nfr : BitVec 16) (a : W64) : FRes :=
  let v := blockValue zb8 (scale (nfrSet nfr)) (a.toNat / 256 % 256) (a.toNat % 256)
  roundFin f32 (envOf nfr) v.1 v.2.1 v.2.2

/-- The issue of a lane unit's trigger, but for the result that it starts: all the rest stays. -/
structure LaneIssue (k : Scene) (s s' : State) (u n : Nat) (x' : Warp) : Prop where
  issue : TriggerIssue k s s' u n x'
  agenda : s'.agenda = s.agenda
  nextId : s'.nextId = s.nextId + 1
  jobs : ∀ t', s'.team? k.w.team = some t' → t'.jobs = k.tm.jobs ∧ t'.arb = k.tm.arb ∧ t'.scale = k.tm.scale
  inner : InnerKept k.x x'
  stepped : SteppedOn k.c k.x x'
  waits : WaitsKept k.x x'
  unfilled : Unfilled k u x'

end Sys2Proof.Machine
end

