-- ==== Sys2Proof/Safety/Sequencer.lean ====
section
/-! DEFINITION. The terms of the claims about the sequencer, the supervisor's unit and bundles of plain moves. -/

namespace Sys2Proof.Machine

/-! ## The sequencer (spec/03_warp_sequencer.md R117 to R147) -/

/-- What an issue leaves of a warp's handlers: all but the banked ports of unit `u`, where a result may come. -/
structure HandlersKept (u : Nat) (x x' : Warp) : Prop where
  same : (x'.handlers.map fun h => { h with ports := .empty }) = x.handlers.map fun h => { h with ports := .empty }
  ports : ∀ (e : Nat) (h h' : Handler), x.handlers[e]? = some h → x'.handlers[e]? = some h' →
    ∀ v, v ≠ u → h'.ports.getD v UnitPorts.start = h.ports.getD v UnitPorts.start

/-- The issue of a seq trigger, but for what it does to its performing lanes; `skip` is where other active lanes go. -/
structure SeqIssue (k : Scene) (s s' : State) (n : Nat) (skip : Nat → W32) (x' : Warp) : Prop where
  issue : TriggerIssue k s s' 16 n x'
  agenda : n ≠ 8 ∧ n ≠ 10 ∧ n ≠ 11 → s'.agenda = s.agenda
  jobs : ∀ t', s'.team? k.w.team = some t' → t'.jobs = k.tm.jobs ∧ t'.arb = k.tm.arb ∧ t'.scale = k.tm.scale
  fills : x'.fills = k.x.fills
  ops : x'.ops = k.x.ops
  sq : x'.sq = k.x.sq
  schk : x'.schk = k.x.schk
  txn : n ≠ 8 → x'.txn = k.x.txn
  handlers : HandlersKept 16 k.x x'
  halves : n ≠ 5 → k.x.noLoops = true → x'.halves = k.x.halves
  live : n ≠ 8 → ∀ l, (x'.lane l).live = (k.x.lane l).live
  nfr : n ≠ 12 → ∀ l, (x'.lane l).nfr = (k.x.lane l).nfr
  rstack : n ∉ [2, 3, 4, 14, 15] → ∀ l, (x'.lane l).rstack = (k.x.lane l).rstack
  others : ∀ l, l ∉ k.ls → (x'.lane l).live = (k.x.lane l).live ∧ (x'.lane l).nfr = (k.x.lane l).nfr ∧
    (x'.lane l).rstack = (k.x.lane l).rstack
  stepped : k.x.noLoops = true → ∀ l, l ∉ k.ls → (x'.lane l).wait = (k.x.lane l).wait ∧
    (x'.lane l).pc = if k.c.active.contains l then skip l else (k.x.lane l).pc

/-- Where a transfer goes: within the slot of its bundle, to an address, or by a signed distance (R121). -/
def seqTarget (rel : Bool) (pc : W32) (v : W64) : W32 :=
  BitVec.ofNat 32 (pc.toNat / 2 ^ 28 * 2 ^ 28 +
    if rel then (((pc.toNat % 2 ^ 28 : Nat) : Int) + int32 v) % 2 ^ 28 |>.toNat else v.toNat % 2 ^ 28)

/-- The transfers (R121). -/
def transferOf (rel call : Bool) (t : Trig) : Instr :=
  match rel, call with
  | false, false => .seqBr t
  | true, false => .seqBrr t
  | false, true => .seqCall t
  | true, true => .seqCallr t

/-- The return address of a bundle and its entry on the return stack (R124). -/
def retEntry (a : W32) : RetEntry := { addr := a, slot := (a >>> 28).setWidth 4 }

/-- The control word of a loop: body length, level, and where the body ends (R129). -/
def loopWord (k : Scene) (l : Nat) : Nat := (k.x.port 16 offB l).toNat
def loopEnd (k : Scene) (l : Nat) : W32 := seqTarget true k.c.pc (BitVec.ofNat 64 (32 * (loopWord k l % 2 ^ 16 + 1)))

/-- The level that a loop opens, as its lanes give it (R130). -/
def openedLevel (k : Scene) (s : State) (l : Nat) : LoopLevel :=
  { members := maskOf (halfMates k.x k.ls l), ix := lo32 (k.x.port 16 offA l), trip := lo32 (k.val s l), trip0 := lo32 (k.val s l),
    stride := BitVec.ofNat 32 (loopWord k l / 2 ^ 32), start := nextPc k.c.pc,
    stop := seqTarget true k.c.pc (BitVec.ofNat 64 (32 * (loopWord k l % 2 ^ 16))), exit := loopEnd k l }

/-- The operands of a loop are legal (R130). -/
structure LoopLegal (k : Scene) (s : State) : Prop where
  word : ∀ l ∈ k.ls, loopWord k l / 2 ^ 19 % 2 ^ 13 = 0 ∧ loopWord k l % 2 ^ 16 ≠ 0 ∧
    loopWord k l / 2 ^ 16 % 8 = (k.x.half (k.x.halfOf l)).levels.length ∧ loopWord k l / 2 ^ 16 % 8 < 6
  member : ∀ l ∈ k.ls, ∀ v ∈ (k.x.half (k.x.halfOf l)).levels, v.members.getLsbD l = true
  inside : ∀ l ∈ k.ls, k.c.pc.toNat % 2 ^ 28 + 32 * (loopWord k l % 2 ^ 16 + 1) < 2 ^ 28
  uniform : ∀ l ∈ k.ls, ∀ m ∈ halfMates k.x k.ls l, k.x.port 16 offB m = k.x.port 16 offB l ∧
    lo32 (k.x.port 16 offA m) = lo32 (k.x.port 16 offA l) ∧ lo32 (k.val s m) = lo32 (k.val s l)

/-- Every lane of a list is a member of levels 0 to `n` of its half. -/
def membersTo (x : Warp) (n : Nat) (l : Nat) : Prop := ∀ j, j ≤ n → x.member j l = true

/-- The arrival word of a barrier (R136), and the roles that it names: 0 for all that the team declares. -/
def barWord (k : Scene) (s : State) (l : Nat) : Nat := (k.val s l).toNat % 2 ^ 32
def rolesNamed (t : Team) (v : Nat) : BitVec 4 := if v / 16 % 16 = 0 then t.roleMask else BitVec.ofNat 4 (v / 16 % 16)

/-- A barrier word that R137 allows. -/
structure BarLegal (k : Scene) (s : State) (v : Nat) : Prop where
  word : ∀ l ∈ k.ls, barWord k s l = v
  bits : v < 256
  own : (rolesNamed k.tm v).getLsbD k.x.role = true
  declared : rolesNamed k.tm v &&& ~~~k.tm.roleMask = 0
  phase : (k.tm.bar (v % 16)).mask = 0 ∨ (k.tm.bar (v % 16)).mask = rolesNamed k.tm v

/-! ## The supervisor's unit (spec/12_supervisor.md R440 to R453) -/

/-- The operation of sup that a trigger starts, whose fill is known: it comes one clk later (R441). -/
def knownOp (k : Scene) (s : State) (n : Nat) (y y2 : Nat → W64) : Op :=
  { id := s.nextId, unit := 17, opc := n, mode := 0, pc := k.c.pc, clk := s.clk, info := [],
    items := k.ls.map fun l =>
      { Item.start l 0 0 0 s.mem.epoch with stage := .go, extra := [(y l).toNat, (y2 l).toNat] } }

/-- Is a warp without a sync in flight (R450)? -/
def noSync (x : Warp) : Prop := ∀ o ∈ x.ops, ¬ (o.unit = 17 ∧ o.opc = 8)

/-- The trace record of a mark (R452, R453). -/
def markRecord (k : Scene) (s : State) : TraceReq :=
  { ctx := k.tm.ctx, type := 1, code := 0, team := k.tm.index, core := k.tm.core, quad := k.x.quad, slot := k.x.slot,
    value := k.val s (k.ls.headD 0), pc := k.c.pc }

/-! ## Bundles of plain moves (spec/02_bundles_and_ports.md R78 to R93) -/

/-- A move whose codes are resolved to a source and a destination that is no trigger. -/
structure PlainMove where
  g : BitVec 4
  ng : Bool
  src : RSrc
  dst : RDst

/-- A bundle of plain moves whose reads can all be made now, and the warp that issues it. -/
structure PlainScene where
  w : WRef
  tm : Team
  x : Warp
  c : Choice
  ms : List PlainMove

/-- The scene of an issue of plain moves. -/
structure PlainScene.Of (k : PlainScene) (s : State) : Prop where
  issuing : s.issuing = some k.w
  team : s.team? k.w.team = some k.tm
  warp : s.warp? k.w = some k.x
  choice : k.x.chooseAt s.clk = some k.c
  reads : ∀ m ∈ k.ms, ∀ l ∈ k.c.active, takesPart k.x m.g m.ng l = true → readable k.x m.src l = true

/-- Does lane `l` perform a move? -/
def PlainScene.performs (k : PlainScene) (m : PlainMove) (l : Nat) : Bool := k.c.active.contains l && takesPart k.x m.g m.ng l

/-- The value that a move brings to a lane: every source is read before any write (R89). -/
def PlainScene.val (k : PlainScene) (s : State) (m : PlainMove) (l : Nat) : W64 :=
  readSrc s k.tm k.w.warp k.x (maskOf k.c.active) k.c.pc m.src l

/-- A place after the moves: slot by slot, each move that lane `l` performs puts what `f` says, from its destination and value. -/
def PlainScene.after {α : Type} (k : PlainScene) (s : State) (l : Nat) (f : RDst → W64 → Option α) (old : α) : α :=
  k.ms.foldl (fun v m => if k.performs m l then (f m.dst (k.val s m l)).getD v else v) old

/-- What a destination puts into register `n` (R79, R84). -/
def intoReg (n : Nat) (d : RDst) (v : W64) : Option W32 :=
  match d with
  | .reg m => if n = m then some (lo32 v) else none
  | .pair m => if n = m then some (lo32 v) else if n = m + 1 then some (hi32 v) else none
  | _ => none

/-- What a destination puts into guard `n` (R84). -/
def intoGuard (n : Nat) (d : RDst) (v : W64) : Option Bool :=
  match d with
  | .guard m => if n = m ∧ m ≠ 15 then some (v != 0) else none
  | _ => none

/-- What a destination puts into an operand or mode port. -/
def intoPort (u off : Nat) (d : RDst) (v : W64) : Option W64 :=
  match d with
  | .operand u2 o2 => if u = u2 ∧ off = o2 then some v else none
  | _ => none

/-- The flags after the moves (R81): of the last flags write, bits [4:0] of the highest lane that performs it, with the exceptions of
this clk. -/
def PlainScene.flags (k : PlainScene) (s : State) : BitVec 5 :=
  k.ms.foldl
    (fun v m =>
      if m.dst = .flags then
        match (k.c.active.filter (takesPart k.x m.g m.ng)).getLast? with
        | some l => (k.val s m l).setWidth 5 ||| (if k.x.excClk = s.clk then k.x.excNow else 0)
        | none => v
      else v)
    k.x.sticky

/-- The issue of a bundle of plain moves: every destination takes its value and nothing else changes. -/
structure MovesIssue (k : PlainScene) (s s' : State) (d : Nat) (sw : Bool) (x' : Warp) : Prop where
  warp : s'.warp? k.w = some x'
  device : DeviceKept s s'
  agenda : s'.agenda = s.agenda
  nextId : s'.nextId = s.nextId
  teams : ∀ j, j ≠ k.w.team → s'.team? j = s.team? j
  team : ∃ t', s'.team? k.w.team = some t' ∧ TeamKept k.tm t' ∧ t'.bars = k.tm.bars ∧ t'.jobs = k.tm.jobs ∧ t'.arb = k.tm.arb
  warps : ∀ j, j ≠ k.w.warp →
    s'.warp? { team := k.w.team, warp := j } =
      (s.warp? { team := k.w.team, warp := j }).map fun y => { y with boost := false }
  cores : ∀ c, CoreKept (s.core c) (s'.core c)
  regs : ∀ l n, (x'.lane l).reg n = k.after s l (intoReg n) ((k.x.lane l).reg n)
  guards : ∀ l n, n < 15 → l < 64 → x'.guard n l = k.after s l (intoGuard n) (k.x.guard n l)
  ports : ∀ l u off, off < 4 → x'.port u off l = k.after s l (intoPort u off) (k.x.port u off l)
  results : ∀ u off l, x'.elem u off l = k.x.elem u off l
  sticky : x'.sticky = k.flags s
  streams : ∀ j st, k.x.streams.find? j = some st → ∃ st', x'.streams.find? j = some st' ∧ { st' with reads := st.reads } = st ∧
    ∀ l, st'.reads.getD l 0 = st.reads.getD l 0 +
      if (k.ms.any fun m => decide (m.src = .stream j) && k.performs m l) && decide (streamIndex st l < st.count) then 1 else 0
  inner : InnerKept k.x x'
  stepped : SteppedOn k.c k.x x'
  waits : WaitsKept k.x x'
  fills : x'.fills = k.x.fills
  yieldTo : x'.yieldTo = k.x.yieldTo
  halted : x'.halted = k.x.halted
  committed : x'.committed = k.x.committed + 1
  delay : x'.delayTo = s.clk + 1 + (if k.x.sched then d else 0)
  marker : x'.marker = if sw then x'.unfilled else []

end Sys2Proof.Machine
end

