-- ==== Sys2Proof/Safety/Events.lean ====
section
/-! DEFINITION. The terms of the claims about steps of the device: what a step on one lane of an operation leaves as it was. -/

namespace Sys2Proof.Machine

/-! ## Holds and fills -/

/-- The steps that end a hold of a warp, with the clk that the hold runs to (spec/02_bundles_and_ports.md R96, spec/03_warp_sequencer.md
R143, spec/12_supervisor.md R435, R438). -/
def holdRows : List (Instr × (Warp → Nat) × (Warp → Nat → Warp)) :=
  [(.delayExpiry, Warp.delayTo, fun x v => { x with delayTo := v }), (.yieldExpiry, Warp.yieldTo, fun x v => { x with yieldTo := v }),
   (.permitBackoffExpiry, Warp.backoffTo, fun x v => { x with backoffTo := v }),
   (.handlerEntryDelayExpiry, Warp.entryTo, fun x v => { x with entryTo := v })]

/-- The step that makes a fill: by its unit and opcode (spec/04_lane_units.md R165, R170, R177). -/
def fillStep (f : Fill) : Instr :=
  if f.unit = 6 then .sfnComplete else if f.unit = 2 ∧ 9 ≤ f.opc then .divisionComplete else .laneResultFill

/-- A warp whose results come now: a fill's own, or those of a step. The lanes, guards, loops, operations and operands stay. -/
structure ResultsOnly (u : Nat) (x x' : Warp) : Prop where
  lanes : x'.lanes = x.lanes
  guards : x'.guards = x.guards
  halves : x'.halves = x.halves
  operands : ∀ u off l, off < 4 → x'.port u off l = x.port u off l
  sched : x'.sched = x.sched
  prio : x'.prio = x.prio
  w32 : x'.w32 = x.w32
  halted : x'.halted = x.halted
  delayTo : x'.delayTo = x.delayTo
  handlers : HandlersKept u x x'

/-! ## One lane of an operation -/

/-- The step's subject is one lane of an operation, which can go on: its numbers name one operation. -/
structure OnLane (s : State) (p : Pick) : Prop where
  pick : pickItem s = some p
  there : p.goesOn s = true
  alone : (p.warp.ops.map Op.id).Nodup
  lanes : (p.op.items.map Item.lane).Nodup
  kept : p.item.lost = false
  running : p.warp.halted = none

/-- The item of a lane of an operation of a warp. -/
def itemAt (x : Warp) (id l : Nat) : Option Item := (x.op? id).bind fun o => o.item? l

/-- The lane's part of its operation is over: its results are filled, where the operation is still the lane's last of its unit, and
nothing else of the warp but its read mark, its store queue and its transaction changes. -/
structure LaneEnds (p : Pick) (y y2 : Elem) (x' : Warp) : Prop where
  results : ∀ u off l, off = offY ∨ off = offY2 → x'.elem u off l =
    if u = p.op.unit ∧ l = p.item.lane ∧ (p.warp.unit u).last.find? l = some p.op.id then (if off = offY then y else y2)
    else p.warp.elem u off l
  items : ∀ id l, itemAt x' id l = if id = p.op.id ∧ l = p.item.lane then none else itemAt p.warp id l
  only : ResultsOnly p.op.unit p.warp x'
  fills : x'.fills = p.warp.fills
  sticky : x'.sticky = p.warp.sticky

/-- What a step on a lane leaves of the device: other teams, the clk, the loader, jobs and team store of the team. -/
structure StepKept (w : WRef) (s s' : State) : Prop where
  clk : s'.clk = s.clk
  ldr : s'.ldr = s.ldr
  inbox : s'.inbox = s.inbox
  issuing : s'.issuing = s.issuing
  subject : s'.subject = s.subject
  curCmd : s'.curCmd = s.curCmd
  teams : ∀ j, j ≠ w.team → s'.team? j = s.team? j
  warps : ∀ j, j ≠ w.warp → s'.warp? { team := w.team, warp := j } = s.warp? { team := w.team, warp := j }

/-- The bytes of memory stay. -/
def BytesKept (s s' : State) : Prop :=
  s'.mem.bytes = s.mem.bytes ∧ s'.mem.host = s.mem.host ∧ s'.mem.peer = s.mem.peer ∧ s'.mem.poison = s.mem.poison

/-- Team store and its poison stay. -/
def StoreKept (team : Nat) (s s' : State) : Prop :=
  ∀ t, s.team? team = some t → ∃ t', s'.team? team = some t' ∧ t'.tstore = t.tstore ∧ t'.tsPoison = t.tsPoison ∧ t'.arb = t.arb

/-- The bytes of memory but for a range at a place stay. -/
def BytesBut (q : Place) (n : Nat) (s s' : State) : Prop :=
  ∀ tgt dev a, ¬ (tgt = q.tgt ∧ (tgt = 2 → dev = q.dev) ∧ q.pa ≤ a ∧ a < q.pa + n) →
    tgt < 3 → (tgt = 2 → a < 2 ^ 40 ∧ q.pa + n ≤ 2 ^ 40) → s'.mem.byteAt tgt dev a = s.mem.byteAt tgt dev a

/-- One message more is at an endpoint, to be sent: its class, source and destination, what it is for. Nothing else of the engines changes
(spec/11_fabric.md R398 to R402). -/
def MessagePut (s s' : State) (cls : Nat) (src dst : Nat × Nat) (purpose : Purpose) : Prop :=
  (∃ m, s'.eng.fab.messages.find? s.nextId = some m ∧ m.cls = cls ∧ (m.src, m.srcEp) = src ∧ (m.dst, m.dstEp) = dst ∧
    m.purpose = purpose ∧ m.xd = false ∧ m.toSend = List.range m.nflit ∧ m.arrived = []) ∧
    (∀ j, j ≠ s.nextId → s'.eng.fab.messages.find? j = s.eng.fab.messages.find? j) ∧
    { s'.eng with fab := { s'.eng.fab with messages := s.eng.fab.messages } } = s.eng

/-- A number read from bytes, the lowest first (spec/05_memory_ports.md R198). -/
def lowFirst (bs : List Byte) : Nat := bs.foldr (fun b v => b.toNat + 256 * v) 0

/-- The value that a load fills: sign-extended for s8 and s16, else zero-extended (spec/05_memory_ports.md R198). -/
def loadedValue (n : Nat) (bs : List Byte) : W64 :=
  let v := lowFirst bs
  if n = 1 ∧ 2 ^ 7 ≤ v then BitVec.ofNat 64 (2 ^ 64 - 2 ^ 8 + v) else if n = 3 ∧ 2 ^ 15 ≤ v then BitVec.ofNat 64 (2 ^ 64 - 2 ^ 16 + v)
  else BitVec.ofNat 64 v

/-- The loads with their widths (spec/05_memory_ports.md R198, R200, R211, R215). -/
def loadRows : List (Nat × Nat) := [(0, 1), (1, 1), (2, 2), (3, 2), (4, 4), (5, 8), (10, 4), (30, 4), (32, 8), (35, 4)]

/-- The atomics: width, the value written from the old value and the operands, none where a compare fails (R198, R207). -/
def atomRows : List (Nat × Nat × (Nat → Nat → Nat → Option Nat)) :=
  let signed := fun v => if v < 2 ^ 31 then (v : Int) else (v : Int) - 2 ^ 32
  [(12, 4, fun o b _ => some ((o + b) % 2 ^ 32)), (13, 8, fun o b _ => some ((o + b) % 2 ^ 64)),
   (14, 4, fun o b _ => some (if signed o ≤ signed (b % 2 ^ 32) then o else b % 2 ^ 32)),
   (15, 4, fun o b _ => some (if signed o ≤ signed (b % 2 ^ 32) then b % 2 ^ 32 else o)), (16, 8, fun o b _ => some (min o b)),
   (17, 4, fun o b _ => some (o &&& (b % 2 ^ 32))), (18, 4, fun o b _ => some (o ||| (b % 2 ^ 32))),
   (19, 4, fun o b _ => some (o ^^^ (b % 2 ^ 32))), (20, 4, fun _ b _ => some (b % 2 ^ 32)), (21, 8, fun _ b _ => some b),
   (22, 4, fun o b c => if o = b % 2 ^ 32 then some (c % 2 ^ 32) else none), (23, 8, fun o b c => if o = b then some c else none),
   (24, 4, fun o b _ => some (addBits f32 envNear o (b % 2 ^ 32)).bits)]

/-- The condition of a `waitcmp` control word (spec/05_memory_ports.md R212): equal, different, at least, below. -/
def waitHolds (c v b : Nat) : Prop :=
  let b := if c / 4 % 2 = 1 then b else b % 2 ^ 32
  match c % 4 with
  | 0 => v = b
  | 1 => v ≠ b
  | 2 => b ≤ v
  | _ => v < b

end Sys2Proof.Machine
end

