-- ==== Sys2Proof/Safety/Steps.lean ====
section
/-! DEFINITION. The terms of the claims about translations, jobs, the fabric and the loader: what a step of the device leaves as it was. -/

namespace Sys2Proof.Machine

/-- A word made of fields, each at its lowest bit. -/
def fieldsWord (l : List (Nat × Nat)) : W64 := BitVec.ofNat 64 (l.foldl (fun v f => v + f.2 * 2 ^ f.1) 0)

/-- 1 for true. -/
def bit1 (p : Prop) [Decidable p] : Nat := if p then 1 else 0

/-! ## Translations -/

/-- The subject's lane of an operation waits on its translation; its numbers name one operation. -/
structure OnTrans (s : State) (p : Pick) : Prop where
  subject : s.subject = .trans (.op p.w p.op.id p.item.lane)
  warp : s.warp? p.w = some p.warp
  op : p.op ∈ p.warp.ops
  item : p.item ∈ p.op.items
  alone : (p.warp.ops.map Op.id).Nodup
  lanes : (p.op.items.map Item.lane).Nodup
  kept : p.item.lost = false
  running : p.warp.halted = none
  unparked : (p.warp.lane p.item.lane).wait = none
  here : s.onCore p.w.team = true

/-- The lane's part of its operation goes on as `i`; nothing else of the warp changes but, where `y` says so, its results. -/
structure LaneMoves (p : Pick) (i : Item) (y : Option Elem) (x' : Warp) : Prop where
  results : ∀ u off l, off = offY ∨ off = offY2 → x'.elem u off l = match y with
    | some e => if u = p.op.unit ∧ l = p.item.lane ∧ (p.warp.unit u).last.find? l = some p.op.id then e else p.warp.elem u off l
    | none => p.warp.elem u off l
  items : ∀ id l, itemAt x' id l = if id = p.op.id ∧ l = p.item.lane then some i else itemAt p.warp id l
  only : ResultsOnly p.op.unit p.warp x'
  fills : x'.fills = p.warp.fills
  sticky : x'.sticky = p.warp.sticky
  sq : x'.sq = p.warp.sq

/-- What a step on a lane leaves of the device but for the loader's records. -/
structure StepAside (w : WRef) (s s' : State) : Prop where
  clk : s'.clk = s.clk
  inbox : s'.inbox = s.inbox
  issuing : s'.issuing = s.issuing
  subject : s'.subject = s.subject
  curCmd : s'.curCmd = s.curCmd
  teams : ∀ j, j ≠ w.team → s'.team? j = s.team? j
  warps : ∀ j, j ≠ w.warp → s'.warp? { team := w.team, warp := j } = s.warp? { team := w.team, warp := j }

/-- Every translation of an address of a context on a core gives the place under `pg`, which gives the place of each page. -/
def TranslatesTo (s : State) (core ctx : Nat) (wr : Bool) (pg : Nat → Place) (a : Nat) : Prop :=
  ∀ r ∈ answers s core ctx a wr, r = .inr { pg (a / 4096) with pa := (pg (a / 4096)).pa + a % 4096 }

/-- The fault ring of a context: its first byte and its number of entries (spec/05_memory_ports.md R229, spec/13_loader.md R480). -/
def faultRingOf (s : State) (ctx : Nat) : Nat × Nat :=
  ((s.cfgWord ctx 0).toNat / 2 ^ 12 * 2 ^ 12, 2 ^ ((s.cfgWord ctx 0).toNat % 2 ^ 4))

/-- Has the fault ring of a context no room (spec/05_memory_ports.md R229)? -/
def RingIsFull (s : State) (ctx : Nat) (c : Context) : Prop :=
  (s.mem.word ((faultRingOf s ctx).1 + 32 * (faultRingOf s ctx).2)).toNat + (faultRingOf s ctx).2 ≤ c.fqPos

/-- The four words of the entry of a fault of a lane of `mem0` or `mem1` (spec/05_memory_ports.md R230). -/
def memFaultWords (s : State) (p : Pick) (t : Team) (c : Context) (kind : Nat) (s2 wr : Bool) (va req : Nat) : List W64 :=
  [fieldsWord [(61, kind), (60, bit1 (req ≠ 0)), (59, bit1 (s2 = true)), (58, bit1 (wr = true)), (0, va % 2 ^ 57)],
   fieldsWord [(48, req), (32, t.ctx % 2 ^ 16), (31, bit1 (c.func ≠ 64)), (25, if c.func = 64 then 0 else c.func), (17, t.core),
     (15, p.warp.quad), (11, p.warp.slot), (10, bit1 (p.op.unit = 9)), (4, p.op.opc)],
   BitVec.ofNat 64 (2 ^ p.item.lane),
   fieldsWord [(48, (c.fqPos / (faultRingOf s t.ctx).2 + 1) % 2), (0, s.clk % 2 ^ 48)]]

/-- An entry has gone to a fault ring: its words stand at its place, nothing else of memory changes, and it is counted. -/
structure EntryWritten (s s' : State) (t : Team) (c : Context) (words : List W64) : Prop where
  words : ∀ k, k < 4 → s'.mem.word ((faultRingOf s t.ctx).1 + 32 * (c.fqPos % (faultRingOf s t.ctx).2) + 8 * k) = words.getD k 0
  bytes : ∀ tgt dev a, ¬ (tgt = 0 ∧ (faultRingOf s t.ctx).1 + 32 * (c.fqPos % (faultRingOf s t.ctx).2) ≤ a ∧
    a < (faultRingOf s t.ctx).1 + 32 * (c.fqPos % (faultRingOf s t.ctx).2) + 32) → s'.mem.byteAt tgt dev a = s.mem.byteAt tgt dev a
  count : s'.context? t.ctx = some { c with fqPos := c.fqPos + 1 }
  others : ∀ k, k ≠ t.ctx → s'.context? k = s.context? k

/-! ## Jobs -/

/-- The step's subject is a job of a resident team; its number names one job. -/
structure OnJob (s : State) (team : Nat) (t : Team) (b : Job) : Prop where
  subject : s.subject = .pair team b.id
  team : s.team? team = some t
  status : t.status = .resident
  alive : t.dead = false
  job : b ∈ t.jobs
  alone : (t.jobs.map Job.id).Nodup
  core : b.core = t.core

/-- A step on a job: the job goes on as `b'`, the team's warps as `ws`; other jobs and teams stay. -/
structure JobMoves (team : Nat) (t : Team) (b b' : Job) (ws : List Warp) (s s' : State) : Prop where
  job : ∃ t', s'.team? team = some t' ∧ t'.jobs = t.jobs.map (fun x => if x.id = b.id then b' else x) ∧ t'.warps = ws ∧
    t'.bars = t.bars ∧ t'.pins = t.pins ∧ t'.scale = t.scale ∧ t'.status = t.status ∧ t'.core = t.core
  teams : ∀ j, j ≠ team → s'.team? j = s.team? j
  clk : s'.clk = s.clk
  subject : s'.subject = s.subject

/-- A job is over: it is gone, and its lanes fill as `y` and `y2` say where its trigger is still their last; other warps and teams stay. -/
structure JobEnds (team : Nat) (t : Team) (b : Job) (y : Nat → Elem) (y2 : Elem) (s s' : State) : Prop where
  job : ∃ t', s'.team? team = some t' ∧ t'.jobs = t.jobs.filter (fun x => decide (x.id ≠ b.id)) ∧ t'.bars = t.bars ∧ t'.tstore = t.tstore ∧
    (∀ j, j ≠ b.warp → t'.warps[j]? = t.warps[j]?) ∧
    ∀ x, t.warps[b.warp]? = some x → ∃ x', t'.warps[b.warp]? = some x' ∧ ResultsOnly b.unit x x' ∧ x'.ops = x.ops ∧ x'.fills = x.fills ∧
      ∀ u off l, off = offY ∨ off = offY2 → x'.elem u off l =
        if u = b.unit ∧ l < 64 ∧ b.lanes.getLsbD l = true ∧ (x.unit u).last.find? l = some b.trig then (if off = offY then y l else y2)
        else x.elem u off l
  teams : ∀ j, j ≠ team → s'.team? j = s.team? j
  bytes : BytesKept s s'
  clk : s'.clk = s.clk

/-- The place of an address, where `pg` gives the place of each page. -/
def placeUnder (pg : Nat → Place) (a : Nat) : Place := { pg (a / 4096) with pa := (pg (a / 4096)).pa + a % 4096 }

/-- A byte that a job sees: of team store, or of memory under the writes of its core that their homes have not performed
(spec/01_engines_together.md R59). -/
def jobSees (s : State) (t : Team) (ts : Bool) (pg : Nat → Place) (a : Nat) : Byte :=
  if ts then t.tstore.getD a 0 else (openByte s t.core (placeUnder pg a)).getD (s.mem.byte (placeUnder pg a).pa)

/-- A byte of team store or memory at an address of a job. -/
def holdsAt (s : State) (team : Nat) (ts : Bool) (pg : Nat → Place) (a : Nat) : Option Byte :=
  if ts then (s.team? team).map fun t => t.tstore.getD a 0 else some (s.mem.byte (placeUnder pg a).pa)

/-- An address translates, for a read, to plain local memory without poison. -/
def ReadsPlain (s : State) (t : Team) (pg : Nat → Place) (a : Nat) : Prop :=
  TranslatesTo s t.core t.ctx false pg a ∧ (pg (a / 4096)).tgt = 0 ∧ (pg (a / 4096)).ver = false ∧ poisonedAt s (placeUnder pg a) 1 = false

/-- An address list of a job can be read: it translates to plain local memory whose lines have come to the engine, or lies in team store, and
bears no poison. -/
def Readable (s : State) (t : Team) (b : Job) (ts : Bool) (pg : Nat → Place) (l : List Nat) : Prop :=
  ∀ a ∈ l, if ts then t.tsPoisoned a 1 = false else ReadsPlain s t pg a ∧ b.fetch.getD (placeUnder pg a).line false = true

/-- An address list of a job can be written: it translates to plain local memory, each address to its own byte, or lies in team store. -/
def Writable (s : State) (t : Team) (ts : Bool) (pg : Nat → Place) (l : List Nat) : Prop :=
  l.Nodup ∧ (ts = false →
    (∀ a ∈ l, TranslatesTo s t.core t.ctx true pg a ∧ (pg (a / 4096)).tgt = 0 ∧ (pg (a / 4096)).ver = false) ∧
    ∀ a ∈ l, ∀ b ∈ l, (pg (a / 4096)).pa + a % 4096 = (pg (b / 4096)).pa + b % 4096 → a = b)

/-- A job's write of a byte of local memory is on its way to its home. -/
def OnTheWay (s : State) (b : Job) (a : Nat) (v : Byte) : Prop :=
  ∃ m ∈ s.mem.writes.vals, m.warp = none ∧ m.op = b.id ∧ m.core = b.core ∧ m.tgt = 0 ∧ m.performed = false ∧ (a, v) ∈ m.bytes

/-- After a step of a job the bytes of `l` stand at their addresses, or, of memory by aligned 4-byte words, are on their way there
(spec/01_engines_together.md R60); no other byte of team store or memory has changed. -/
structure BytesPut (s s' : State) (team : Nat) (b : Job) (ts : Bool) (pg : Nat → Place) (l : List (Nat × Byte)) : Prop where
  put : ∃ now : Nat → Prop, ∀ e ∈ l, (ts = true ∨ now ((placeUnder pg e.1).pa / 4) → holdsAt s' team ts pg e.1 = some e.2) ∧
    (ts = false → ¬ now ((placeUnder pg e.1).pa / 4) →
      holdsAt s' team false pg e.1 = holdsAt s team false pg e.1 ∧ OnTheWay s' b (placeUnder pg e.1).pa e.2)
  tstore : ∀ t t', s.team? team = some t → s'.team? team = some t' → ∀ a, (ts = false ∨ a ∉ l.map Prod.fst) → t'.tstore.getD a 0 = t.tstore.getD a 0
  mem : ∀ a, (ts = true ∨ a ∉ l.map (fun e => (placeUnder pg e.1).pa)) → s'.mem.byte a = s.mem.byte a
  host : s'.mem.host = s.mem.host
  peer : s'.mem.peer = s.mem.peer

/-! ## The fabric (spec/11_fabric.md R398, R400, R408) -/

/-- Has a router a mesh output: 0 N, 1 E, 2 S, 3 W? The mesh has rows of 8 routers, 72 in all. -/
def meshHas (r out : Nat) : Bool :=
  match out with
  | 0 => decide (8 ≤ r)
  | 1 => decide (r % 8 < 7)
  | 2 => decide (r < 64)
  | _ => decide (0 < r % 8)

/-- The router that an output leads to, and the input by which a flit comes in there. -/
def meshTo (r out : Nat) : Nat × Nat :=
  match out with
  | 0 => (r - 8, 2)
  | 1 => (r + 1, 3)
  | 2 => (r + 8, 0)
  | _ => (r - 1, 1)

/-- The outputs that shorten the way to a router, the X output first. -/
def meshWays (r dst : Nat) : List Nat :=
  (if r % 8 < dst % 8 then [1] else []) ++ (if dst % 8 < r % 8 then [3] else []) ++ (if r / 8 < dst / 8 then [2] else []) ++
    if dst / 8 < r / 8 then [0] else []

/-- The step's subject is a router at which one flit arrives, the last of its message, which is at its endpoint there: a link endpoint or one
that keeps no slots, whose port is free (spec/11_fabric.md R400, R408, R502). -/
structure LastFlit (s : State) (r : Nat) (f : Flit) (m : Message) : Prop where
  subject : s.subject = .num r
  alone : s.eng.fab.flits.filter (fun g => decide (g.router = r)) = [f]
  message : s.message? f.msg = some m
  dest : m.dst = r
  link : m.xd = true → m.ddev = s.deviceId ∧ r = linkHome m.sdev ∧ takesFlit s r m = true
  port : (if m.xd then 1 else m.dstEp / 4) ∉ (s.router r).eject
  slots : m.core = none
  whole : m.arrived.length + 1 = m.nflit

/-- An access from outside is noted under a number and sent on its way; `sent` is what its message holds besides. -/
structure VisitSent (s s' : State) (a : OutAccess) (sent : Message → Prop) : Prop where
  noted : s'.ldr = { s.ldr with outs := s.ldr.outs.insert s.nextId a }
  message : ∃ m ∈ s'.eng.fab.messages.vals, m.purpose = .access s.nextId ∧ m.toSend = List.range m.nflit ∧ m.arrived = [] ∧ sent m
  teams : s'.teams = s.teams
  mem : s'.mem = s.mem

/-- A step of the fabric: teams, memory, the loader and the clk stay. -/
structure FabricOnly (s s' : State) : Prop where
  teams : s'.teams = s.teams
  mem : s'.mem = s.mem
  ldr : s'.ldr = s.ldr
  clk : s'.clk = s.clk
  homes : s'.eng.aces = s.eng.aces ∧ s'.eng.tell = s.eng.tell ∧ s'.eng.deques = s.eng.deques ∧ s'.eng.snap = s.eng.snap

end Sys2Proof.Machine
end

