-- ==== Sys2Proof/Safety/Commands.lean ====
section
/-! DEFINITION. The terms of the claims about the loader's commands: when one acts, what one leaves as it was, and the blocks that
spec/13_loader.md lays out. -/

namespace Sys2Proof.Machine

/-! ## Turns of commands (spec/13_loader.md R470, R471, R481 to R484) -/

/-- The command of the turn: its entry is in the journal and under way, and nothing before it holds it back. -/
structure OnCommand (s : State) (a : Acting) : Prop where
  cur : s.curCmd = some a.j
  entry : s.ldr.journal.find? a.j = some a.run
  cmd : a.cmd = cmdOfBytes a.run.entry
  under : a.run.state = .accepted ∨ a.run.state = .running
  may : mayAct s a.j a.run = true

/-- The context that a command names. -/
def ctxNamed (a : Acting) : Nat := a.cmd.ctx.toNat

/-- Does the function of a command own the context that it names? -/
def Owns (s : State) (a : Acting) : Prop := ∃ c, s.context? (ctxNamed a) = some c ∧ c.func = a.run.func

/-- A command that names a context of its function. -/
structure OnContext (s : State) (a : Acting) (c : Context) : Prop where
  command : OnCommand s a
  context : s.context? (ctxNamed a) = some c
  own : c.func = a.run.func

/-- A command of a function that names no context. -/
structure OnFunction (s : State) (a : Acting) : Prop where
  command : OnCommand s a
  none : a.cmd.ctx = 0

/-- The command has taken effect with a status and CUR0, as its entry says; the journal's other entries stay. -/
structure CmdDone (a : Acting) (s s' : State) (status cur0 : Nat) : Prop where
  entry : s'.ldr.journal.find? a.j = some { a.run with state := .done status, cur0 := cur0, info := [] }
  others : ∀ j, j ≠ a.j → s'.ldr.journal.find? j = s.ldr.journal.find? j

/-- The command is running, and remembers numbers. -/
structure CmdRuns (a : Acting) (s s' : State) (info : List Nat) : Prop where
  entry : s'.ldr.journal.find? a.j = some { a.run with state := .running, info := info }
  others : ∀ j, j ≠ a.j → s'.ldr.journal.find? j = s.ldr.journal.find? j

/-- A command ends with a status and CUR0 0, and nothing but its entry changes. -/
def EndsAlone (i : Instr) (a : Acting) (s : State) (status : Nat) : Prop :=
  ∃ s', exec i s = .next s' ∧ CmdDone a s s' status 0 ∧ s' = { s with ldr := { s.ldr with journal := s'.ldr.journal } }

/-- A command waits, and nothing but its entry changes. -/
def RunsAlone (i : Instr) (a : Acting) (s : State) (info : List Nat) : Prop :=
  ∃ s', exec i s = .next s' ∧ CmdRuns a s s' info ∧ s' = { s with ldr := { s.ldr with journal := s'.ldr.journal } }

/-- A step of the loader on its own data: teams, cores, memory, engines, the agenda and the clk stay. -/
structure LoaderOnly (s s' : State) : Prop where
  teams : s'.teams = s.teams
  cores : s'.cores = s.cores
  mem : s'.mem = s.mem
  eng : s'.eng = s.eng
  agenda : s'.agenda = s.agenda
  clk : s'.clk = s.clk

/-- The contexts but one stay. -/
def OtherContexts (n : Nat) (s s' : State) : Prop := ∀ m, m ≠ n → s'.context? m = s.context? m

/-- Bytes stand in local memory from an address on, and no other byte of it has changed. -/
def BytesAt (s s' : State) (a : Nat) (bs : List Byte) : Prop :=
  ∀ b, s'.mem.byte b = if a ≤ b ∧ b < a + bs.length then bs.getD (b - a) 0 else s.mem.byte b

/-- Words stand in local memory from an address on, and no byte outside them has changed. -/
def WordsAt (s s' : State) (a : Nat) (ws : List W64) : Prop :=
  (∀ k, k < ws.length → s'.mem.word (a + 8 * k) = ws.getD k 0) ∧
    ∀ b, (b < a ∨ a + 8 * ws.length ≤ b) → s'.mem.byte b = s.mem.byte b

/-- No page is versioned. -/
def NoVersions (s : State) : Prop := s.eng.snap.chains.entries = []

/-- The words of a block in memory. -/
def blockAt (s : State) (a : W64) : List W64 := (List.range 8).map fun k => s.mem.word (a.toNat + 8 * k)

/-- Field of a word: `n` bits from bit `lo` on. -/
def fieldAt (l : List W64) (k lo n : Nat) : Nat := (l.getD k 0).toNat / 2 ^ lo % 2 ^ n

/-- The commands of a context, of a function, of the physical function and of a context's debugger. -/
def contextCommands : List Instr :=
  [.ctxConfig, .ctxDestroy, .grant, .grantRevoke, .switchPreempt, .switchResume, .ctxExport, .ctxImport, .loadImage, .unloadImage,
   .reinstall, .launch, .inval, .pageMove, .verOpen, .debugTake, .debugGive, .debugHalt, .debugResume, .debugRead, .debugWrite, .debugLog]
def functionCommands : List Instr :=
  [.ctxCreate, .devConfigDevice, .devConfigPartition, .devConfigHostWindow, .devConfigPeerWindow, .queryDeviceMap, .queryPartition,
   .queryEvsel, .pmcSet, .pageReply]
def physicalCommands : List Instr := [.devConfigDevice, .devConfigPartition, .devConfigHostWindow, .devConfigPeerWindow]
def holderCommands : List Instr := [.debugGive, .debugHalt, .debugResume, .debugRead, .debugWrite, .debugLog]

/-! ## Blocks (R473 to R475, R480, R503) -/

/-- A configuration block within its ranges (R480). -/
def CfgLegal (b : List W64) : Prop :=
  let f := fieldAt b
  (f 0 4 8 = 0 ∧ 8 ≤ f 0 0 4) ∧ (f 1 4 8 = 0 ∧ (f 1 12 52 = 0 ∨ 8 ≤ f 1 0 4)) ∧ f 2 0 3 = 0 ∧
    (f 3 5 7 = 0 ∧ 7 ≤ f 3 0 5 ∧ f 3 0 5 ≤ 20) ∧ (∀ k, k < 16 → f 4 (32 + 2 * k) 2 ≠ 3) ∧
    (10 ≤ f 4 27 5 ∧ f 4 27 5 ≤ 30) ∧ (10 ≤ f 4 22 5 ∧ f 4 22 5 ≤ 30) ∧ (16 ≤ f 4 16 6 ∧ f 4 16 6 ≤ 36) ∧
    (12 ≤ f 4 10 6 ∧ f 4 10 6 ≤ 32) ∧ f 4 2 8 = 0 ∧ f 6 0 3 = 0 ∧ f 7 0 12 = 0

/-- A device block that may take effect (R473). -/
def DeviceLegal (s : State) (b : List W64) : Prop :=
  let f := fieldAt b
  let id := f 0 0 19
  let heap := fun (l : List W64) => (fieldAt l 1 21 31 * 2 ^ 21, fieldAt l 2 0 32 * 2 ^ 21)
  (f 0 41 23 = 0 ∧ 1 ≤ f 0 33 8 ∧ f 0 33 8 ≤ 128 ∧ 1 ≤ f 0 26 7 ∧ f 0 26 7 ≤ 64 ∧ 1 ≤ f 0 19 7 ∧ f 0 19 7 ≤ 64) ∧
    (id % 64 < f 0 19 7 ∧ id / 64 % 64 < f 0 26 7 ∧ id / 4096 < f 0 33 8) ∧ (f 1 52 12 = 0 ∧ f 1 0 21 = 0) ∧
    (f 2 37 27 = 0 ∧ 12 ≤ f 2 32 5 ∧ f 2 32 5 ≤ 24) ∧
    (f 3 32 32 = 0 ∧ ∀ k, k < 4 → f 3 (8 * k + 4) 3 = 0 ∧ f 3 (8 * k) 4 ≤ 11) ∧ (f 5 48 16 = 0 ∧ b.getD 6 0 = 0 ∧ b.getD 7 0 = 0) ∧
    (b.getD 0 0 = s.ldr.device.getD 0 0 ∨ s.ldr.contexts.entries = []) ∧ (heap b = heap s.ldr.device ∨ NoVersions s) ∧
    (heap b).1 + (heap b).2 ≤ 768 * 2 ^ 30 ∧ s.clk % 2 ^ 48 ≤ f 5 0 48

/-- The cores of a partition block. -/
def coresNamed (b : List W64) : List Nat := (List.range 256).filter fun n => (b.getD (1 + n / 64) 0).getLsbD (n % 64)

/-- A partition block that may take effect (R474). -/
def PartitionLegal (s : State) (b : List W64) : Prop :=
  let f := fieldAt b
  let n := f 0 0 7
  let others := fun (e : Nat × Func) => e ∈ s.ldr.funcs.entries ∧ e.1 ≠ n
  (f 0 12 52 = 0 ∧ f 0 7 1 = 0 ∧ f 0 8 4 ≤ 8 ∧ n ≤ 64 ∧ f 5 52 12 = 0 ∧ f 5 0 12 = 0 ∧ f 6 33 31 = 0 ∧ b.getD 7 0 = 0) ∧
    (∀ c ∈ coresNamed b, c ∉ s.ldr.grade.disabled ∧ ∀ e, others e → c ∉ e.2.cores) ∧
    (∀ l ∈ s.ldr.launches.vals, s.funcOf l.ctx = n → l.state ≠ .running) ∧ (∀ t ∈ s.teams.vals, s.funcOf t.ctx ≠ n) ∧
    (n = 64 ↔ f 5 12 40 = 0) ∧ f 6 0 16 + f 6 16 17 ≤ 65536 ∧
    ∀ e, others e → ¬ (f 6 0 16 < e.2.asid0 + e.2.asidN ∧ e.2.asid0 < f 6 0 16 + f 6 16 17)

/-- Do two ranges have a number in common: neither ends where the other begins or before? -/
def Meet (a n b m : Nat) : Prop := a < b + m ∧ b < a + n

/-- A host-window block that may take effect (R475). -/
def HostWindowLegal (s : State) (b : List W64) : Prop :=
  let f := fieldAt b
  let span := fun (l : List W64) => (fieldAt l 1 20 44 * 2 ^ 20, fieldAt l 2 0 32 * 2 ^ 20)
  (f 0 15 49 = 0 ∧ f 0 8 7 ≤ 64 ∧ f 1 0 20 = 0 ∧ f 2 32 32 = 0 ∧ f 3 52 12 = 0 ∧ f 3 0 20 = 0 ∧ ∀ k, 4 ≤ k → k < 8 → b.getD k 0 = 0) ∧
    (f 0 7 1 = 1 →
      1 ≤ f 2 0 32 ∧ (if f 0 8 7 = 64 then 2 ^ 24 else 2 ^ 20) ≤ (span b).1 ∧
        f 3 20 32 * 2 ^ 20 + (span b).2 ≤ Config.reservedBase ∧
        ∀ e ∈ (s.func (f 0 8 7)).windows.entries, e.1 ≠ f 0 0 6 → fieldAt e.2 0 7 1 = 1 →
          ¬ Meet (span b).1 (span b).2 (span e.2).1 (span e.2).2)

/-- A peer-window block that may take effect (R503). -/
def PeerWindowLegal (s : State) (b : List W64) : Prop :=
  let f := fieldAt b
  let span := fun (l : List W64) => (fieldAt l 1 20 32 * 2 ^ 20, fieldAt l 2 0 32 * 2 ^ 20)
  (f 0 8 56 = 0 ∧ f 1 52 12 = 0 ∧ f 1 0 20 = 0 ∧ f 2 32 32 = 0 ∧ ∀ k, 3 ≤ k → k < 8 → b.getD k 0 = 0) ∧
    (f 0 7 1 = 1 →
      1 ≤ f 2 0 32 ∧ (span b).1 + (span b).2 ≤ Config.reservedBase ∧
        ∀ e ∈ s.ldr.peerWins.entries, e.1 ≠ f 0 0 6 → fieldAt e.2 0 7 1 = 1 → ¬ Meet (span b).1 (span b).2 (span e.2).1 (span e.2).2)

/-! ## Debugging (R476) -/

/-- The command names a halted group whose only warp of the number given is a warp of a resident team. -/
structure OnItem (s : State) (a : Acting) (g : HaltGroup) (r : WRef) (t : Team) (x : Warp) : Prop where
  group : s.ldr.halts.find? a.cmd.w2.toNat = some g
  context : g.ctx = ctxNamed a
  halted : g.halted = true
  warp : g.warps.filter (fun w => decide (w.warp = a.cmd.w3.toNat / 2 ^ 48 % 16)) = [r]
  team : s.team? r.team = some t
  there : s.warp? r = some x
  reserved : a.cmd.w3.toNat / 2 ^ 52 % 16 = 0 ∧ a.cmd.w3.toNat / 2 ^ 46 % 4 = 0 ∧ a.cmd.w3.toNat / 2 ^ 32 % 256 = 0

end Sys2Proof.Machine
end

