-- ==== Sys2Proof/Safety/Whole.lean ====
section
/-! DEFINITION. The terms of the claims about the machine as a whole: the form of a bundle's bits, the choice of a quad, the rung of a
trap, and what taking it and returning from it leave. -/

namespace Sys2Proof.Machine

/-! ## Bits of a bundle (spec/02_bundles_and_ports.md R73 to R77, R91, R92) -/

/-- Slot `k` of the 256 bits of a bundle. -/
def slotBits (v k : Nat) : Nat := v / 2 ^ (16 + 40 * k) % 2 ^ 40

/-- A class-2 failure of the header alone. -/
def HeaderFails (v : Nat) : Prop :=
  v % 4 ≠ 0 ∨ v / 2 ^ 4 % 8 = 7 ∨ v / 2 ^ 2 % 4 = 3 ∨ 6 ≤ v / 2 ^ 9 % 8 ∨ (v / 2 ^ 9 % 8 ≠ 0 ∧ v / 2 ^ 7 % 4 = 0) ∨
    (v / 2 ^ 2 % 4 ≠ 0 ∧ v / 2 ^ 4 % 8 = 6)

/-- The source of slot `k` is none that R75 allows under the mode of slot 5. -/
def SourceFails (v k : Nat) : Prop :=
  let kind := slotBits v k / 2 ^ 20 % 4
  let src := slotBits v k % 2 ^ 20
  kind = 3 ∨ (kind = 2 ∧ (v / 2 ^ 2 % 4 ≠ 1 ∨ src ≠ 0)) ∨ (kind = 0 ∧ 2 ^ 13 ≤ src)

/-- A class-2 failure of slot `k`: not zero where it is unused, reserved bits of a constant or configuration word, a bad source, or a
collision with another slot. -/
def SlotFails (v k : Nat) : Prop :=
  let n := v / 2 ^ 4 % 8
  let m5 := v / 2 ^ 2 % 4
  (n ≤ k ∧ slotBits v k ≠ 0 ∧ ¬ (k = 5 ∧ m5 ≠ 0)) ∨ (k = 5 ∧ m5 = 1 ∧ 2 ^ 32 ≤ slotBits v 5) ∨ (k = 5 ∧ m5 = 2 ∧ 2 ^ 36 ≤ slotBits v 5) ∨
    (k < n ∧ SourceFails v k) ∨
    (k < n ∧ ∃ j, j < n ∧ j ≠ k ∧ collide (slotMove (slotBits v k) (.imm 0)) (slotMove (slotBits v j) (.imm 0)) = true)

/-! ## The choice of a quad (spec/03_warp_sequencer.md R149) -/

/-- The warps among which R149 picks: those that have waited 512 clk, else those with BOOST, else those of the highest priority. -/
def pickPool (cs : List Cand) : List Cand :=
  let waited := cs.filter fun c => decide (512 ≤ c.readyWait)
  let boosted := cs.filter fun c => c.boost
  if waited ≠ [] then waited else if boosted ≠ [] then boosted else cs.filter fun c => cs.all fun d => decide (d.prio ≤ c.prio)

/-! ## Traps (spec/12_supervisor.md R431 to R445) -/

/-- May a trap of a warp be served at rung `r`: at or above its entry rung, above the handler that raises it, and where a vector stands? -/
def RungFits (s : State) (t : Team) (x : Warp) (q : TrapReq) (r : Nat) : Prop :=
  q.from_ ≤ r ∧ (q.code ≠ 0x3F → entryRung s t.ctx q.code ≤ r) ∧ (∀ h rest, x.handlers = h :: rest → h.rung < r) ∧
    (r ≤ 1 → tvec s t.ctx q.pc r ≠ 0)

/-- The rung that a trap enters (R433). -/
def EntersAt (s : State) (t : Team) (x : Warp) (q : TrapReq) (r : Nat) : Prop :=
  RungFits s t x q r ∧ ∀ j, j < r → ¬ RungFits s t x q j

/-- The units whose ports a handler's bank holds (R435): int0, int1, cmp0, mem0, seq and sup. -/
def handlerUnits : List Nat := [0, 1, 5, 8, 16, 17]

/-- The scene of a trap: the warp that it concerns, whose context has no trace ring. -/
structure OnTrap (s : State) (w : WRef) (q : TrapReq) (t : Team) (x : Warp) : Prop where
  team : s.team? w.team = some t
  warp : s.warp? w = some x
  lanes : ∀ l ∈ q.lanes, l < x.lanes.length
  noRing : (s.cfgWord t.ctx 3).toNat < 2 ^ 12

/-- The trap record (R444). -/
structure RecordOf (s : State) (q : TrapReq) (r : Nat) (d : TrapRec) : Prop where
  code : d.code = q.code
  rung : d.rung = r
  cls : d.cls = q.cls
  faultMask : d.faultMask = q.faultMask
  laneMask : d.laneMask = maskOf q.lanes
  clk : d.clk = s.clk
  detail : d.detail = q.detail
  timeoutRung : d.timeoutRung = q.rungOut

/-- The handler that a delivery starts: the trap PCs, the banked guards and ports, the record. -/
structure HandlerOf (s : State) (q : TrapReq) (x : Warp) (r : Nat) (h : Handler) : Prop where
  rung : h.rung = r
  lanes : h.lanes = maskOf q.lanes
  held : h.held = ~~~maskOf q.lanes
  tpc : ∀ l ∈ q.lanes, h.tpc.find? l = some (if q.post then (x.lane l).pc else q.pc)
  guards : h.guards = x.guards
  ports : ∀ u, h.ports.find? u = if u ∈ handlerUnits then x.ports.find? u else none
  poison : ∀ e, e ∈ h.poison ↔ e ∈ x.poison ∧ ∃ u ∈ handlerUnits, unitOf e.1 = some u
  trap : RecordOf s q r h.trap
  reads : h.reads = q.reads
  served : h.served = 0

/-- Only the warp and its core change: other warps, teams and cores stay, and so does all else of the device. -/
structure WarpAndCore (w : WRef) (t : Team) (s s' : State) : Prop where
  rest : ∃ cs ts, s' = { s with cores := cs, teams := ts }
  teams : ∀ j, j ≠ w.team → s'.team? j = s.team? j
  team : ∃ t', s'.team? w.team = some t' ∧ { t' with warps := t.warps } = t
  warps : ∀ j, j ≠ w.warp → s'.warp? { team := w.team, warp := j } = s.warp? { team := w.team, warp := j }
  cores : ∀ c, c ≠ t.core → s'.core c = s.core c

/-- The contexts that a trap at a rung of system software stops: its own, its function's, or all (R432). -/
def stopsContext (s : State) (r ctx c : Nat) : Prop := if r = 2 then c = ctx else if r = 3 then s.funcOf c = s.funcOf ctx else True

end Sys2Proof.Machine
end

