-- ==== Sys2Proof/Certificates/Slice0/Obligations.lean ====
section
/-! DEFINITION. The statements of slice 0. -/

open Sys2Proof Sys2Proof.Machine

/-! ## The lane function units -/

/-- R166 to R168: a trigger of int0 or int1 with .m zero, and for lea a count of at most 3, fills the table's value one clk later. -/
def Obligations.IntegerOperationsFillAfterOneClk : Prop :=
  ∀ (s : State) (u : Fin 2) (t : Trig) (n : Nat) (i : Instr) (f : W64 → W64 → W64 → W64 × W64) (k : Scene),
    (intRows u t)[n]? = some (i, f) → k.Of s t u n → (∀ l ∈ k.ls, k.x.port u offM l = 0) →
    (n = 29 → ∀ l ∈ k.ls, (k.val s l).toNat ≤ 3) →
    ∃ s' x', exec i s = .next s' ∧ LaneIssue k s s' u n x' ∧
      x'.fills = k.x.fills ++
        [{ id := s.nextId, unit := u, opc := n, due := s.clk + 1,
           res := k.ls.map fun l =>
             let v := f (k.arg s u n offA l) (k.arg s u n offB l) (k.arg s u n offC l)
             plainLane l v.1 v.2 }]

/-- R120, R125, R126, R168, R199: a lea with a count above 3, a memory access off its width (after its modes and a waitcmp control word pass),
a transfer to an address off a bundle boundary, a ninth call and a pop of an empty stack raise their exceptions precisely, for the lanes that
fail, and nothing of the bundle commits. -/
def Obligations.OperandChecksTrapPrecisely : Prop :=
  (∀ (s : State) (u : Fin 2) (t : Trig) (k : Scene), k.Of s t u 29 → (∀ l ∈ k.ls, k.x.port u offM l = 0) →
    (∃ l ∈ k.ls, 3 < (k.val s l).toNat) →
    exec (.intLea u t) s =
      .next (takeTrap s k.w
        (TrapReq.pre 0x03 8 1 ((List.range 64).filter fun l => decide (l ∈ k.ls ∧ 3 < (k.val s l).toNat)) k.c.pc))) ∧
  (∀ (s : State) (u : Fin 2) (t : Trig) (n wd : Nat) (i : Instr) (kind : MemKind) (k : Scene),
    (memRows u t)[n]? = some (i, wd, kind) → k.Of s t (8 + u) n →
    (∀ l ∈ k.ls, memModeOk n kind (k.x.port (8 + u) offM l) = true ∧ (n = 26 → (k.arg s (8 + u) n offC l).toNat < 8)) →
    (∀ l ∈ k.ls, (k.x.unit (8 + u)).must.getLsbD l = false) →
    (∃ l ∈ k.ls, (k.arg s (8 + u) n offA l).toNat % memBytes n wd (k.arg s (8 + u) n offC l) ≠ 0) →
    exec i s =
      .next (takeTrap s k.w
        (TrapReq.pre 0x04 8 1
          ((List.range 64).filter fun l =>
            decide (l ∈ k.ls ∧ (k.arg s (8 + u) n offA l).toNat % memBytes n wd (k.arg s (8 + u) n offC l) ≠ 0)) k.c.pc))) ∧
  (∀ (s : State) (t : Trig) (k : Scene), k.Of s t 16 0 → (∀ l ∈ k.ls, k.x.port 16 offM l = 0) →
    let trap := fun (code : BitVec 8) (p : Nat → Bool) =>
      (Host.Outcome.next
        (takeTrap s k.w (TrapReq.pre code 8 1 ((List.range 64).filter fun l => decide (l ∈ k.ls) && p l) k.c.pc)) :
        Host.Outcome State Fault Refusal)
    let off := fun rel l => decide ((seqTarget rel k.c.pc (k.val s l)).toNat % 32 ≠ 0)
    let full := fun l => decide ((k.x.lane l).rstack.length = 8)
    let bare := fun l => decide ((k.x.lane l).rstack = [])
    (∀ rel call, (∃ l ∈ k.ls, off rel l = true) → exec (transferOf rel call t) s = trap 0x04 (off rel)) ∧
    (∀ rel, (∀ l ∈ k.ls, off rel l = false) → (∃ l ∈ k.ls, full l = true) → exec (transferOf rel true t) s = trap 0x07 full) ∧
    ((∃ l ∈ k.ls, bare l = true) → exec (.seqRet t) s = trap 0x06 bare ∧ exec (.seqRspop t) s = trap 0x06 bare))

/-- R169, R170: a multiplication fills the table's value three clk later, where no division of the warp runs. A division fills it after 20 clk
and half the significant bits of the largest quotient, and takes its quad's divider until then; it waits for the divider and for the warp's
own division. -/
def Obligations.MultiplicationsAndDivisions : Prop :=
  (∀ (s : State) (t : Trig) (n : Nat) (i : Instr) (f : W64 → W64 → W64 → W64) (k : Scene),
    (mulRows t)[n]? = some (i, f) → k.Of s t 2 n → (∀ l ∈ k.ls, k.x.port 2 offM l = 0) →
    (∀ g ∈ k.x.fills, g.unit = 2 → g.opc ≤ 8) →
    ∃ s' x', exec i s = .next s' ∧ LaneIssue k s s' 2 n x' ∧
      x'.fills = k.x.fills ++
        [{ id := s.nextId, unit := 2, opc := n, due := s.clk + 3,
           res := k.ls.map fun l => plainLane l (f (k.arg s 2 n offA l) (k.arg s 2 n offB l) (k.arg s 2 n offC l)) 0 }]) ∧
  (∀ (s : State) (t : Trig) (n : Nat) (i : Instr) (f : W64 → W64 → W64 × W64) (k : Scene),
    (divRows t)[n]? = some (i, f) → k.Of s t 2 (n + 9) → (∀ l ∈ k.ls, k.x.port 2 offM l = 0) →
    (∀ g ∈ k.x.fills, g.unit = 2 → g.opc ≤ 8) → ((s.core k.tm.core).quad k.x.quad).divFree ≤ s.clk →
    let a := k.arg s 2 (n + 9) offA
    let b := k.arg s 2 (n + 9) offB
    let due := s.clk + 20 + (maxOf (k.ls.map fun l => quotBits (n == 1 || n == 3) (a l) (b l)) + 1) / 2
    ∃ s' x', exec i s = .next s' ∧ LaneIssue k s s' 2 (n + 9) x' ∧
      x'.fills = k.x.fills ++
        [{ id := s.nextId, unit := 2, opc := n + 9, due := due,
           res := k.ls.map fun l => plainLane l (f (a l) (b l)).1 (f (a l) (b l)).2 }] ∧
      ((s'.core k.tm.core).quad k.x.quad).divFree = due)

/-- R160, R171, R378: an operation of fma0 or fma1 that its quad's power grant allows fills its rounded value after 4 clk, or 8 for binary64,
with its exceptions in .y2; the quad's pair is active until 16 clk later. Readings of the model's own: logs 26, 34 and 41. -/
def Obligations.FmaOperationsRoundOnce : Prop :=
  ∀ (s : State) (u : Fin 2) (t : Trig) (n L : Nat) (i : Instr) (f : FEnv → W64 → W64 → W64 → FRes) (k : Scene),
    (fmaRows u t)[n]? = some (i, L, f) → k.Of s t (3 + u) n → (∀ l ∈ k.ls, k.x.port (3 + u) offM l = 0) →
    (∀ g ∈ k.x.fills, g.unit = 3 + u → g.due < s.clk + L) →
    (L = 8 → ((s.core k.tm.core).quad k.x.quad).f64Free.getD u 0 ≤ s.clk) →
    grantOk s k.tm.core k.x.quad = true →
    ∃ s' x', exec i s = .next s' ∧ LaneIssue k s s' (3 + u) n x' ∧
      x'.fills = k.x.fills ++
        [{ id := s.nextId, unit := 3 + u, opc := n, due := s.clk + L,
           res := k.ls.map fun l =>
             floatLane (k.x.lane l).nfr l
               (f (envOf (k.x.lane l).nfr) (k.arg s (3 + u) n offA l) (k.arg s (3 + u) n offB l) (k.arg s (3 + u) n offC l)) }] ∧
      ((s'.core k.tm.core).quad k.x.quad).pairActive = true ∧
      s.clk + L + 16 ≤ ((s'.core k.tm.core).quad k.x.quad).pairUntil

/-- R174, R175: a condition of cmp0 fills 1 where it holds and 0 where not, one clk later; a floating-point one with the exceptions that its
NaNs raise. Readings of the model's own: log 26. -/
def Obligations.ComparesFillOneOrZero : Prop :=
  (∀ (s : State) (t : Trig) (n : Nat) (i : Instr) (p : W64 → W64 → Bool) (k : Scene),
    (n, i, p) ∈ cmpRows t → k.Of s t 5 n → (∀ l ∈ k.ls, k.x.port 5 offM l = 0) →
    ∃ s' x', exec i s = .next s' ∧ LaneIssue k s s' 5 n x' ∧
      x'.fills = k.x.fills ++
        [{ id := s.nextId, unit := 5, opc := n, due := s.clk + 1,
           res := k.ls.map fun l => plainLane l (if p (k.arg s 5 n offA l) (k.arg s 5 n offB l) then 1 else 0) 0 }]) ∧
  (∀ (s : State) (t : Trig) (n : Nat) (i : Instr) (f : FEnv → W64 → W64 → FRes) (k : Scene),
    (n, i, f) ∈ fcmpRows t → k.Of s t 5 n → (∀ l ∈ k.ls, k.x.port 5 offM l = 0) →
    ∃ s' x', exec i s = .next s' ∧ LaneIssue k s s' 5 n x' ∧
      x'.fills = k.x.fills ++
        [{ id := s.nextId, unit := 5, opc := n, due := s.clk + 1,
           res := k.ls.map fun l =>
             floatLane (k.x.lane l).nfr l (f (envOf (k.x.lane l).nfr) (k.arg s 5 n offA l) (k.arg s 5 n offB l)) }])

/-- R176, R183 to R186: any, all and ballot give every performing lane the vote of the performing lanes of its half. The cross-lane moves of
cvt0 give each performing lane all of .a of the lane that it names, performing or not, scan.add the sum of .a over the performing lanes of its
half up to it, and red.add.f32 the sum by the tree of R185 under the NFR of the lowest of them (`redSum`), two clk later. Readings of the
model's own: logs 26 and 85. -/
def Obligations.VotesMovesAndSumsAcrossLanes : Prop :=
  (∀ (s : State) (t : Trig) (n : Nat) (i : Instr) (f : List (Nat × Bool) → W64) (k : Scene),
    (n, i, f) ∈ voteRows t → k.Of s t 5 n → (∀ l ∈ k.ls, k.x.port 5 offM l = 0) →
    ∃ s' x', exec i s = .next s' ∧ LaneIssue k s s' 5 n x' ∧
      x'.fills = k.x.fills ++
        [{ id := s.nextId, unit := 5, opc := n, due := s.clk + 1,
           res := k.ls.map fun l =>
             plainLane l (f ((halfMates k.x k.ls l).map fun m => (if k.x.w32 then m % 32 else m, decide (k.val s m ≠ 0)))) 0 }]) ∧
  (∀ (s : State) (t : Trig) (n : Nat) (i : Instr) (src : Warp → (Nat → W64) → List Nat → Nat → Nat) (k : Scene),
    (n, i, src) ∈ crossRows t → k.Of s t 7 n → (∀ l ∈ k.ls, k.x.port 7 offM l = 0) →
    ∃ s' x', exec i s = .next s' ∧ LaneIssue k s s' 7 n x' ∧
      x'.fills = k.x.fills ++
        [{ id := s.nextId, unit := 7, opc := n, due := s.clk + 2,
           res := k.ls.map fun l =>
             plainLane l (k.x.port 7 offA (src k.x (fun m => if m ∈ k.ls then k.val s m else k.x.port 7 offB m) (halfMates k.x k.ls l) l)) 0 }]) ∧
  (∀ (s : State) (t : Trig) (k : Scene), k.Of s t 7 20 → (∀ l ∈ k.ls, k.x.port 7 offM l = 0) →
    ∃ s' x', exec (.cvtScanAdd t) s = .next s' ∧ LaneIssue k s s' 7 20 x' ∧
      x'.fills = k.x.fills ++
        [{ id := s.nextId, unit := 7, opc := 20, due := s.clk + 2,
           res := k.ls.map fun l =>
             plainLane l (put32 (((halfMates k.x k.ls l).filter fun m => decide (m ≤ l)).map fun m => nat32 (k.val s m)).sum) 0 }]) ∧
  (∀ (s : State) (t : Trig) (k : Scene), k.Of s t 7 21 → (∀ l ∈ k.ls, k.x.port 7 offM l = 0) →
    ∃ s' x', exec (.cvtRedAddF32 t) s = .next s' ∧ LaneIssue k s s' 7 21 x' ∧
      x'.fills = k.x.fills ++
        [{ id := s.nextId, unit := 7, opc := 21, due := s.clk + 2,
           res := k.ls.map fun l => floatLane (k.x.lane l).nfr l (redSum x' k.x (halfMates k.x k.ls l)) }])

/-- R160, R177, R179: an operation of sfn0 fills after its latency, and no earlier than the warp's previous one; sfn0 takes the quad's next
trigger 4 clk later. Readings of the model's own: logs 14 and 26. -/
def Obligations.SpecialFunctionsFillInOrder : Prop :=
  ∀ (s : State) (t : Trig) (n L : Nat) (i : Instr) (f : FEnv → W64 → W64 → FRes) (k : Scene),
    (sfnRows t)[n]? = some (i, L, f) → k.Of s t 6 n → (∀ l ∈ k.ls, k.x.port 6 offM l = 0) →
    ((s.core k.tm.core).quad k.x.quad).sfnFree ≤ s.clk →
    ∃ s' x' due, exec i s = .next s' ∧ LaneIssue k s s' 6 n x' ∧
      x'.fills = k.x.fills ++
        [{ id := s.nextId, unit := 6, opc := n, due := due,
           res := k.ls.map fun l =>
             floatLane (k.x.lane l).nfr l (f (envOf (k.x.lane l).nfr) (k.arg s 6 n offA l) (k.arg s 6 n offB l)) }] ∧
      s.clk + L ≤ due ∧ (∀ g ∈ k.x.fills, g.unit = 6 → g.due ≤ due) ∧
      (due = s.clk + L ∨ ∃ g ∈ k.x.fills, g.unit = 6 ∧ g.due = due) ∧
      ((s'.core k.tm.core).quad k.x.quad).sfnFree = s.clk + 4

/-- R180 to R182: a conversion of cvt0 fills its converted value two clk later, with its exceptions. Readings of the model's own: log 26. -/
def Obligations.ConversionsFillAfterTwoClk : Prop :=
  ∀ (s : State) (t : Trig) (n : Nat) (i : Instr) (f : FEnv → W64 → FRes) (k : Scene),
    (n, i, f) ∈ convRows t → k.Of s t 7 n → (∀ l ∈ k.ls, k.x.port 7 offM l = 0) →
    ∃ s' x', exec i s = .next s' ∧ LaneIssue k s s' 7 n x' ∧
      x'.fills = k.x.fills ++
        [{ id := s.nextId, unit := 7, opc := n, due := s.clk + 2,
           res := k.ls.map fun l => floatLane (k.x.lane l).nfr l (f (envOf (k.x.lane l).nfr) (k.arg s 7 n offA l)) }]

/-- R187 to R192: a pack fills each lane of a group of 32 with its header and element under the group's scales; a pack whose NFR has a
reserved header rule is not meant here. An unpack fills the element's value. Both two clk later. Readings of the model's own: log 26. -/
def Obligations.BlockPackAndUnpack : Prop :=
  (∀ (s : State) (t : Trig) (k : Scene) (zb8 : Bool), k.Of s t 7 (if zb8 then 12 else 14) → (∀ l ∈ k.ls, k.x.port 7 offM l = 0) →
    (∀ l ∈ k.ls, (k.x.lane l).nfr.toNat / 32 % 8 ≤ 1) →
    ∃ s' x', exec (if zb8 then .cvtZbpack8 t else .cvtZbpack4 t) s = .next s' ∧
      LaneIssue k s s' 7 (if zb8 then 12 else 14) x' ∧
      x'.fills = k.x.fills ++
        [{ id := s.nextId, unit := 7, opc := if zb8 then 12 else 14, due := s.clk + 2,
           res := ([k.ls.filter fun l => decide (l < 32), k.ls.filter fun l => decide (32 ≤ l)].filter fun q => !q.isEmpty).flatMap
             (packRes zb8 (fun set i => (k.tm.scaleAt s.clk set i).toInt) (fun l => (k.x.lane l).nfr) (k.val s)) }]) ∧
  (∀ (s : State) (t : Trig) (k : Scene) (zb8 : Bool), k.Of s t 7 (if zb8 then 13 else 15) → (∀ l ∈ k.ls, k.x.port 7 offM l = 0) →
    ∃ s' x', exec (if zb8 then .cvtZbunpack8 t else .cvtZbunpack4 t) s = .next s' ∧
      LaneIssue k s s' 7 (if zb8 then 13 else 15) x' ∧
      x'.fills = k.x.fills ++
        [{ id := s.nextId, unit := 7, opc := if zb8 then 13 else 15, due := s.clk + 2,
           res := k.ls.map fun l =>
             floatLane (k.x.lane l).nfr l
               (unpackRes zb8 (fun set i => (k.tm.scaleAt s.clk set i).toInt) (k.x.lane l).nfr (k.val s l)) }])

/-! ## Memory units -/

/-- R197 to R206, R212: a memory trigger whose lanes pass the checks of R197 and R199, whose .y2 elements that it counts as reading are filled
and untagged (R202), and which no full store queue, fence, acquire, begin, commit or sync of the warp holds (R204), starts one operation with
every performing lane's operands. The unperformed loads of the unit in those lanes are cancelled; a store to global memory joins the store
queue and one to team store the arbiter's queue; a waitcmp parks its lanes. No byte of memory changes. Readings of the model's own: log 44. -/
def Obligations.MemoryTriggersStartOneOperation : Prop :=
  ∀ (s : State) (u : Fin 2) (t : Trig) (n wd : Nat) (i : Instr) (kind : MemKind) (k : Scene),
    (memRows u t)[n]? = some (i, wd, kind) → k.Of s t (8 + u) n →
    (∀ l ∈ k.ls, memLaneOk n wd kind k.tm.tsSize (k.arg s (8 + u) n offA l) (k.arg s (8 + u) n offC l) (k.x.port (8 + u) offM l) = true) →
    (∀ l ∈ k.ls, (k.x.unit (8 + u)).must.getLsbD l = true →
      (k.x.elem (8 + u) offY2 l).filled = true ∧ (k.x.elem (8 + u) offY2 l).tag = 0 ∧
      k.x.poison.contains (portCode (8 + u) offY2, l) = false) →
    (kind = .store ∨ kind = .atomic → k.x.sq.length < 32) →
    (∀ o ∈ k.x.ops, o.holdsLater = false ∧ o.snapHolds = false ∧ o.isSync = false) →
    let ts := fun l => toTeamStore n kind (k.x.port (8 + u) offM l)
    let o := opStarted k s (8 + u) n (match k.x.txn with
        | some y => BitVec.ofNat 64 y.id
        | none => 0) (fun l => if n = 25 ∨ ts l = true then .go else .walk) (k.x.port (8 + u) offM)
    ∃ s' x' t', exec i s = .next s' ∧ s'.team? k.w.team = some t' ∧ EngineIssue k s s' (8 + u) n x' ∧
      x'.ops = (cancelLoads (8 + u) k.ls k.x).ops ++ [o] ∧
      x'.sq = k.x.sq ++ (if kind = .store ∧ ∃ l ∈ k.ls, ts l = false then [s.nextId] else []) ∧
      t'.arb = k.tm.arb ++ (if kind = .store ∧ ∃ l ∈ k.ls, ts l = true then
        [{ op := s.nextId, warp := k.w.warp,
           writes := (k.ls.filter ts).flatMap fun l => storedBytes wd (k.arg s (8 + u) n offA l) (k.arg s (8 + u) n offB l) }] else []) ∧
      t'.jobs = k.tm.jobs ∧ t'.scale = k.tm.scale ∧
      (n = 26 → ∀ l ∈ k.ls, (x'.lane l).wait = some (.monitor s.nextId)) ∧
      (n ≠ 26 → WaitsKept k.x x')

/-! ## Copy engine and matrix engine -/

/-- R239 to R246, R249, R250, R252: a copy trigger of a legal, aligned job within the team's slice, which the engine accepts, submits one job
for each performing lane, in lane order, after the team's earlier jobs; stream.open binds its stream (R246). bar.wait parks its lanes with the
operation that waits at the object's home, poll starts the operation that answers it; a lane that closes a stream unbinds it and stops its
job, and one that cancels stops the team's earlier jobs of its tag. Readings of the model's own: logs 44 and 52. -/
def Obligations.CopyTriggersSubmitWaitAndStop : Prop :=
  (∀ (s : State) (t : Trig) (n : Nat) (i : Instr) (k : Scene), (n, i) ∈ copyJobRows t → k.Of s t 11 n → engineOpen k.x →
    let a := k.arg s 11 n offA
    let b := k.arg s 11 n offB
    let c := k.arg s 11 n offC
    let m := k.x.port 11 offM
    (∀ l ∈ k.ls, copyIllegal n (a l) (b l) (c l) (m l) = false ∧ copyMisaligned n (a l) (b l) (c l) (m l) = false ∧
      ∀ r ∈ copyReads n (a l) (c l) (m l) ++ copyWrites n (a l) (b l) (c l) (m l), r.outside k.tm = false) →
    (n = 8 → ∀ l ∈ k.ls, k.x.streams.find? (streamNo (c l)) = none ∧ ∀ j ∈ k.ls, j ≠ l → streamNo (c j) ≠ streamNo (c l)) →
    (s.core k.tm.core).cpAt ≤ s.clk → copyJobs s k.tm.core + k.ls.length ≤ 1024 →
    ∃ s' x' t' js, exec i s = .next s' ∧ s'.team? k.w.team = some t' ∧ EngineIssue k s s' 11 n x' ∧ x'.ops = k.x.ops ∧
      WaitsKept k.x x' ∧ t'.jobs = k.tm.jobs ++ js ∧ js.length = k.ls.length ∧ (s'.core k.tm.core).cpAt = s.clk + 1 ∧
      (∀ (e l : Nat) (j : Job), k.ls[e]? = some l → js[e]? = some j →
        j.id = s.nextId + 1 + e ∧ j.trig = s.nextId ∧ j.warp = k.w.warp ∧ j.unit = 11 ∧ j.opc = n ∧ j.lane = l ∧
        j.a = a l ∧ j.b = b l ∧ j.c = c l ∧ j.begun = false ∧ j.cursor = 0 ∧ j.written = 0 ∧ j.cancel = false ∧
        (n ≤ 8 → j.mode = m l ∧ j.total = jobBytes n (c l) (m l) ∧ j.bar = bitsOf (m l) 56 6 * 64) ∧
        (n = 8 → x'.streams.find? (streamNo (c l)) =
          some { job := j.id, off := bitsOf (b l) 18 0, rows := bitsOf (b l) 26 19 + 1, esz := 2 ^ bitsOf (m l) 1 0,
                 count := bitsOf (c l) 31 0, written := 0, failed := none, reads := .empty, given := .empty }))) ∧
  (∀ (s : State) (t : Trig) (k : Scene), k.Of s t 11 12 → engineOpen k.x → (s.core k.tm.core).cpAt ≤ s.clk →
    (∀ l ∈ k.ls, (k.val s l).toNat % 64 = 0) →
    ∃ s' x', exec (.cpBarWait t) s = .next s' ∧ EngineIssue k s s' 11 12 x' ∧
      x'.ops = k.x.ops ++ [opStarted k s 11 12 0 (fun _ => .walk) (fun _ => 0)] ∧
      ∀ l ∈ k.ls, (x'.lane l).wait = some (.object s.nextId)) ∧
  (∀ (s : State) (t : Trig) (k : Scene), k.Of s t 11 16 → engineOpen k.x → (s.core k.tm.core).cpAt ≤ s.clk →
    (∀ l ∈ k.ls, (k.val s l).toNat < 128) →
    ∃ s' x', exec (.cpPoll t) s = .next s' ∧ EngineIssue k s s' 11 16 x' ∧
      x'.ops = k.x.ops ++ [opStarted k s 11 16 0 (fun _ => .go) (fun _ => 0)]) ∧
  (∀ (s : State) (t : Trig) (k : Scene) (l : Nat) (st : Stream) (j : Job), k.Of s t 11 9 → engineOpen k.x →
    (s.core k.tm.core).cpAt ≤ s.clk → k.ls = [l] → (k.val s l).toNat < 8 → k.x.streams.find? (k.val s l).toNat = some st →
    k.tm.job? st.job = some j → j.ending = false → (j.begun = false ∨ j.acc = 0) → (∀ o ∈ k.x.ops, o.id ≠ s.nextId ∧ o.items ≠ []) →
    ∃ s' x' t' j', exec (.cpStreamClose t) s = .next s' ∧ TriggerIssue k s s' 11 9 x' ∧ x'.streams.find? (k.val s l).toNat = none ∧
      s'.team? k.w.team = some t' ∧ t'.job? st.job = some j' ∧ j'.cancel = true ∧ j'.ending = true ∧ j'.status = 1) ∧
  (∀ (s : State) (t : Trig) (k : Scene) (l : Nat), k.Of s t 11 15 → engineOpen k.x → (s.core k.tm.core).cpAt ≤ s.clk → k.ls = [l] →
    (k.val s l).toNat < 128 →
    ∃ s' x' t', exec (.cpCancel t) s = .next s' ∧ TriggerIssue k s s' 11 15 x' ∧ s'.team? k.w.team = some t' ∧
      t'.jobs.length = k.tm.jobs.length ∧
      ∀ (e : Nat) (j j' : Job), k.tm.jobs[e]? = some j → t'.jobs[e]? = some j' → j.unit = 11 → j.opc ≤ 8 → j.trig < s.nextId →
        modeTag j.mode = (k.val s l).toNat → j'.cancel = true ∨ j.ending = true)

/-- R262 to R267, R278, R281: a matrix trigger of a team that owns the engine, legal, aligned and within the team's slice by the operands of
its lowest performing lane, with room in the queue, submits one job after the team's earlier ones. scale.set writes the sixteen entries of its
set, which triggers of later clks see (R78), and wait notes itself as the last wait of its selector; both start an operation that fills their
lanes. Readings of the model's own: logs 44 and 47. -/
def Obligations.MatrixTriggersSubmitOrWait : Prop :=
  (∀ (s : State) (t : Trig) (n : Nat) (i : Instr) (k : Scene), (n, i) ∈ mxJobRows t → k.Of s t 10 n → engineOpen k.x →
    k.tm.owner = true → s.ldr.grade.mxp = true →
    let l0 := minOf k.ls 0
    let a := k.arg s 10 n offA l0
    let b := k.arg s 10 n offB l0
    let c := k.arg s 10 n offC l0
    let m := k.x.port 10 offM l0
    mxModeBad m = false → mxIllegal n a b c = false → mxMisaligned n a b c m = false →
    (∀ r ∈ mxReads n a b c m ++ mxWrites n a b c m, r.beyond k.tm = false) →
    (s.core k.tm.core).mxAt ≤ s.clk → (n ≠ 11 → mxQueued s k.tm.core < 32) →
    ∃ s' x' t' j, exec i s = .next s' ∧ s'.team? k.w.team = some t' ∧ EngineIssue k s s' 10 n x' ∧ x'.ops = k.x.ops ∧
      WaitsKept k.x x' ∧ t'.jobs = k.tm.jobs ++ [j] ∧ (s'.core k.tm.core).mxAt = s.clk + 1 ∧
      j.id = s.nextId + 1 ∧ j.trig = s.nextId ∧ j.warp = k.w.warp ∧ j.unit = 10 ∧ j.opc = n ∧ j.lane = l0 ∧ j.lanes = maskOf k.ls ∧
      j.a = a ∧ j.b = b ∧ j.c = c ∧ j.mode = m ∧ j.begun = false ∧
      (n = 12 → ∀ l ∈ k.ls, j.data.find? l = some (k.arg s 10 12 offA l)) ∧
      ((n = 0 ∨ n = 2 ∨ n = 3 ∨ n = 13) → m.toNat / 4 % 4 ≠ 2 →
        j.held = (List.range 16).map fun e => k.tm.scaleAt s.clk (if n = 0 then b.toNat % 4 else c.toNat / 2 ^ 16 % 4) e)) ∧
  (∀ (s : State) (t : Trig) (k : Scene), k.Of s t 10 9 → engineOpen k.x → k.tm.owner = true → s.ldr.grade.mxp = true →
    let l0 := minOf k.ls 0
    let set := (k.arg s 10 9 offC l0).toNat
    mxModeBad (k.x.port 10 offM l0) = false → set < 4 → (s.core k.tm.core).mxAt ≤ s.clk → k.tm.scaleClk ≤ s.clk →
    ∃ s' x' t', exec (.mxScaleSet t) s = .next s' ∧ s'.team? k.w.team = some t' ∧ EngineIssue k s s' 10 9 x' ∧ t'.jobs = k.tm.jobs ∧
      (∀ e, e < 16 → t'.scale.getD (set * 16 + e) 0 =
        BitVec.ofNat 8 ((if e < 8 then k.arg s 10 9 offA l0 else k.arg s 10 9 offB l0).toNat / 2 ^ (8 * (e % 8)))) ∧
      (∀ q, q / 16 ≠ set → t'.scale.getD q 0 = k.tm.scale.getD q 0) ∧
      (∀ q e, e < 16 → t'.scaleAt s.clk q e = k.tm.scaleAt s.clk q e) ∧ x'.ops.length = k.x.ops.length + 1) ∧
  (∀ (s : State) (t : Trig) (k : Scene), k.Of s t 10 10 → engineOpen k.x → k.tm.owner = true → s.ldr.grade.mxp = true →
    let sel := (k.val s (minOf k.ls 0)).toNat
    mxModeBad (k.x.port 10 offM (minOf k.ls 0)) = false → sel ≤ 9 → (s.core k.tm.core).mxAt ≤ s.clk →
    ∃ s' x' t' o, exec (.mxWait t) s = .next s' ∧ s'.team? k.w.team = some t' ∧ EngineIssue k s s' 10 10 x' ∧
      t'.mxWaited.find? sel = some s.nextId ∧ x'.ops = k.x.ops ++ [o] ∧ o.id = s.nextId ∧ o.unit = 10 ∧ o.opc = 10 ∧
      o.items.map Item.lane = k.ls ∧ o.info = [k.tm.mxWaited.getD sel 0])

/-! ## Snapshots, tokens, deques, bounds, supervisor -/

/-- R298 to R311: a snap trigger that passes its checks, with no begin, commit or abort of the warp in flight, starts one operation; a warp
operation takes the .a word of the lowest performing lane, and ld.at each lane's own operands. Readings of the model's own: logs 29 and 44. -/
def Obligations.SnapshotTriggersStartOneOperation : Prop :=
  (∀ (s : State) (t : Trig) (n : Nat) (i : Instr) (ok : Warp → Nat → Bool) (k : Scene), (n, i, ok) ∈ snapRows t → k.Of s t 12 n →
    engineOpen k.x → (∀ o ∈ k.x.ops, o.unit = 12 → 4 ≤ o.opc) → (∀ l ∈ k.ls, (k.x.port 12 offM l).toNat < 2) →
    ok k.x (k.val s (minOf k.ls 0)).toNat = true →
    ∃ s' x', exec i s = .next s' ∧ EngineIssue k s s' 12 n x' ∧ WaitsKept k.x x' ∧
      x'.ops = k.x.ops ++ [opStarted k s 12 n (k.val s (minOf k.ls 0)) (fun _ => .go) (k.x.port 12 offM)]) ∧
  (∀ (s : State) (t : Trig) (k : Scene), k.Of s t 12 8 → engineOpen k.x → (∀ o ∈ k.x.ops, o.unit = 12 → 4 ≤ o.opc) →
    (∀ l ∈ k.ls, (k.x.port 12 offM l).toNat < 2 ∧ (k.val s l).toNat < 2 ^ 56 ∧
      (k.x.port 12 offA l).toNat % (if k.x.port 12 offM l = 1 then 8 else 4) = 0) →
    ∃ s' x', exec (.snapLdAt t) s = .next s' ∧ EngineIssue k s s' 12 8 x' ∧ WaitsKept k.x x' ∧
      x'.ops = k.x.ops ++ [opStarted k s 12 8 0 (fun _ => .walk) (k.x.port 12 offM)])

/-- R331 to R333, R382 to R386, R390, R391, R394, R445, R449, R450: a trigger of tell, tq, ace, or of tret, icinval or sync, that passes its
checks starts one operation with every performing lane's operands; tell and tq wait until the lanes' own .y is filled (R333, R385); waitlt
parks its lanes. Readings of the model's own: logs 25 and 88. -/
def Obligations.HomeTriggersStartOneOperation : Prop :=
  (∀ (s : State) (t : Trig) (n : Nat) (i : Instr) (ok : Nat → Nat → Nat → Bool) (k : Scene), (n, i, ok) ∈ tellRows t → k.Of s t 13 n →
    engineOpen k.x →
    (∀ l ∈ k.ls, k.x.port 13 offM l = 0 ∧ (k.x.elem 13 offY l).filled = true ∧
      ok (k.arg s 13 n offA l).toNat (k.arg s 13 n offB l).toNat (k.arg s 13 n offC l).toNat = true) →
    ∃ s' x', exec i s = .next s' ∧ EngineIssue k s s' 13 n x' ∧ WaitsKept k.x x' ∧
      x'.ops = k.x.ops ++ [opStarted k s 13 n 0
        (fun l => if n = 3 ∧ tellGranted s k.tm.ctx ((k.arg s 13 n offA l).toNat % 2 ^ 16) = true then .walk else .go) fun _ => 0]) ∧
  (∀ (s : State) (t : Trig) (n : Nat) (i : Instr) (ok : Nat → Nat → Nat → Bool) (k : Scene), (n, i, ok) ∈ tqRows t → k.Of s t 14 n →
    engineOpen k.x →
    (∀ l ∈ k.ls, k.x.port 14 offM l = 0 ∧ (k.x.elem 14 offY l).filled = true ∧
      ok (k.arg s 14 n offA l).toNat (k.arg s 14 n offB l).toNat (k.arg s 14 n offC l).toNat = true) →
    ∃ s' x', exec i s = .next s' ∧ EngineIssue k s s' 14 n x' ∧ WaitsKept k.x x' ∧
      x'.ops = k.x.ops ++
        [opStarted k s 14 n 0 (fun l => if n = 5 ∧ k.val s l ≠ 0 then .walk else .go) fun _ => 0]) ∧
  (∀ (s : State) (t : Trig) (n : Nat) (i : Instr) (k : Scene), (n, i) ∈ aceRows t → k.Of s t 15 n →
    (∀ o ∈ k.x.ops, ¬ (o.unit = 17 ∧ o.opc = 8)) →
    (∀ l ∈ k.ls, k.x.port 15 offM l = 0 ∧ selectorOk (k.arg s 15 n offA l).toNat = true) →
    ∃ s' x', exec i s = .next s' ∧ EngineIssue k s s' 15 n x' ∧
      x'.ops = k.x.ops ++ [opStarted k s 15 n 0 (fun _ => .go) fun _ => 0] ∧
      (n = 4 → ∀ l ∈ k.ls, (x'.lane l).wait = some (.bound s.nextId)) ∧ (n ≠ 4 → WaitsKept k.x x')) ∧
  (∀ (s : State) (t : Trig) (n : Nat) (i : Instr) (ok : Warp → Nat → Bool) (k : Scene), (n, i, ok) ∈ supWaitRows t → k.Of s t 17 n →
    (∀ o ∈ k.x.ops, ¬ (o.unit = 17 ∧ o.opc = 8)) →
    (∀ l ∈ k.ls, k.x.port 17 offM l = 0 ∧ ok k.x (k.arg s 17 n offA l).toNat = true) →
    ∃ s' x', exec i s = .next s' ∧ EngineIssue k s s' 17 n x' ∧ WaitsKept k.x x' ∧
      x'.ops = k.x.ops ++ [opStarted k s 17 n 0 (fun _ => .go) fun _ => 0])


/-! ## The sequencer, the supervisor's unit, plain moves -/

/-- R121 to R127: br, brr, call and callr send their performing lanes to an aligned target within the slot and fill the return address or 0, a
call pushing it; ret pops the top entry and goes there; rspush and rspop push and pop it and lanes go on. -/
def Obligations.TransfersAndTheReturnStack : Prop :=
  (∀ (s : State) (t : Trig) (k : Scene) (rel call : Bool), k.Of s t 16 (if call then (if rel then 3 else 2) else if rel then 1 else 0) → (∀ l ∈ k.ls, k.x.port 16 offM l = 0) → k.x.halted = none →
    (∀ l ∈ k.ls, (seqTarget rel k.c.pc (k.val s l)).toNat % 32 = 0 ∧ (call = true → (k.x.lane l).rstack.length < 8)) →
    ∃ s' x', exec (transferOf rel call t) s = .next s' ∧
      SeqIssue k s s' (if call then (if rel then 3 else 2) else if rel then 1 else 0) (fun _ => nextPc k.c.pc) x' ∧
      FilledWith k 16 x' (fun _ => if call then (nextPc k.c.pc).setWidth 64 else 0) (fun _ => 0) ∧
      ∀ l ∈ k.ls, (x'.lane l).pc = seqTarget rel k.c.pc (k.val s l) ∧
        (x'.lane l).rstack = if call then retEntry (nextPc k.c.pc) :: (k.x.lane l).rstack else (k.x.lane l).rstack) ∧
  (∀ (s : State) (t : Trig) (k : Scene) (jump : Bool) (e : Nat → RetEntry) (r : Nat → List RetEntry), k.Of s t 16 (if jump then 4 else 15) →
    (∀ l ∈ k.ls, k.x.port 16 offM l = 0) → k.x.halted = none → (∀ l ∈ k.ls, (k.x.lane l).rstack = e l :: r l) →
    ∃ s' x', exec (if jump then .seqRet t else .seqRspop t) s = .next s' ∧
      SeqIssue k s s' (if jump then 4 else 15) (fun _ => nextPc k.c.pc) x' ∧
      FilledWith k 16 x' (fun l => BitVec.ofNat 64 ((e l).addr.toNat + (e l).slot.toNat * 2 ^ 32)) (fun _ => 0) ∧
      (∀ l ∈ k.ls, (x'.lane l).rstack = r l) ∧ (jump = true → ∀ l ∈ k.ls, (x'.lane l).pc = (e l).addr) ∧
      (jump = false → k.x.noLoops = true → ∀ l ∈ k.ls, (x'.lane l).pc = nextPc k.c.pc)) ∧
  (∀ (s : State) (t : Trig) (k : Scene), k.Of s t 16 14 → (∀ l ∈ k.ls, k.x.port 16 offM l = 0) → k.x.halted = none →
    (∀ l ∈ k.ls, (k.val s l).toNat % 32 = 0 ∧ (k.x.lane l).rstack.length < 8) →
    ∃ s' x', exec (.seqRspush t) s = .next s' ∧ SeqIssue k s s' 14 (fun _ => nextPc k.c.pc) x' ∧
      FilledWith k 16 x' (fun _ => 0) (fun _ => 0) ∧
      (∀ l ∈ k.ls, (x'.lane l).rstack = retEntry ((k.val s l).setWidth 32) :: (k.x.lane l).rstack) ∧
      (k.x.noLoops = true → ∀ l ∈ k.ls, (x'.lane l).pc = nextPc k.c.pc))

/-- R129, R130, R132, R133: loop opens its level for the performing lanes of each half, which go to the body, or with T = 0 to its end; active
lanes that do not perform it skip the body. brk leaves the level and those within it for its end. cont completes the iteration: a lane waits
while another member is out, all members together begin the next one, and the last iteration of level 0 leaves it. -/
def Obligations.LoopsOpenBreakAndContinue : Prop :=
  (∀ (s : State) (t : Trig) (k : Scene), k.Of s t 16 5 → (∀ l ∈ k.ls, k.x.port 16 offM l = 0) → k.x.halted = none → LoopLegal k s →
    k.x.halves.length = 2 →
    ∃ s' x', exec (.seqLoop t) s = .next s' ∧ SeqIssue k s s' 5 (loopEnd k) x' ∧
      FilledWith k 16 x' (fun l => if lo32 (k.val s l) = 0 then 0xFF else BitVec.ofNat 64 (loopWord k l / 2 ^ 16 % 8)) (fun _ => 0) ∧
      ∀ l ∈ k.ls, (x'.lane l).wait = none ∧
        (x'.lane l).pc = (if lo32 (k.val s l) = 0 then loopEnd k l else nextPc k.c.pc) ∧
        (x'.half (k.x.halfOf l)).levels =
          (k.x.half (k.x.halfOf l)).levels ++ (if lo32 (k.val s l) = 0 then [] else [openedLevel k s l]) ∧
        (lo32 (k.val s l) ≠ 0 → ∀ c, c / 36 = loopWord k l / 2 ^ 16 % 8 → (x'.half (k.x.halfOf l)).counters.getD c 0 = 0)) ∧
  (∀ (s : State) (t : Trig) (k : Scene), k.Of s t 16 6 → (∀ l ∈ k.ls, k.x.port 16 offM l = 0) → k.x.halted = none →
    (∀ l ∈ k.ls, (k.val s l).toNat < 8 ∧ membersTo k.x (k.val s l).toNat l) →
    ∃ s' x', exec (.seqBrk t) s = .next s' ∧ SeqIssue k s s' 6 (fun _ => nextPc k.c.pc) x' ∧ FilledWith k 16 x' (fun _ => 0) (fun _ => 0) ∧
      ∀ l ∈ k.ls, (∀ v, (k.x.half (k.x.halfOf l)).levels[(k.val s l).toNat]? = some v → (x'.lane l).pc = v.exit) ∧
        ∀ j, (k.val s l).toNat ≤ j → x'.member j l = false) ∧
  (∀ (s : State) (t : Trig) (k : Scene) (n : Nat) (v : LoopLevel), k.Of s t 16 7 → (∀ l ∈ k.ls, k.x.port 16 offM l = 0) →
    k.x.halted = none → k.x.w32 = false → (k.x.half 0).levels[n]? = some v → n < 6 →
    (∀ l ∈ k.ls, (k.val s l).toNat = n ∧ membersTo k.x n l) →
    ∃ s' x', exec (.seqCont t) s = .next s' ∧ SeqIssue k s s' 7 (fun _ => nextPc k.c.pc) x' ∧ FilledWith k 16 x' (fun _ => 0) (fun _ => 0) ∧
      (∀ l ∈ k.ls, ∀ j, n < j → x'.member j l = false) ∧
      (v.trip ≠ 1 → (∃ m, m < 64 ∧ v.members.getLsbD m = true ∧ m ∉ k.c.active ∧ (k.x.lane m).wait ≠ some (.loop n)) →
        ∀ l ∈ k.ls, (x'.lane l).wait = some (.loop n) ∧ x'.member n l = true) ∧
      (v.trip ≠ 1 → (∀ m, m < 64 → v.members.getLsbD m = true → m ∈ k.ls) →
        (∀ l ∈ k.ls, (x'.lane l).wait = none ∧ (x'.lane l).pc = v.start) ∧
        ∃ v', (x'.half 0).levels[n]? = some v' ∧ v'.ix = v.ix + v.stride ∧ v'.trip = v.trip - 1 ∧ v'.members = v.members) ∧
      (v.trip = 1 → n = 0 → ∀ l ∈ k.ls, (x'.lane l).wait = none ∧ (x'.lane l).pc = v.exit ∧ x'.member 0 l = false))

/-- R142 to R145: yield holds its warp for the largest count, at least 1 clk; setfmt writes the lanes' NFR; end retires the lanes, with the
last one the warp's streams and transaction, and the team's end is looked at once no lane of it lives; trap raises USER after the commit with
the lanes' codes, where a permit is free. Readings of the model's own: log 62. -/
def Obligations.YieldFormatEndAndTrap : Prop :=
  (∀ (s : State) (t : Trig) (k : Scene), k.Of s t 16 9 → (∀ l ∈ k.ls, k.x.port 16 offM l = 0) → k.x.halted = none →
    ∃ s' x', exec (.seqYield t) s = .next s' ∧ SeqIssue k s s' 9 (fun _ => nextPc k.c.pc) x' ∧ FilledWith k 16 x' (fun _ => 0) (fun _ => 0) ∧
      x'.yieldTo = s.clk + 1 + max 1 (maxOf (k.ls.map fun l => (k.val s l).toNat % 2 ^ 12)) ∧
      (k.x.noLoops = true → ∀ l ∈ k.ls, (x'.lane l).pc = nextPc k.c.pc)) ∧
  (∀ (s : State) (t : Trig) (k : Scene), k.Of s t 16 12 → (∀ l ∈ k.ls, k.x.port 16 offM l = 0) → k.x.halted = none →
    (∀ l ∈ k.ls, (k.val s l).toNat / 2 ^ 15 % 2 = 0) →
    ∃ s' x', exec (.seqSetfmt t) s = .next s' ∧ SeqIssue k s s' 12 (fun _ => nextPc k.c.pc) x' ∧ FilledWith k 16 x' (fun _ => 0) (fun _ => 0) ∧
      (∀ l ∈ k.ls, (x'.lane l).nfr = (k.val s l).setWidth 16) ∧
      (k.x.noLoops = true → ∀ l ∈ k.ls, (x'.lane l).pc = nextPc k.c.pc)) ∧
  (∀ (s : State) (t : Trig) (k : Scene), k.Of s t 16 8 → (∀ l ∈ k.ls, k.x.port 16 offM l = 0) →
    ∃ s' x' t', exec (.seqEnd t) s = .next s' ∧ SeqIssue k s s' 8 (fun _ => nextPc k.c.pc) x' ∧ s'.team? k.w.team = some t' ∧
      (∀ l ∈ k.ls, (x'.lane l).live = false ∧ (x'.lane l).wait = none ∧ ∀ j, x'.member j l = false) ∧
      (∀ b e, k.tm.bars.find? b = some e → e.mask ≠ 0 → barTurn k.w.team b ∈ s'.agenda) ∧
      ((∃ l, l < 64 ∧ (x'.lane l).live = true) → x'.txn = k.x.txn) ∧
      ((∀ l, l < 64 → (x'.lane l).live = false) → x'.streams.entries = [] ∧
        ((∀ o ∈ k.x.ops, ¬ (o.unit = 12 ∧ o.opc = 2)) → x'.txn = none)) ∧
      ((∀ y ∈ t'.warps, y.liveLanes = []) → .event .teamRetire (.num k.w.team) ∈ s'.agenda)) ∧
  (∀ (s : State) (t : Trig) (k : Scene), k.Of s t 16 13 → (∀ l ∈ k.ls, k.x.port 16 offM l = 0) → k.x.halted = none →
    0 < (s.core k.tm.core).permits →
    ∃ s1 x1 q, exec (.seqTrap t) s = .next (takeTrap s1 k.w q) ∧ SeqIssue k s s1 13 (fun _ => nextPc k.c.pc) x1 ∧
      FilledWith k 16 x1 (fun _ => 0) (fun _ => 0) ∧ q.code = 0x09 ∧ q.post = true ∧ q.lanes = k.ls ∧ q.pc = k.c.pc ∧
      (∀ l ∈ k.ls, q.detail.find? l = some (BitVec.ofNat 64 ((k.val s l).toNat % 2 ^ 16))) ∧
      (k.x.noLoops = true → ∀ l ∈ k.ls, (x1.lane l).pc = nextPc k.c.pc))

/-- R136 to R138: bar and bar.arrive with a legal word arrive for each performing lane that has not arrived in the phase under way; bar parks
it in the barrier and bar.arrive fills the phase count; a lane that has arrived parks until the phase advances. The completion of the phase is
looked at next. -/
def Obligations.BarriersCountArrivals : Prop :=
  ∀ (s : State) (t : Trig) (k : Scene) (v : Nat) (parks : Bool), k.Of s t 16 (if parks then 10 else 11) → (∀ l ∈ k.ls, k.x.port 16 offM l = 0) →
    k.x.halted = none → BarLegal k s v →
    let b := k.tm.bar (v % 16)
    let key := fun l => k.w.warp * 64 + l
    let fresh := fun l => decide (key l ∉ b.arrived)
    ∃ s' x' t', exec (if parks then .seqBar t else .seqBarArrive t) s = .next s' ∧
      SeqIssue k s s' (if parks then 10 else 11) (fun _ => nextPc k.c.pc) x' ∧ s'.team? k.w.team = some t' ∧
      s'.agenda = barTurn k.w.team (v % 16) :: s.agenda ∧
      (t'.bar (v % 16)).phase = b.phase ∧ (t'.bar (v % 16)).arrived = b.arrived ++ (k.ls.filter fresh).map key ∧
      ((k.ls.any fresh) = true → (t'.bar (v % 16)).mask = rolesNamed k.tm v) ∧
      (∀ j, j ≠ v % 16 → t'.bar j = k.tm.bar j) ∧
      (∀ l ∈ k.ls, fresh l = false → (x'.lane l).wait = some (.again (v % 16) parks s.nextId)) ∧
      (∀ l ∈ k.ls, fresh l = true →
        if parks then (x'.lane l).wait = some (.barrier (v % 16) s.nextId)
        else x'.elem 16 offY l = .value (b.phase.setWidth 64) ∧ x'.elem 16 offY2 l = .value 0) ∧
      (k.x.noLoops = true → ∀ l ∈ k.ls, (x'.lane l).pc = nextPc k.c.pc)

/-- R443, R444, R446, R451 to R453, R464: csr.rd, csr.wr, cnt.rd and fault.rd read what their words name, csr.wr sets SCHK from its last lane
and answers WCTL, mark writes a trace record and answers its index, halt asks for the halt of its warp or team where the context has a
debugger; each operation's results are known at once and come one clk later. A trace record of a context with a ring is written at the ring's
next place, where the page is mapped for writes and no invalidation covers it; else it is dropped and counted; without a ring nothing happens.
Readings of the model's own: logs 67, 78 and 81. -/
def Obligations.SupervisorOperationsAndTrace : Prop :=
  (∀ (s : State) (t : Trig) (k : Scene), k.Of s t 17 0 → (∀ l ∈ k.ls, k.x.port 17 offM l = 0) → noSync k.x →
    (∀ l ∈ k.ls, (k.val s l).toNat ∈ csrNumbers) →
    ∃ s' x', exec (.supCsrRd t) s = .next s' ∧ EngineIssue k s s' 17 0 x' ∧ WaitsKept k.x x' ∧
      x'.ops = k.x.ops ++ [knownOp k s 0 (fun l => readCsr s k.w k.x k.c.pc (k.val s l).toNat) fun _ => 0]) ∧
  (∀ (s : State) (t : Trig) (k : Scene), k.Of s t 17 1 → (∀ l ∈ k.ls, k.x.port 17 offM l = 0) → noSync k.x →
    (∀ l ∈ k.ls, (k.x.port 17 offA l).toNat % 2 ^ 12 = 0) →
    ∃ s' x', exec (.supCsrWr t) s = .next s' ∧ EngineIssue k s s' 17 1 x' ∧ WaitsKept k.x x' ∧
      x'.schk = (k.val s (k.ls.getLastD 0)).getLsbD 1 ∧ x'.ops = k.x.ops ++ [knownOp k s 1 (fun _ => k.x.wctl) fun _ => 0]) ∧
  (∀ (s : State) (t : Trig) (k : Scene), k.Of s t 17 4 → (∀ l ∈ k.ls, k.x.port 17 offM l = 0) → noSync k.x →
    (∀ l ∈ k.ls, counterDefined (k.val s l) = true) →
    ∃ s' x', exec (.supCntRd t) s = .next s' ∧ EngineIssue k s s' 17 4 x' ∧ WaitsKept k.x x' ∧
      x'.ops.take k.x.ops.length = k.x.ops ∧
      ∀ l ∈ k.ls, (k.val s l).toNat / 2 ^ 12 ≠ 0 ∨ k.x.noLoops = true →
        ∃ o i, x'.ops.getLast? = some o ∧ o.item? l = some i ∧ i.extra = [(readCounter s k.w k.x l (k.val s l)).toNat, 0]) ∧
  (∀ (s : State) (t : Trig) (k : Scene), k.Of s t 17 6 → (∀ l ∈ k.ls, k.x.port 17 offM l = 0) → noSync k.x →
    (∀ l ∈ k.ls, (k.val s l).toNat < 32 ∧ (k.val s l).toNat % 16 < 7) →
    ∃ s' x', exec (.supFaultRd t) s = .next s' ∧ EngineIssue k s s' 17 6 x' ∧ WaitsKept k.x x' ∧
      x'.ops = k.x.ops ++ [knownOp k s 6
        (fun l => match recordHolder k.x (decide (16 ≤ (k.val s l).toNat)) with
          | some h => recordItem h l ((k.val s l).toNat % 16)
          | none => 0)
        fun l => if (recordHolder k.x (decide (16 ≤ (k.val s l).toNat))).isSome then 0 else 2]) ∧
  (∀ (s : State) (t : Trig) (k : Scene), k.Of s t 17 3 → (∀ l ∈ k.ls, k.x.port 17 offM l = 0) → noSync k.x →
    let r := trace s (markRecord k s)
    ∃ s' x', exec (.supMark t) s = .next s' ∧ s'.warp? k.w = some x' ∧ OthersKept k s s' ∧ WarpKept 17 k.x x' ∧
      Issued k.c s k.x x' ∧ Landed k s 17 3 x' ∧ SteppedOn k.c k.x x' ∧ Unfilled k 17 x' ∧ s'.mem = r.2.mem ∧ s'.ldr = r.2.ldr ∧
      x'.ops = k.x.ops ++ [knownOp k s 3
        (fun _ => match r.1 with
          | .off => 0
          | .dropped i => BitVec.ofNat 64 i
          | .written i => BitVec.ofNat 64 i)
        fun _ => match r.1 with
          | .off => 3
          | .dropped _ => 4
          | .written _ => 0]) ∧
  (∀ (s : State) (t : Trig) (k : Scene), k.Of s t 17 5 → (∀ l ∈ k.ls, k.x.port 17 offM l = 0) → noSync k.x →
    (∀ l ∈ k.ls, (k.val s l).toNat < 2) → (s.context? k.tm.ctx).bind (fun c => c.debugQueue) = none →
    ∃ s' x', exec (.supHalt t) s = .next s' ∧ EngineIssue k s s' 17 5 x' ∧ WaitsKept k.x x' ∧
      x'.ops = k.x.ops ++ [knownOp k s 5 (fun _ => 0) fun _ => 1]) ∧
  (∀ (s : State) (t : Trig) (k : Scene) (q : Nat), k.Of s t 17 5 → (∀ l ∈ k.ls, k.x.port 17 offM l = 0) → noSync k.x →
    (∀ l ∈ k.ls, (k.val s l).toNat < 2) → (s.context? k.tm.ctx).bind (fun c => c.debugQueue) = some q →
    ∃ s' x' g, exec (.supHalt t) s = .next s' ∧ s'.warp? k.w = some x' ∧ WarpKept 17 k.x x' ∧
      x'.ops = k.x.ops ++ [knownOp k s 5 (fun _ => 0) fun _ => 0] ∧ s'.mem = s.mem ∧
      s'.ldr.halts.find? (s.nextId + 1) = some g ∧ g.ctx = k.tm.ctx ∧ s.clk + 64 ≤ g.edge ∧ g.halted = false ∧ g.issuer = some k.w ∧
      s'.ldr.debugReports = s.ldr.debugReports ++ [(q, s.nextId + 1, k.c.pc)] ∧
      g.warps = (if (k.val s (k.ls.headD 0)).toNat = 0 then [k.w] else groupWarps s fun j _ => j == k.w.team)) ∧
  (∀ (s : State) (r : TraceReq) (c : Context), s.context? r.ctx = some c →
    let ring := s.cfgWord r.ctx 3
    let base := ring.toNat / 2 ^ 12 * 2 ^ 12
    let a := base + 32 * (c.trPos % 2 ^ (ring.toNat % 32))
    (base = 0 → trace s r = (.off, s)) ∧
    (base ≠ 0 →
      (∃ c', (trace s r).2.context? r.ctx = some c' ∧ c'.trPos = c.trPos + 1) ∧ (trace s r).2.teams = s.teams ∧
      (∀ p, translate s r.ctx a true false = .ok p → invalPending s r.ctx a = false → p.tgt = 0 →
        (trace s r).1 = .written c.trPos ∧
        (trace s r).2.mem.read p.pa 32 = (traceWords s.clk r c.trPos).flatMap (wordBytes 8) ∧
        ∀ q, q < p.pa ∨ p.pa + 32 ≤ q → (trace s r).2.mem.byte q = s.mem.byte q) ∧
      ((∀ p, translate s r.ctx a true false ≠ .ok p) ∨ invalPending s r.ctx a = true →
        (trace s r).1 = .dropped c.trPos ∧ (trace s r).2.mem = s.mem ∧
        ∃ c', (trace s r).2.context? r.ctx = some c' ∧ c'.trDrops = c.trDrops + 1)))

/-- R78, R81, R84, R85, R89 to R91, R96: a bundle of plain moves whose reads can be made reads every source before any write, writes every
destination, and changes nothing else; a write of seq.flags and a read of a stream port are such moves. A configuration word writes four
entries of its scale set. Readings of the model's own: logs 38 and 39. -/
def Obligations.PlainMovesReadBeforeTheyWrite : Prop :=
  (∀ (s : State) (b : Bundle) (k : PlainScene), k.Of s → k.x.guards.length = 15 → b.im = 0 →
    (∀ m ∈ b.moves, trigOf m.dst.toNat = none) →
    (b.moves.map fun m =>
      (loneSource s k.tm k.x (loneSrc b.slot5 m.src)).bind fun r =>
        (resolveDst s k.tm k.x.budget m.dst.toNat).map fun d => (m.g, m.ng, r, d)) =
      k.ms.map (fun m => some (m.g, m.ng, m.src, m.dst)) →
    (∀ set j e, b.slot5 = .cfg set j e → populated s k.tm 10 = true) →
    ∃ s' x' t', exec (.bundleIssue b) s = .next s' ∧ MovesIssue k s s' b.d.toNat b.sw x' ∧ s'.team? k.w.team = some t' ∧
      ((∀ set j e, b.slot5 ≠ .cfg set j e) → t'.scale = k.tm.scale) ∧
      ∀ set j e, b.slot5 = .cfg set j e →
        (∀ i, i < 4 → t'.scale.getD (set.toNat * 16 + 4 * j.toNat + i) 0 = BitVec.ofNat 8 (e.toNat / 2 ^ (8 * i))) ∧
        ∀ q, (∀ i, i < 4 → q ≠ set.toNat * 16 + 4 * j.toNat + i) → t'.scale.getD q 0 = k.tm.scale.getD q 0) ∧
  (∀ (s : State) (t : Trig) (k : PlainScene) (r : RSrc), k.Of s → loneSource s k.tm k.x t.src = some r →
    k.ms = [{ g := t.g, ng := t.ng, src := r, dst := .flags }] → k.x.guards.length = 15 →
    ∃ s' x', exec (.seqFlagsWrite t) s = .next s' ∧ MovesIssue k s s' 0 false x') ∧
  (∀ (s : State) (j : Fin 8) (g : BitVec 4) (ng : Bool) (dst : BitVec 13) (k : PlainScene) (d : RDst), k.Of s →
    resolveDst s k.tm k.x.budget dst.toNat = some d → k.ms = [{ g := g, ng := ng, src := .stream j, dst := d }] →
    k.x.guards.length = 15 →
    ∃ s' x', exec (.streamPortRead j g ng dst) s = .next s' ∧ MovesIssue k s s' 0 false x')

/-- R36, R93, R96, R143, R150, R377, R378, R435, R438: a bundle that reads an unfilled result changes nothing; one that its issue mode leaves
out steps its active lanes on and moves nothing. A hold of a warp is over from the clk that it runs to, and stays before it; a team without an
issue for 4,096 clk, the lowest of its launch, takes issue priority; an FMA pair whose time is over is inactive; an array that has waited 64
clk goes first. That a step whose condition does not hold changes nothing is the model's choice (log 6). Readings of the model's own: logs 32
and 40. -/
def Obligations.HoldsAndSkippedBundles : Prop :=
  (∀ (s : State) (t : Trig) (k : Scene) (u off : Nat), s.issuing = some k.w → s.team? k.w.team = some k.tm → s.warp? k.w = some k.x →
    k.x.chooseAt s.clk = some k.c → loneSource s k.tm k.x t.src = some (.result u off) → k.x.sched = false →
    (∃ l ∈ k.c.active, takesPart k.x t.g t.ng l = true ∧ (k.x.elem u off l).filled = false) →
    exec (.seqFlagsWrite t) s = .next s ∧ exec (.intAdd 0 t) s = .next s ∧ exec (.memLd32 0 t) s = .next s) ∧
  (∀ (s : State) (b : Bundle) (k : PlainScene) (lv : LoopLevel), s.issuing = some k.w → s.team? k.w.team = some k.tm →
    s.warp? k.w = some k.x → k.x.chooseAt s.clk = some k.c → k.x.w32 = false → (∀ set j e, b.slot5 ≠ .cfg set j e) → b.im = 2 →
    (∀ m ∈ b.moves, trigOf m.dst.toNat = none ∧ (loneSource s k.tm k.x (loneSrc b.slot5 m.src)).isSome = true ∧
      (resolveDst s k.tm k.x.budget m.dst.toNat).isSome = true) →
    (k.x.half 0).levels[b.lv.toNat]? = some lv → lv.trip ≠ 1 → (∀ l ∈ k.c.active, k.x.endLevel l k.c.pc = none) →
    ∃ s' x', exec (.bundleIssue b) s = .next s' ∧ s'.warp? k.w = some x' ∧ DeviceKept s s' ∧ x'.ports = k.x.ports ∧
      x'.guards = k.x.guards ∧ x'.sticky = k.x.sticky ∧ x'.fills = k.x.fills ∧ x'.ops = k.x.ops ∧ x'.committed = k.x.committed ∧
      (∀ l, (x'.lane l).regs = (k.x.lane l).regs) ∧ (∀ l ∈ k.c.active, (x'.lane l).pc = nextPc k.c.pc)) ∧
  (∀ (s : State) (i : Instr) (get : Warp → Nat) (set : Warp → Nat → Warp) (w : WRef) (x : Warp), (i, get, set) ∈ holdRows →
    s.subject = .warp w → s.warp? w = some x →
    exec i s = .next (s.setWarp w (set x (if get x ≤ s.clk then 0 else get x)))) ∧
  (∀ (s : State) (n : Nat) (t : Team), s.subject = .num n → s.team? n = some t → t.status = .resident → t.lastIssue + 4096 ≤ s.clk →
    (∀ e ∈ s.teams.entries, e.2.launch = t.launch → t.index ≤ e.2.index) →
    exec .progressBoost s = .next (s.setTeam n { t with warps := t.warps.map fun x => { x with boost := true } })) ∧
  (∀ (s : State) (c q : Nat), s.subject = .pair c q → ((s.core c).quad q).pairActive = true →
    ∃ s', exec .fmaPairIdle s = .next s' ∧
      (((s'.core c).quad q).pairActive = true ↔ s.clk < ((s.core c).quad q).pairUntil) ∧
      (∀ r, r ≠ q → (s'.core c).quad r = (s.core c).quad r) ∧ (∀ d, d ≠ c → s'.core d = s.core d) ∧
      s'.teams = s.teams ∧ s'.mem = s.mem ∧ s'.ldr = s.ldr ∧ s'.eng = s.eng) ∧
  (∀ (s : State) (c : Nat), s.subject = .num c → (s.core c).arrayWait ≠ 0 → (s.core c).arrayWait + 63 ≤ s.clk →
    exec .arrayWaitExpiry s = .next (s.setCore c { s.core c with arrayFirst := true }))


/-! ## Steps of warps and of memory -/

/-- R33, R35, R164, R165: a due fill of a running warp puts the value of each of its lanes in .y, or an FP tag where the lane's exceptions
meet its enables, and the exceptions in .y2, where its trigger is still the lane's last; the sticky flags take every exception. -/
def Obligations.FillsLandAtTheirClk : Prop :=
  ∀ (s : State) (w : WRef) (t : Team) (x : Warp) (f : Fill) (l : Nat), s.subject = .op w f.id l → s.team? w.team = some t →
    t.status = .resident → s.warp? w = some x → x.halted = none → f ∈ x.fills → (∀ g ∈ x.fills, g.id = f.id → g = f) →
    f.unit ≤ 7 → f.due ≤ s.clk → (f.res.map LaneRes.lane).Nodup →
    ∃ s' x', exec (fillStep f) s = .next s' ∧ s' = s.setWarp w x' ∧ ResultsOnly f.unit x x' ∧
      x'.fills = x.fills.filter (fun g => decide (g ≠ f)) ∧ x'.ops = x.ops ∧
      (∀ r ∈ f.res, (x.unit f.unit).last.find? r.lane = some f.id →
        x'.elem f.unit offY r.lane = (if r.trap then .tagged 0x20 0 else .value r.y) ∧ x'.elem f.unit offY2 r.lane = .value r.y2) ∧
      (∀ u off j, (u ≠ f.unit ∨ j ∉ f.res.map LaneRes.lane ∨ (x.unit u).last.find? j ≠ some f.id) → x'.elem u off j = x.elem u off j) ∧
      x'.sticky = (f.res.map LaneRes.exc).foldl (fun a b => a ||| b) x.sticky

/-- R138, R139: once every warp of a phase's roles that has a live lane has arrived, and the stores that it waits for have passed, the phase
completes: the lanes parked in the barrier go on with the new count, and the barrier is cleared; while a live lane is missing, neither
happens. -/
def Obligations.BarrierPhasesComplete : Prop :=
  (∀ (s : State) (n b : Nat) (t : Team), s.subject = .pair n b → s.team? n = some t → (t.bar b).mask ≠ 0 → t.arb = [] →
    (∀ (i : Nat) (x : Warp), t.warps[i]? = some x → (t.bar b).mask.getLsbD x.role = true → ∀ l ∈ x.liveLanes, i * 64 + l ∈ (t.bar b).arrived) →
    (∀ x ∈ t.warps, x.halted = none ∧ ∀ l, (x.lane l).owes = none ∧ ∀ k id, (x.lane l).wait ≠ some (.again b k id)) →
    ∃ s' t', exec .barrierPhaseComplete s = .next s' ∧ s' = s.setTeam n t' ∧
      (t'.bar b) = { phase := (t.bar b).phase + 1, mask := 0, arrived := [], warps := [], stores := [] } ∧
      (∀ j, j ≠ b → t'.bar j = t.bar j) ∧ t'.warps.length = t.warps.length ∧ t'.tstore = t.tstore ∧ t'.jobs = t.jobs ∧
      ∀ (i : Nat) (x x' : Warp), t.warps[i]? = some x → t'.warps[i]? = some x' →
        x'.fills = x.fills ∧ x'.ops = x.ops ∧ x'.guards = x.guards ∧ x'.halves = x.halves ∧
        ∀ l, l < 64 → (∀ id, (x.lane l).wait = some (.barrier b id) →
            (x'.lane l).wait = none ∧ (x'.lane l).pc = (x.lane l).pc ∧
            ((x.unit 16).last.find? l = some id → x'.elem 16 offY l = .value (((t.bar b).phase + 1).setWidth 64))) ∧
          ((∀ id, (x.lane l).wait ≠ some (.barrier b id)) → x'.lane l = x.lane l ∧ x'.elem 16 offY l = x.elem 16 offY l)) ∧
  (∀ (s : State) (n b i l : Nat) (t : Team) (x : Warp), s.subject = .pair n b → s.team? n = some t → t.warps[i]? = some x →
    (t.bar b).mask.getLsbD x.role = true → l ∈ x.liveLanes → i * 64 + l ∉ (t.bar b).arrived →
    ∃ s' t', exec .barrierPhaseComplete s = .next s' ∧ s'.team? n = some t' ∧ t'.warps = t.warps ∧
      (t'.bar b).phase = (t.bar b).phase ∧ (t'.bar b).mask = (t.bar b).mask ∧ (t'.bar b).arrived = (t.bar b).arrived)

/-- R51, R206, R221: the head entry of a store queue with one translated plain lane leaves: its bytes stand in the outstanding-write table on
their way to their home, copies of the core take them at once, and the entry is gone; memory itself does not change yet. An update that has
arrived and is the line's next at its sharer is applied there, but where an own write is later in coherence order, and is over, and the sharer
acknowledges it to the home. The home acknowledges a write when it is performed and every sharer has acknowledged its update; the write leaves
the table when that has come back. That a step whose condition does not hold changes nothing is the model's choice (log 6). Readings of the
model's own: logs 11 and 86. -/
def Obligations.StoresLeaveAndUpdatesArrive : Prop :=
  (∀ (s : State) (w : WRef) (t : Team) (x : Warp) (o : Op) (i : Item) (q : Place) (r : List Nat), s.subject = .warp w →
    s.team? w.team = some t → t.status ≠ .saved → s.warp? w = some x → x.sq = o.id :: r → o.id ∉ r → o ∈ x.ops →
    (x.ops.map Op.id).Nodup → o.items = [i] → o.info = [] → isMem o.unit = true → isStore o.opc = true → isTs o.opc i.m = false →
    i.place = some q → q.tgt = 0 → q.ver = false → q.pa % 32 + memWidth o.opc i.c ≤ 32 → mayLeave s w x o = true →
    (∀ e ∈ s.mem.writes.entries, e.2.lost = false) → (∀ e ∈ x.ops, e.items ≠ []) →
    (∀ y, x.txnOf o = some y → y.lines.entries.length ≤ 2048) →
    ∃ s' x' m, exec .storeQueueLeave s = .next s' ∧ s'.warp? w = some x' ∧ x'.ops = x.ops.filter (fun p => decide (p ≠ o)) ∧
      s'.mem.writes.find? s.nextId = some m ∧ m.core = t.core ∧ m.warp = some w ∧ m.op = o.id ∧ m.tgt = 0 ∧ m.arrived = false ∧
      m.performed = false ∧ m.lost = false ∧
      (∀ a b, (a, b) ∈ m.bytes ↔ q.pa ≤ a ∧ a < q.pa + memWidth o.opc i.c ∧
        b = BitVec.ofNat 8 (i.b.toNat / 2 ^ (8 * (a - q.pa)))) ∧
      (∀ j, j ≠ s.nextId → s'.mem.writes.find? j = s.mem.writes.find? j) ∧ BytesKept s s' ∧ StoreKept w.team s s' ∧ StepKept w s s' ∧
      x'.lanes = x.lanes ∧ x'.ports = x.ports ∧ x'.guards = x.guards ∧ x'.txn = x.txn ∧
      (∀ sec y, s.l1Sector t.core sec = some y → y.bytes.length = 32 →
        ∃ y', s'.l1Sector t.core sec = some y' ∧ ∀ k, k < 32 → y'.bytes.getD k 0 =
          if q.pa ≤ 32 * sec + k ∧ 32 * sec + k < q.pa + memWidth o.opc i.c then
            BitVec.ofNat 8 (i.b.toNat / 2 ^ (8 * (32 * sec + k - q.pa)))
          else y.bytes.getD k 0)) ∧
  (∀ (s : State) (n : Nat) (u : Update) (k : Core), s.subject = .num n → s.mem.updates.find? n = some u → u.arrived = true →
    (∀ v ∈ s.mem.updates.vals, v.core = u.core → v.line = u.line → u.seqno ≤ v.seqno) → s.cores.find? u.core = some k →
    ∃ s', exec .updateApply s = .next s' ∧ s'.mem.updates.find? n = none ∧
      (∀ j, j ≠ n → s'.mem.updates.find? j = s.mem.updates.find? j) ∧ s'.mem.writes = s.mem.writes ∧ BytesKept s s' ∧
      s'.teams = s.teams ∧ s'.ldr = s.ldr ∧ MessagePut s s' 3 (coreEndpoint u.core) (homeEndpoint (homeSlice (512 * u.line))) (.updateAck u.write) ∧
      (∀ c, c ≠ u.core → s'.core c = s.core c) ∧
      ∀ sec y, k.l1.find? sec = some y → y.bytes.length = 32 →
        ∃ y', (s'.core u.core).l1.find? sec = some y' ∧ ∀ i, i < 32 →
          (∀ b, (32 * sec + i, b) ∈ u.bytes → (∀ b', (32 * sec + i, b') ∈ u.bytes → b' = b) → ownLater s u (32 * sec + i) = false →
            y'.bytes.getD i 0 = b) ∧
          (((∀ b, (32 * sec + i, b) ∉ u.bytes) ∨ ownLater s u (32 * sec + i) = true) → y'.bytes.getD i 0 = y.bytes.getD i 0)) ∧
  (∀ (s : State) (n : Nat) (m : MemWrite), s.subject = .num n → s.mem.writes.find? n = some m →
    (m.ack = 2 → ∃ s', exec .writeAcknowledge s = .next s' ∧ s'.mem.writes.find? n = none ∧
      (∀ j, j ≠ n → s'.mem.writes.find? j = s.mem.writes.find? j) ∧ s'.mem.updates = s.mem.updates ∧ BytesKept s s' ∧
      s'.teams = s.teams ∧ s'.cores = s.cores ∧ s'.ldr = s.ldr ∧ s'.eng = s.eng) ∧
    (m.ack = 0 → canAck s n m = true → m.core < 256 → m.tgt ≠ 2 → ∃ s', exec .writeAcknowledge s = .next s' ∧
      s'.mem.writes.find? n = some { m with ack := 1 } ∧ (∀ j, j ≠ n → s'.mem.writes.find? j = s.mem.writes.find? j) ∧
      s'.mem.updates = s.mem.updates ∧ BytesKept s s' ∧ s'.teams = s.teams ∧ s'.cores = s.cores ∧ s'.ldr = s.ldr ∧
      MessagePut s s' 3 (targetEndpoint m.tgt m.dev (512 * m.line)) (coreEndpoint m.core) (.ack n)) ∧
    (m.ack = 1 ∨ m.ack = 0 ∧ (m.performed = false ∨ ∃ u ∈ s.mem.updates.vals, u.write = n) → exec .writeAcknowledge s = .next s))

/-- R61, R139: a team-store store that may pass the arbiter writes its bytes in order, fills its lanes and leaves; the barriers that wait for
it are looked at next. -/
def Obligations.TeamStoreWritesPassTheArbiter : Prop :=
  ∀ (s : State) (w : WRef) (l : Nat) (t : Team) (x : Warp) (o : Op) (a : TsWrite), s.subject = .op w o.id l → s.team? w.team = some t →
    t.status ≠ .saved → s.warp? w = some x → o ∈ x.ops → (x.ops.map Op.id).Nodup → (o.items.map Item.lane).Nodup →
    isMem o.unit = true → isStore o.opc = true → (∀ i ∈ o.items, isTs o.opc i.m = true ∧ i.lost = false) → a ∈ t.arb → a.op = o.id →
    (∀ b ∈ t.arb, b.op = o.id → b = a) → o.items ≠ [] → mayPass s w t x o = true → x.halted = none →
    ∃ s' t' x', exec .tstoreArbiterPass s = .next s' ∧ s'.team? w.team = some t' ∧ s'.warp? w = some x' ∧
      t'.arb = t.arb.filter (fun b => decide (b.op ≠ o.id)) ∧
      (∀ n, t'.tstore.getD n 0 = match a.writes.reverse.find? (fun b => b.1 == n) with
        | some b => b.2
        | none => t.tstore.getD n 0) ∧
      x'.op? o.id = none ∧ (∀ i ∈ o.items, (x.unit o.unit).last.find? i.lane = some o.id →
        x'.elem o.unit offY i.lane = .value 0 ∧ x'.elem o.unit offY2 i.lane = .value 0) ∧
      ResultsOnly o.unit x x' ∧ StepKept w s s' ∧ BytesKept s s' ∧ t'.bars = t.bars ∧
      ∀ b e, t.bars.find? b = some e → o.id ∈ e.stores → .event .barrierPhaseComplete (.pair w.team b) ∈ s'.agenda

/-- R51, R198, R206, R211, R223: a translated load of plain memory that may perform, finds no queued store of its warp and no poison fills its
bytes, extended as its opcode says: from the core's copy, or when its request has come back from below; a load of team store fills from team
store; a poisoned sector fills a POISON tag. Memory does not change. Readings of the model's own: logs 11 and 42. -/
def Obligations.LoadsFillTheirBytes : Prop :=
  ∀ (s : State) (p : Pick) (n : Nat), OnLane s p → isMem p.op.unit = true → (p.op.opc, n) ∈ loadRows → p.item.stage = .go →
    (∀ q, isTs p.op.opc p.item.m = false → p.item.place = some q → q.ver = false → mayRead p.warp p.op = true →
      forward p.warp p.op.id p.item.a.toNat n q = .none →
      (loadPoisoned s p q n = false → l1Hit s (s.coreOf p.w.team) q.gaddr n (p.op.opc == 35) = true → p.item.trip = 0 →
        ∃ s' x', exec .loadFill s = .next s' ∧ s'.warp? p.w = some x' ∧ StepKept p.w s s' ∧ BytesKept s s' ∧ StoreKept p.w.team s s' ∧
          LaneEnds p (.value (loadedValue p.op.opc (l1Bytes s (s.coreOf p.w.team) q.gaddr n))) (.value 0) x') ∧
      (loadPoisoned s p q n = false → l1Hit s (s.coreOf p.w.team) q.gaddr n (p.op.opc == 35) = false → p.item.trip = 2 → (peerRefuses s q).1 = false →
        ∃ s' x', exec .loadFill s = .next s' ∧ s'.warp? p.w = some x' ∧ StepKept p.w s s' ∧ BytesKept s s' ∧ StoreKept p.w.team s s' ∧
          LaneEnds p (.value (loadedValue p.op.opc ((List.range n).map fun k => missByte s (s.coreOf p.w.team) q.tgt q.dev (q.pa + k))))
            (.value 0) x') ∧
      (loadPoisoned s p q n = true → p.item.trip = 2 → p.op.inTxn = false → (p.warp.lane p.item.lane).wait = none →
        ∃ s' x', exec .loadFill s = .next s' ∧ s'.warp? p.w = some x' ∧ StepKept p.w s s' ∧ BytesKept s s' ∧
          LaneEnds p (.tagged 0x12 0) (.tagged 0x12 0) x')) ∧
    (∀ t, isTs p.op.opc p.item.m = true → s.team? p.w.team = some t → tsClear p.warp p.op p.item = true →
      p.warp.unfenced p.op.id = true → t.tsPoisoned p.item.a.toNat n = false →
      ∃ s' x', exec .loadFill s = .next s' ∧ s'.warp? p.w = some x' ∧ StepKept p.w s s' ∧ BytesKept s s' ∧ StoreKept p.w.team s s' ∧
        LaneEnds p (.value (loadedValue p.op.opc ((List.range n).map fun k => t.tstore.getD (p.item.a.toNat + k) 0))) (.value 0) x')

/-- R198, R207, R208: an atomic that may perform reads its location, writes the value of its opcode's row there unless a compare fails, and
fills the old value and 0, or 5 for a failed compare; no other byte of memory or team store changes. Readings of the model's own: logs 11 and
33. -/
def Obligations.AtomicsReadModifyWrite : Prop :=
  ∀ (s : State) (p : Pick) (n : Nat) (f : Nat → Nat → Nat → Option Nat), OnLane s p → isMem p.op.unit = true → (p.op.opc, n, f) ∈ atomRows →
    p.item.stage = .go →
    (∀ q, isTs p.op.opc p.item.m = false → p.item.place = some q → q.ver = false → mayAtomicGlobal s p q = true →
      mayAtomic s p true = true → atomicLost s p q = false → p.item.trip = 2 → poisonedAt s q n = false → (peerRefuses s q).1 = false → q.tgt < 3 →
      (q.tgt = 2 → q.pa + n ≤ 2 ^ 40) →
      let old := lowFirst ((List.range n).map fun k => s.mem.byteAt q.tgt q.dev (q.pa + k))
      ∃ s' x', exec .atomicPerform s = .next s' ∧ s'.warp? p.w = some x' ∧ StepKept p.w s s' ∧ StoreKept p.w.team s s' ∧
        LaneEnds p (.value (BitVec.ofNat 64 old)) (.value (if (f old p.item.b.toNat p.item.c.toNat).isSome then 0 else 5)) x' ∧
        BytesBut q n s s' ∧ ∀ k, k < n → s'.mem.byteAt q.tgt q.dev (q.pa + k) =
          match f old p.item.b.toNat p.item.c.toNat with
          | some v => BitVec.ofNat 8 (v / 2 ^ (8 * k))
          | none => s.mem.byteAt q.tgt q.dev (q.pa + k)) ∧
    (∀ t, isTs p.op.opc p.item.m = true → s.team? p.w.team = some t → (∀ b ∈ t.arb, b.warp = p.w.warp → p.op.id ≤ b.op) →
      tsClear p.warp p.op p.item = true → mayAtomic s p true = true → t.tsPoisoned p.item.a.toNat n = false →
      let a := p.item.a.toNat
      let old := lowFirst ((List.range n).map fun k => t.tstore.getD (a + k) 0)
      ∃ s' x' t', exec .atomicPerform s = .next s' ∧ s'.warp? p.w = some x' ∧ s'.team? p.w.team = some t' ∧ StepKept p.w s s' ∧
        BytesKept s s' ∧
        LaneEnds p (.value (BitVec.ofNat 64 old)) (.value (if (f old p.item.b.toNat p.item.c.toNat).isSome then 0 else 5)) x' ∧
        ∀ j, t'.tstore.getD j 0 = match f old p.item.b.toNat p.item.c.toNat with
          | some v => if a ≤ j ∧ j < a + n then BitVec.ofNat 8 (v / 2 ^ (8 * (j - a))) else t.tstore.getD j 0
          | none => t.tstore.getD j 0)

/-- R55, R210, R211: a fence whose earlier events are performed at the widest scope of its lanes completes: every lane fills 0, the core's
non-coherent copies go, and at system scope the remote copies that it could read; an earlier event not performed keeps it. That a step whose
condition does not hold changes nothing is the model's choice (log 6). Readings of the model's own: logs 28 and 43. -/
def Obligations.FencesWaitForEarlierEvents : Prop :=
  ∀ (s : State) (w : WRef) (l : Nat) (x : Warp) (o : Op), s.subject = .op w o.id l → s.onCore w.team = true → s.warp? w = some x →
    o ∈ x.ops → (x.ops.map Op.id).Nodup → (o.items.map Item.lane).Nodup → isMem o.unit = true → o.opc = 25 →
    let sc := maxOf (o.items.map fun i => i.m.toNat % 8)
    (x.unfenced o.id = true → fenceReady s w o.id sc = true → lostBefore s w o.id = false → (∀ i ∈ o.items, i.lost = false) →
      x.halted = none → o.items ≠ [] →
      ∃ s' x', exec .fenceComplete s = .next s' ∧ s'.warp? w = some x' ∧ x'.op? o.id = none ∧ ResultsOnly o.unit x x' ∧
        (∀ i ∈ o.items, (x.unit o.unit).last.find? i.lane = some o.id →
          x'.elem o.unit offY i.lane = .value 0 ∧ x'.elem o.unit offY2 i.lane = .value 0) ∧
        StepKept w s s' ∧ BytesKept s s' ∧ StoreKept w.team s s' ∧
        (∀ sec y, (s'.core (s.coreOf w.team)).l1.find? sec = some y → y.nc = false ∧ (sc = 4 → y.remote = false)) ∧
        (sc = 4 → ∀ line, s'.remoteLine (s.coreOf w.team) line = none)) ∧
    ((∃ e ∈ x.ops, e.id < o.id ∧ e.isEvent = true) → exec .fenceComplete s = .next s)

/-- R212 to R214: a monitor whose read at the home meets its condition releases its lane with the value read; one whose condition fails stays
armed or reads again 1,024 clk later; a poll before its clk does nothing; a saved team is marked to come back. That a step whose condition
does not hold changes nothing is the model's choice (log 6). Readings of the model's own: log 80. -/
def Obligations.MonitorsReleaseOrStay : Prop :=
  ∀ (s : State) (p : Pick) (q : Place), OnLane s p → isMem p.op.unit = true → p.op.opc = 26 → p.item.place = some q → p.item.trip = 2 →
    let n := if p.item.c.toNat / 4 % 2 = 1 then 8 else 4
    let v := lowFirst ((List.range n).map fun k => s.mem.byteAt q.tgt q.dev (q.pa + k))
    let released := fun (r : Host.Outcome State Fault Refusal) => ∃ s' x' y, r = .next s' ∧ s'.warp? p.w = some x' ∧
      LaneEnds { p with warp := y } (.value (BitVec.ofNat 64 v)) (.value 0) x' ∧ y = p.warp.release p.item.lane ∧
      (x'.lane p.item.lane).wait = none ∧ StepKept p.w s s' ∧ BytesKept s s' ∧ StoreKept p.w.team s s'
    poisonedAt s q n = false → s.team? p.w.team ≠ none → (p.item.stage = .armed → lineOpen s (s.coreOf p.w.team) q = false) →
    (p.item.stage = .go → (peerRefuses s q).1 = false) →
    (p.item.stage = .armed → waitHolds p.item.c.toNat v p.item.b.toNat → (∃ t, s.team? p.w.team = some t ∧ t.status = .resident) →
      (p.warp.lane p.item.lane).owes = none → released (exec .monitorRetest s)) ∧
    (p.item.stage = .armed → ¬ waitHolds p.item.c.toNat v p.item.b.toNat → p.item.extra = [] →
      ∃ s', exec .monitorRetest s = .next s' ∧ s'.warp? p.w = some p.warp ∧ s'.mem = s.mem ∧ s'.ldr = s.ldr ∧ s'.cores = s.cores) ∧
    (p.item.stage = .armed → waitHolds p.item.c.toNat v p.item.b.toNat → (∃ t, s.team? p.w.team = some t ∧ t.status ≠ .resident) →
      exec .monitorRetest s = .next (s.modTeam p.w.team fun t => { t with wake := true })) ∧
    (∀ c, p.item.stage = .go → p.item.extra = [c] →
      (s.clk < c → exec .monitorPoll s = .next s) ∧
      (c ≤ s.clk → waitHolds p.item.c.toNat v p.item.b.toNat → (∃ t, s.team? p.w.team = some t ∧ t.status = .resident) →
        (p.warp.lane p.item.lane).owes = none → released (exec .monitorPoll s)) ∧
      (c ≤ s.clk → ¬ waitHolds p.item.c.toNat v p.item.b.toNat → q.tgt = 1 →
        ∃ s' x' i, exec .monitorPoll s = .next s' ∧ s'.warp? p.w = some x' ∧ itemAt x' p.op.id p.item.lane = some i ∧
          i = { p.item with extra := [s.clk + 1024] } ∧ x'.lanes = p.warp.lanes ∧ x'.ports = p.warp.ports ∧ s'.mem = s.mem))

/-! ## Translation -/

/-- R224, R225: in the physical function's one stage, five valid entries lead from the root to the 4 KiB leaf of an address, whose frame,
target, grain and rights the translation answers; an entry that is not valid ends the walk. Readings of the model's own: log 22. -/
def Obligations.WalksFollowTheTables : Prop :=
  ∀ (s : State) (ctx va : Nat) (own : Bool) (base e : Nat → Nat), s.funcOf ctx = 64 → va < 2 ^ 57 →
    base 4 = (s.cfgWord ctx 7).toNat / 2 ^ 12 * 2 ^ 12 →
    (∀ k, k ≤ 4 → e k = (s.mem.word (base k + 8 * (va / 2 ^ (12 + 9 * k) % 2 ^ 9))).toNat) →
    (∀ k, k < 4 → base k = e (k + 1) / 2 ^ 12 % 2 ^ 40 * 2 ^ 12) →
    ((∀ k, 1 ≤ k → k ≤ 4 → e k % 2 ^ 12 = 1 ∧ e k / 2 ^ 52 = 0) → e 0 % 4 = 3 → e 0 / 2 ^ 4 % 4 = 0 → e 0 / 2 ^ 8 % 2 ^ 3 ≤ 2 →
      e 0 / 2 ^ 6 % 2 = 0 ∨ e 0 / 2 ^ 7 % 2 = 0 → (e 0 / 2 ^ 6 % 4 ≤ 1 → e 0 / 2 ^ 52 = 0) → (e 0 / 2 ^ 6 % 4 = 2 → e 0 / 2 ^ 59 = 0) →
      walkPage s ctx va own = .ok
        { tgt := e 0 / 2 ^ 6 % 4, dev := if e 0 / 2 ^ 6 % 4 = 2 then e 0 / 2 ^ 40 % 2 ^ 19 else 0,
          pa := (if e 0 / 2 ^ 6 % 4 = 2 then e 0 / 2 ^ 12 % 2 ^ 28 else e 0 / 2 ^ 12 % 2 ^ 40) * 2 ^ 12 + va % 2 ^ 12,
          grain := if e 0 / 2 ^ 8 % 8 = 0 then 32 else if e 0 / 2 ^ 8 % 8 = 1 then 128 else 512, ver := decide (e 0 / 2 ^ 11 % 2 = 1),
          wr := decide (e 0 / 2 ^ 2 % 2 = 1), wr1 := decide (e 0 / 2 ^ 2 % 2 = 1) }) ∧
    (∀ n, n ≤ 4 → (∀ k, n < k → k ≤ 4 → e k % 2 ^ 12 = 1 ∧ e k / 2 ^ 52 = 0) → e n % 2 = 0 →
      walkPage s ctx va own = .error { kind := 0, s2 := false })

/-- R200, R201, R228, R229, R231, R233: a translated lane of a memory operation goes on, a store's lane fills; a failure is reported next: a
recoverable one writes its entry and waits on a page request, or retries after 1,024 clk while the ring is full; another one fills its tag. A
request older than the context's limit, and an unrecoverable fault, fill a tag. That a step whose condition does not hold changes nothing is
the model's choice (log 6). -/
def Obligations.WalksFaultsAndRetries : Prop :=
  (∀ (s : State) (p : Pick), OnTrans s p → isMem p.op.unit = true → p.op.opc ≠ 27 → p.item.stage = .walk →
    let wr := isStore p.op.opc || isAtomic p.op.opc
    let va := p.item.a.toNat
    let core := s.coreOf p.w.team
    walkers p.op (va / 4096) = [p.item.lane] →
    (∀ q, (∀ r ∈ answers s core (s.ctxOf p.w.team) va wr, r = .inr q) → q.tgt = 0 → q.ver = false →
      ∃ s' x', exec .tableWalk s = .next s' ∧ s'.warp? p.w = some x' ∧
        LaneMoves p { p.item with stage := .go, place := some q, epoch := s.mem.epoch, filled := isStore p.op.opc || p.item.filled }
          (if isStore p.op.opc then some (.value 0) else none) x' ∧
        ({ ctx := s.ctxOf p.w.team, page := va / 4096, place := { q with pa := q.pa - va % 4096 } } : TlbEntry) ∈ (s'.core core).tlb ∧
        StepKept p.w s s' ∧ BytesKept s s' ∧ StoreKept p.w.team s s') ∧
    (∀ e, (∀ r ∈ answers s core (s.ctxOf p.w.team) va wr, r = .inl e) → (∀ i ∈ p.op.items, i.failedPage ≠ some (va / 4096)) →
      ∃ s' x', exec .tableWalk s = .next s' ∧ s'.warp? p.w = some x' ∧
        LaneMoves p { p.item with stage := .failed e.kind e.s2 va wr } none x' ∧ StepKept p.w s s' ∧ BytesKept s s' ∧
        s'.agenda.head? = some (.event .translationFault (.trans (.op p.w p.op.id p.item.lane))))) ∧
  (∀ (s : State) (p : Pick) (t : Team) (c : Context) (kind va : Nat) (s2 wr : Bool), OnTrans s p → isMem p.op.unit = true → p.op.inTxn = false →
    s.team? p.w.team = some t → s.context? t.ctx = some c → p.item.stage = .failed kind s2 va wr → kind ≤ 3 →
    (∀ i ∈ p.op.items, i.lane ≠ p.item.lane → i.failedPage ≠ some (va / 4096)) →
    let rec_ := kind = 0 ∧ (s.cfgWord t.ctx 4).toNat % 2 = 1
    (¬ rec_ → ∃ s' x', exec .translationFault s = .next s' ∧ s'.warp? p.w = some x' ∧
      LaneEnds p (.tagged (if kind = 1 then 0x11 else 0x10) 0) (.tagged (if kind = 1 then 0x11 else 0x10) 0) x' ∧ StepAside p.w s s' ∧
      (¬ RingIsFull s t.ctx c → EntryWritten s s' t c (memFaultWords s p t c kind s2 wr va 0)) ∧
      (RingIsFull s t.ctx c → BytesKept s s' ∧ s'.context? t.ctx = some { c with fqRetries := c.fqRetries + 1 })) ∧
    (rec_ → ¬ RingIsFull s t.ctx c → (s.func c.func).reqs.entries.length < 4096 → (s.func c.func).nextReq ≠ 0 →
      (s.func c.func).reqs.find? 0 = none → ((s.func c.func).reqs.entries.map Prod.fst).Nodup →
      ∃ s' x' r q, exec .translationFault s = .next s' ∧ s'.warp? p.w = some x' ∧ LaneMoves p { p.item with stage := .paged r } none x' ∧
        StepAside p.w s s' ∧ EntryWritten s s' t c (memFaultWords s p t c kind s2 wr va r) ∧
        (s'.func c.func).reqs.find? r = some q ∧ q.ctx = t.ctx ∧ q.page = va / 4096 ∧
        ((s.func c.func).reqs.find? r = some q ∨ q.clk = s.clk)) ∧
    (rec_ → RingIsFull s t.ctx c → ∃ s' x', exec .translationFault s = .next s' ∧ s'.warp? p.w = some x' ∧
      LaneMoves p { p.item with stage := .retry (s.clk + 1024) } none x' ∧ StepKept p.w s s' ∧ BytesKept s s')) ∧
  (∀ (s : State) (p : Pick) (k : Nat) (c : Context), OnTrans s p → p.item.stage = .retry k → s.context? (s.ctxOf p.w.team) = some c →
    (k ≤ s.clk → ∃ s' x', exec .faultQueueRetry s = .next s' ∧ s'.warp? p.w = some x' ∧ LaneMoves p { p.item with stage := .walk } none x' ∧
      StepAside p.w s s' ∧ s'.mem = s.mem ∧ s'.context? (s.ctxOf p.w.team) = some { c with fqRetries := c.fqRetries + 1 }) ∧
    (s.clk < k → exec .faultQueueRetry s = .next s)) ∧
  ∀ (s : State) (f r : Nat) (q : PageReq), s.subject = .pair f r → (s.func f).reqs.find? r = some q →
    let limit := q.clk + 2 ^ ((s.cfgWord q.ctx 4).toNat / 2 ^ 16 % 2 ^ 6)
    (s.clk ≤ limit → exec .pageRequestTimeout s = .next s) ∧
    (limit < s.clk → ∃ s', exec .pageRequestTimeout s = .next s' ∧ (s'.func f).reqs.find? r = none ∧ s'.mem = s.mem ∧ s'.cores = s.cores ∧
      (∀ j, j ≠ r → (s'.func f).reqs.find? j = (s.func f).reqs.find? j) ∧ (waitersOn s f r = [] → s'.teams = s.teams) ∧
      ∀ p : Pick, OnTrans { s with subject := .trans (.op p.w p.op.id p.item.lane) } p → waitersOn s f r = [.op p.w p.op.id p.item.lane] →
        p.op.inTxn = false → ∃ x', s'.warp? p.w = some x' ∧ LaneEnds p (.tagged 0x10 0) (.tagged 0x10 0) x' ∧ StepAside p.w s s')

/-- R218, R221 to R223, R235, R321: evicted lines leave L1, or every copy; an error in stored data is counted, and one that cannot be
corrected poisons what it struck, or discards an L1 sector; a frame leaves quarantine with its version chains once no older access is in
flight. That a step whose condition does not hold changes nothing is the model's choice (log 6). Readings of the model's own: logs 46 and
63. -/
def Obligations.EvictionsErrorsAndQuarantine : Prop :=
  (∀ (s : State) (c line : Nat), s.subject = .pair c line →
    ∃ s', exec .l1Eviction s = .next s' ∧ s'.teams = s.teams ∧ s'.mem = s.mem ∧ s'.ldr = s.ldr ∧ s'.eng = s.eng ∧
      ∀ d sec, (s'.core d).l1.find? sec = if d = c ∧ sec / 16 = line then none else (s.core d).l1.find? sec) ∧
  (∀ (s : State) (line : Nat), s.subject = .num line →
    ∃ s', exec .l2Eviction s = .next s' ∧ s'.teams = s.teams ∧ s'.mem = s.mem ∧ s'.ldr = s.ldr ∧ s'.eng = s.eng ∧
      ∀ d sec, (s'.core d).l1.find? sec = if sec / 16 = line then none else (s.core d).l1.find? sec) ∧
  (∀ (s : State) (die line : Nat), s.subject = .pair die line → die < 4 →
    ∃ s', exec .l2Eviction s = .next s' ∧ s'.teams = s.teams ∧ s'.cores = s.cores ∧ BytesKept s s' ∧ s'.mem.writes = s.mem.writes ∧
      s'.ldr = s.ldr ∧ s'.eng = s.eng ∧ ∀ c n, c < 256 → s'.remoteLine c n = if n = line ∧ dieOf c = die then none else s.remoteLine c n) ∧
  (∀ (s : State) (fixed : Bool) (site : EccSite), s.subject = .ecc site fixed → s.mem.errors.length = 6 →
    ∃ s', exec .eccError s = .next s' ∧ s'.clk = s.clk ∧ s'.ldr = s.ldr ∧ s'.mem.bytes = s.mem.bytes ∧ s'.mem.writes = s.mem.writes ∧
      match site with
      | .l1 c sec => s'.mem = s.mem ∧ s'.teams = s.teams ∧
          ∀ d n, (s'.core d).l1.find? n = if d = c ∧ n = sec then none else (s.core d).l1.find? n
      | .l2 sec => s'.cores = s.cores ∧
          (∀ k, s'.mem.errors.getD k 0 = s.mem.errors.getD k 0 + if k = (if fixed then 0 else 4) then 1 else 0) ∧
          ((∀ t ∈ s.teams.vals, ∀ x ∈ t.warps, x.txn = none) → s'.teams = s.teams ∧
            ∀ n, n ∈ s'.mem.poison ↔ n ∈ s.mem.poison ∨ (n = sec ∧ fixed = false))
      | .hbm sec => s'.cores = s.cores ∧ s'.teams = s.teams ∧
          (∀ k, s'.mem.errors.getD k 0 = s.mem.errors.getD k 0 + if k = (if fixed then 1 else 5) then 1 else 0) ∧
          ∀ n, n ∈ s'.mem.poison ↔ n ∈ s.mem.poison ∨ (n = sec ∧ fixed = false)
      | .tstore team word => s'.cores = s.cores ∧ s'.mem.poison = s.mem.poison ∧
          (∀ k, s'.mem.errors.getD k 0 = s.mem.errors.getD k 0 + if k = 2 ∧ fixed = true then 1 else 0) ∧
          (∀ j, j ≠ team → s'.team? j = s.team? j) ∧
          ∀ t, s.team? team = some t → ∃ t', s'.team? team = some t' ∧ t'.tstore = t.tstore ∧ t'.warps = t.warps ∧ t'.jobs = t.jobs ∧
            ∀ n, n ∈ t'.tsPoison ↔ n ∈ t.tsPoison ∨ (n = word ∧ 4 * word < t.tsSize ∧ fixed = false)
      | .remote die line sec => s'.cores = s.cores ∧ s'.teams = s.teams ∧ s'.eng = s.eng ∧ s'.mem.poison = s.mem.poison ∧
          (∀ k, s'.mem.errors.getD k 0 = s.mem.errors.getD k 0 + if k = (if fixed then 0 else 4) then 1 else 0) ∧
          ∀ c n, c < 256 → die < 4 → (s'.remoteLine c n).map RemoteLine.bytes = (s.remoteLine c n).map RemoteLine.bytes ∧ ∀ r r', s.remoteLine c n = some r →
            s'.remoteLine c n = some r' → ∀ k, k ∈ r'.poison ↔ k ∈ r.poison ∨ (dieOf c = die ∧ n = line ∧ k = sec % 16 ∧ fixed = false)
      | .version line time sec => s'.cores = s.cores ∧ s'.teams = s.teams ∧ s'.mem.poison = s.mem.poison ∧ s'.mem.remote = s.mem.remote ∧
          (∀ k, s'.mem.errors.getD k 0 = s.mem.errors.getD k 0 + if k = (if fixed then 1 else 5) then 1 else 0) ∧
          ∀ n, (s'.chain n).time = (s.chain n).time ∧ (s'.chain n).older.length = (s.chain n).older.length ∧
            ∀ (i : Nat) (v v' : Version), (s.chain n).older[i]? = some v → (s'.chain n).older[i]? = some v' →
              v'.time = v.time ∧ v'.bytes = v.bytes ∧ ∀ k, k ∈ v'.poison ↔ k ∈ v.poison ∨ (n = line ∧ v.time = time ∧ k = sec % 16 ∧ fixed = false)
      | .plane c second => s'.teams = s.teams ∧ s'.mem.poison = s.mem.poison ∧ s'.eng = s.eng ∧
          (∀ k, s'.mem.errors.getD k 0 = s.mem.errors.getD k 0 + if k = 3 ∧ fixed = true then 1 else 0) ∧
          ∀ d, ((s'.core d).mx.p0.poison = true ↔ (s.core d).mx.p0.poison = true ∨ (d = c ∧ second = false ∧ fixed = false)) ∧
            ((s'.core d).mx.p1.poison = true ↔ (s.core d).mx.p1.poison = true ∨ (d = c ∧ second = true ∧ fixed = false)) ∧
            (s'.core d).mx.tiles = (s.core d).mx.tiles ∧ (s'.core d).mx.poison = (s.core d).mx.poison
      | .flit _ _ _ => s'.cores = s.cores ∧ s'.teams = s.teams ∧ s'.mem = s.mem ∧ s'.eng.snap = s.eng.snap ∧ s'.eng.tell = s.eng.tell ∧
          (fixed = true → s'.eng.fab.messages = s.eng.fab.messages ∧ s'.eng.fab.flits = s.eng.fab.flits)
      | .port w code lane => s'.cores = s.cores ∧
          (∀ k, s'.mem.errors.getD k 0 = s.mem.errors.getD k 0 + if k = 3 ∧ fixed = true then 1 else 0) ∧
          (∀ j, j ≠ w.team → s'.team? j = s.team? j) ∧
          ∀ x, s.warp? w = some x → ∃ x', s'.warp? w = some x' ∧ x'.ports = x.ports ∧ x'.lanes = x.lanes ∧ x'.ops = x.ops ∧
            ∀ e, e ∈ x'.poison ↔ e ∈ x.poison ∨ (e = (code, lane) ∧ fixed = false)
      | .acc c tile e => s'.teams = s.teams ∧ s'.mem.poison = s.mem.poison ∧
          (∀ k, s'.mem.errors.getD k 0 = s.mem.errors.getD k 0 + if k = 3 ∧ fixed = true then 1 else 0) ∧
          ∀ d n, n ∈ (s'.core d).mx.poison ↔ n ∈ (s.core d).mx.poison ∨ (d = c ∧ n = tile * 16384 + e ∧ fixed = false)) ∧
  ∀ (s : State) (q : QFrame), s.subject = .num q.frame → q ∈ s.mem.quarantine → (∀ r ∈ s.mem.quarantine, r.frame = q.frame → r = q) →
    ((∀ e ∈ epochsInFlight s, q.stamp ≤ e) → q.stamp ≤ s.mem.epoch →
      ∃ s', exec .quarantineRelease s = .next s' ∧ s'.teams = s.teams ∧ s'.cores = s.cores ∧ s'.ldr = s.ldr ∧ BytesKept s s' ∧
        s'.mem.quarantine = s.mem.quarantine.filter (fun r => decide (r ≠ q)) ∧
        ∀ line, s'.eng.snap.chains.find? line = if line / 8 = q.frame then none else s.eng.snap.chains.find? line) ∧
    ((∃ e ∈ epochsInFlight s, e < q.stamp) → exec .quarantineRelease s = .next s)

/-! ## Jobs -/

/-- R58, R242, R254: a job that no edge and no earlier event of its warp holds begins; an empty one is over at once. A unit of a copy or fill
writes its bytes, at most 512, and nothing else; the cursor passes a unit once its writes have performed. That a step whose condition does not
hold changes nothing is the model's choice (log 6). Readings of the model's own: logs 21 and 50. -/
def Obligations.CopyJobsRun : Prop :=
  (∀ (s : State) (team : Nat) (t : Team) (b : Job), OnJob s team t b → b.unit = 11 → b.opc ≤ 8 → b.begun = false → b.ending = false →
    b.stage = .go →
    (warpClear s team b = true → edgesClear s team b = true → ∃ s', exec .jobBegin s = .next s' ∧ s'.mem = s.mem ∧ s'.ldr = s.ldr ∧
      JobMoves team t b { b with begun := true, ending := decide (b.total = 0), bar := if b.total = 0 then 0 else b.bar } t.warps s s') ∧
    (warpClear s team b = false ∨ edgesClear s team b = false → exec .jobBegin s = .next s)) ∧
  (∀ (s : State) (team : Nat) (t : Team) (b : Job) (pg : Nat → Place), OnJob s team t b → b.unit = 11 → b.begun = true → b.ending = false →
    b.acc = 0 → b.stage = .go →
    let n := min 512 (b.total - 512 * b.cursor)
    let src := (List.range n).map fun k => operandAddr (modeSrcTs b.mode) b.a + 512 * b.cursor + k
    let dst := (List.range n).map fun k => operandAddr (modeDstTs b.mode) b.b + 512 * b.cursor + k
    Writable s t (modeDstTs b.mode) pg dst →
    (b.opc = 0 → copyOverlaps b = false → Readable s t b (modeSrcTs b.mode) pg src →
      ∃ s', exec .copyCursorAdvance s = .next s' ∧ JobMoves team t b { b with acc := n, fetch := .empty } t.warps s s' ∧ s'.ldr = s.ldr ∧
        BytesPut s s' team b (modeDstTs b.mode) pg (dst.zip (src.map (jobSees s t (modeSrcTs b.mode) pg)))) ∧
    (b.opc = 0 → copyOverlaps b = false → modeSrcTs b.mode = false → (∀ a ∈ src, ReadsPlain s t pg a) →
      (∃ a ∈ src, b.fetch.getD (placeUnder pg a).line false = false) →
      ∃ s' f, exec .copyCursorAdvance s = .next s' ∧ JobMoves team t b { b with fetch := f } t.warps s s' ∧ BytesKept s s' ∧
        s'.mem.writes = s.mem.writes ∧ s'.ldr = s.ldr ∧ ∀ n, f.find? n = if b.fetch.has n = true then b.fetch.find? n
          else if n ∈ src.map (fun a => (placeUnder pg a).line) then some false else none) ∧
    (b.opc = 4 →
      ∃ s', exec .copyCursorAdvance s = .next s' ∧ JobMoves team t b { b with acc := n, fetch := .empty } t.warps s s' ∧ s'.ldr = s.ldr ∧
        BytesPut s s' team b (modeDstTs b.mode) pg ((List.range n).map fun k =>
          (operandAddr (modeDstTs b.mode) b.b + 512 * b.cursor + k,
           BitVec.ofNat 8 (b.a.toNat / 2 ^ (8 * ((512 * b.cursor + k) % modeEsz b.mode))))))) ∧
  ∀ (s : State) (team : Nat) (t : Team) (b : Job), OnJob s team t b → b.unit = 11 → b.begun = true → b.ending = false → b.acc ≠ 0 →
    (jobSettled s team b.id = false → exec .copyCursorAdvance s = .next s) ∧
    (jobSettled s team b.id = true → b.opc ≠ 6 → ∃ s', exec .copyCursorAdvance s = .next s' ∧ s'.mem = s.mem ∧ s'.ldr = s.ldr ∧
      JobMoves team t b
        { b with cursor := b.cursor + 1, written := b.written + b.acc, acc := 0,
                 ending := b.cancel || decide (b.total ≤ b.written + b.acc), status := if b.cancel then 1 else b.status } t.warps s s')

/-- R60, R240, R246, R248, R250, R251, R252: a stream row goes to its ring row; a received message goes to its destination, a sent one waits
for the pool 1,024 clk; a counted job subtracts its bytes from PEND and completes the phase at 0; a job whose writes have performed and are
counted ends: its lanes fill with the bytes written and its status, or with its tag, and the core's non-coherent copies go. That a step whose
condition does not hold changes nothing is the model's choice (log 6). Readings of the model's own: logs 30, 31, 45, 49, 84 and 91. -/
def Obligations.ObjectsMessagesAndCopyEnds : Prop :=
  (∀ (s : State) (team : Nat) (t : Team) (b : Job) (pg : Nat → Place), OnJob s team t b → b.unit = 11 → b.opc = 8 → b.begun = true →
    b.ending = false → b.acc = 0 → b.stage = .go →
    let e := modeEsz b.mode
    let n := min 64 (b.c.toNat % 2 ^ 32 - 64 * b.cursor) * e
    let src := (List.range n).map fun k => operandAddr (modeSrcTs b.mode) b.a + 64 * b.cursor * e + k
    let dst := (List.range n).map fun k => b.b.toNat % 2 ^ 19 + b.cursor % ringRows b.b * 64 * e + k
    (rowFree s team b b.cursor = false → exec .streamRowWrite s = .next s) ∧
    (rowFree s team b b.cursor = true → Readable s t b (modeSrcTs b.mode) pg src →
      ∃ s', exec .streamRowWrite s = .next s' ∧ s'.ldr = s.ldr ∧
        JobMoves team t b { b with acc := n, fetch := .empty }
          (match boundStream s team b with
           | some k => modifyAt (fun x => { x with streams := x.streams.modify k.1 fun r => { r with written := b.cursor + 1 } }) b.warp t.warps
           | none => t.warps) s s' ∧
        BytesPut s s' team b true pg (dst.zip (src.map (jobSees s t (modeSrcTs b.mode) pg))))) ∧
  (∀ (s : State) (team : Nat) (t : Team) (b : Job) (pg : Nat → Place) (g : Region), OnJob s team t b → b.unit = 11 → b.opc = 14 → b.begun = true →
    b.ending = false → b.acc = 0 → b.stage = .go → b.regions = [g] → (s.context? t.ctx).isSome = true →
    (chanOf s team b).sent.find? b.pos = some none → sendOpen s team b = false →
    regionClear s team b b.wregions true = true → regionClear s team b b.regions false = true →
    let src := (List.range b.total).map fun k => g.first + b.pos % (g.len / (b.total + 32)) * (b.total + 32) + 32 + k
    let dst := (List.range b.total).map fun k => b.b.toNat + k
    Readable s t b false pg src → Writable s t false pg dst →
    ∃ s', exec .chanMessageDelivery s = .next s' ∧ JobMoves team t b { b with acc := b.total, fetch := .empty } t.warps s s' ∧
      BytesPut s s' team b false pg (dst.zip (src.map (jobSees s t false pg))) ∧
      (chanOf s' team b).isDone b.pos = true ∧ (chanOf s' team b).sent.find? b.pos = none) ∧
  (∀ (s : State) (team : Nat) (t : Team) (b : Job), OnJob s team t b → b.unit = 11 → b.opc = 13 → b.begun = true → b.at_ ≠ 0 →
    (s.clk < b.at_ → exec .chanPoolRetry s = .next s) ∧
    (b.at_ ≤ s.clk → ∃ s', exec .chanPoolRetry s = .next s' ∧ JobMoves team t b { b with at_ := 0 } t.warps s s' ∧ s'.mem = s.mem ∧
      s'.agenda = .event .chanMessageDelivery (.pair team b.id) :: s.agenda)) ∧
  (∀ (s : State) (team : Nat) (t : Team) (b : Job) (pg : Nat → Place), OnJob s team t b → b.stage = .go → b.bar ≠ 0 → b.final = false →
    b.restOpen = false → (b.begun = true ∨ objectClear s team b = true) → TranslatesTo s t.core t.ctx true pg b.bar →
    let q := placeUnder pg b.bar
    q.tgt = 0 → lineOpen s t.core q = false → q.ver = false → poisonedAt s q 64 = false → objectWaiters s q = [] →
    let short := decide (b.ending = true ∧ (b.status = 1 ∨ b.status = 2 ∨ b.tag ≠ 0))
    let n := (if short then max b.total b.written else b.written) - b.counted
    let flags := if short then (if b.status = 1 then 2 ^ 62 else 2 ^ 61) else 0
    let w0 := (s.mem.word q.pa).toNat
    let w1 := (s.mem.word (q.pa + 8)) ||| BitVec.ofNat 64 (flags + if w0 < n then 2 ^ 63 else 0)
    (b.ending = true ∨ b.counted < b.written) → (n ≠ 0 ∨ flags ≠ 0) →
    ∃ s', exec .barDecrement s = .next s' ∧ s'.ldr = s.ldr ∧
      JobMoves team t b
        { b with counted := b.counted + n, final := b.ending, at_ := 0, status := if w0 < n ∧ b.status = 0 then 4 else b.status } t.warps s s' ∧
      s'.mem.word q.pa = BitVec.ofNat 64 (w0 - n) ∧
      s'.mem.word (q.pa + 8) = (if w0 ≤ n then BitVec.ofNat 64 (w1.toNat / 2 ^ 32 * 2 ^ 32 + (w1.toNat + 1) % 2 ^ 32) else w1) ∧
      s'.mem.word (q.pa + 16) = (if w0 ≤ n then 0 else s.mem.word (q.pa + 16)) ∧ BytesBut q 24 s s') ∧
  ∀ (s : State) (team : Nat) (t : Team) (b : Job), OnJob s team t b → b.unit = 11 → b.isChan = false → (b.opc = 8 → b.tag = 0) →
    (∀ x ∈ t.warps, x.halted = none ∧ ∀ o ∈ x.ops, o.unit = 11 → o.opc ≠ 9 ∧ o.opc ≠ 15) →
    (jobMayLeave s team b = false → exec .copyJobComplete s = .next s) ∧
    (jobMayLeave s team b = true → ∃ s', exec .copyJobComplete s = .next s' ∧ s'.ldr = s.ldr ∧
      JobEnds team t b
        (fun _ => if b.tag ≠ 0 then .tagged b.tag 0
          else .value (if b.opc = 5 then BitVec.ofNat 64 (b.pos2 % 2 ^ 32 * 2 ^ 32 + b.written % 2 ^ 32) else if b.opc = 10 then 0
            else BitVec.ofNat 64 (if b.opc = 11 then b.pos2 else b.written)))
        (if b.tag ≠ 0 then .tagged b.tag 0 else .value (BitVec.ofNat 64 b.status)) s s' ∧
      (∀ d ∈ s.arrays b.core, ∀ sec y, (s'.core d).l1.find? sec = some y → y.nc = false) ∧ ∀ d, d ∉ s.arrays b.core → s'.core d = s.core d)

/-- R268, R270, R272, R276 to R278, R281 to R283: a row of a multiply goes to its tile row as the exact sums of its products, rounded once, or
ends the job where its format or its plane forbids it; swaps, zeroes and writes of tiles act whole; an update of a tile in team store changes
each element; a job that is over fills its lanes and sets its tile's status word; a wait for the engine fills when its jobs are over. Readings
of the model's own: logs 48 and 49. -/
def Obligations.MatrixJobsRun : Prop :=
  (∀ (s : State) (team : Nat) (t : Team) (b : Job), OnJob s team t b → b.unit = 10 → b.opc = 2 ∨ b.opc = 3 ∨ b.opc = 13 → b.begun = true →
    b.ending = false → b.stage = .go → b.cursor < mxRows b.c → mxRow0 b.c + b.cursor < 128 →
    let x := (s.core t.core).mx
    let fmt := mxFmt b.mode
    let row := mxRow0 b.c + b.cursor
    let elems := fun k => if mxSrcTs b.mode then b.a.toNat % 2 ^ 19 + rowBytesOf fmt * b.cursor + k else b.a.toNat + rowBytesOf fmt * b.cursor + k
    let hdrs := fun k => if mxSrcTs b.mode then b.b.toNat % 2 ^ 19 + 4 * b.cursor + k else b.b.toNat + 4 * b.cursor + k
    let stops := fun (code : Nat) (tag : BitVec 8) => ∃ s', exec .mxRowApply s = .next s' ∧ s'.mem = s.mem ∧ s'.cores = s.cores ∧
      JobMoves team t b { b with ending := true, status := row * 256 + code, tag := tag } t.warps s s'
    (b.cursor = 0 → fmt ≠ x.act.fmt → stops 2 0) ∧
    (b.cursor = 0 → fmt = x.act.fmt → x.act.poison = true → stops 3 0x12) ∧
    ((b.cursor = 0 → fmt = x.act.fmt ∧ x.act.poison = false) → (s.core t.core).mxBusy ≤ s.clk → rowUnits s t.core ≠ 0 → mxSrcTs b.mode = true →
      let es := (List.range (rowBytesOf fmt)).map elems
      let hs := if fmt = 2 then [] else (List.range 4).map hdrs
      (∀ a ∈ es ++ hs, t.tsPoisoned a 1 = false) →
      ∃ s', exec .mxRowApply s = .next s' ∧ s'.mem = s.mem ∧ s'.ldr = s.ldr ∧
        JobMoves team t b { b with cursor := b.cursor + 1, fetch := .empty } t.warps s s' ∧
        (s'.core t.core).mx.p0 = x.p0 ∧ (s'.core t.core).mx.p1 = x.p1 ∧ (s'.core t.core).mx.ts = x.ts ∧
        (∀ d, d ≠ t.core → s'.core d = s.core d) ∧
        ∀ tile r c, r < 128 → c < 128 → (s'.core t.core).mx.tiles.getD (tile * 16384 + r * 128 + c) 0 =
          if tile = mxTile b.c ∧ r = row then
            (multiplyRow x.act b (es.map fun a => t.tstore.getD a 0) (hs.map fun a => t.tstore.getD a 0) (x.row tile r)).getD c 0
          else x.tiles.getD (tile * 16384 + r * 128 + c) 0)) ∧
  (∀ (s : State) (team : Nat) (t : Team) (b : Job), OnJob s team t b → b.unit = 10 → b.begun = true → b.ending = false → b.stage = .go →
    let x := (s.core t.core).mx
    let acts := fun (x' : MxState) => ∃ s', exec .mxJobComplete s = .next s' ∧ s'.mem = s.mem ∧ s'.ldr = s.ldr ∧ (s'.core t.core).mx = x' ∧
      (∀ d, d ≠ t.core → s'.core d = s.core d) ∧ ∃ b', b'.ending = true ∧ JobMoves team t b b' t.warps s s'
    (b.opc = 1 → acts { x with active := !x.active }) ∧
    (b.opc = 3 → b.cursor = mxRows b.c → earlierJob s team b Job.onPlanes = false → acts { x with active := !x.active }) ∧
    (b.opc = 4 → b.pos = 0 → (∀ k, earlierJob s team b (fun j => j.onTile k) = false) → ∃ x', acts x' ∧ x'.p0 = x.p0 ∧ x'.p1 = x.p1 ∧
      x'.active = x.active ∧ ∀ tile, tile < 8 →
        ((b.a.getLsbD tile = true → x'.tileWord tile = 0x8000 ∧ ∀ k, k / 16384 = tile → x'.tiles.getD k 0 = 0 ∧ k ∉ x'.poison) ∧
         (b.a.getLsbD tile = false → ∀ k, k / 16384 = tile → x'.tiles.getD k 0 = x.tiles.getD k 0 ∧ (k ∈ x'.poison ↔ k ∈ x.poison)))) ∧
    (b.opc = 12 → (b.data.entries.map Prod.fst).Nodup → (∀ e ∈ b.data.entries, e.1 < 64) → ∃ x', acts x' ∧ x'.p0 = x.p0 ∧ x'.p1 = x.p1 ∧
      ∀ tile r c, r < 128 → c < 128 → x'.tiles.getD (tile * 16384 + r * 128 + c) 0 =
        match b.data.find? (c / 2) with
        | some v => if tile = mxTile b.c ∧ r = b.c.toNat / 8 % 128 then BitVec.ofNat 32 (v.toNat / 2 ^ (32 * (c % 2)))
            else x.tiles.getD (tile * 16384 + r * 128 + c) 0
        | none => x.tiles.getD (tile * 16384 + r * 128 + c) 0)) ∧
  (∀ (s : State) (team : Nat) (t : Team) (b : Job), OnJob s team t b → b.unit = 10 → b.opc = 6 ∨ b.opc = 7 → b.begun = true → b.ending = false →
    b.stage = .go → mxDstTs b.mode = true → t.tsPoison = [] →
    let x := (s.core t.core).mx
    let w := if tileFmt b.c = 0 then 4 else 2
    let addr := fun i c => b.a.toNat % 2 ^ 19 + i * (b.b.toNat % 2 ^ 32) + w * c
    let kept := fun (s' : State) => s'.mem = s.mem ∧ s'.cores = s.cores ∧ s'.ldr = s.ldr
    (∀ i, i < mxRows b.c → x.rowPoisoned (mxTile b.c) (mxRow0 b.c + i) = true → (∀ j, j < i → x.rowPoisoned (mxTile b.c) (mxRow0 b.c + j) = false) →
      ∃ s', exec .drainUpdatePerform s = .next s' ∧ kept s' ∧
        JobMoves team t b { b with ending := true, status := (mxRow0 b.c + i) * 256 + 3, tag := 0x12 } t.warps s s') ∧
    ((∀ i, i < mxRows b.c → x.rowPoisoned (mxTile b.c) (mxRow0 b.c + i) = false) → 128 * w ≤ b.b.toNat % 2 ^ 32 →
      ∃ s' t', exec .drainUpdatePerform s = .next s' ∧ kept s' ∧ JobMoves team t b { b with ending := true, cursor := mxRows b.c, at_ := 0 } t.warps s s' ∧
        s'.team? team = some t' ∧
        (∀ i c, i < mxRows b.c → c < 128 → (List.range w).map (fun k => t'.tstore.getD (addr i c + k) 0) =
          (List.range w).map fun k => BitVec.ofNat 8
            (updateBits b (lowFirst ((List.range w).map fun k => t.tstore.getD (addr i c + k) 0))
              (x.tiles.getD (mxTile b.c * 16384 + (mxRow0 b.c + i) * 128 + c) 0).toNat / 2 ^ (8 * k))) ∧
        ∀ a, (∀ i c, i < mxRows b.c → c < 128 → ¬ (addr i c ≤ a ∧ a < addr i c + w)) → t'.tstore.getD a 0 = t.tstore.getD a 0)) ∧
  (∀ (s : State) (team : Nat) (t : Team) (b : Job), OnJob s team t b → b.unit = 10 → b.opc ≤ 8 ∨ b.opc = 12 ∨ b.opc = 13 → jobMayLeave s team b = true →
    (∀ x ∈ t.warps, x.halted = none ∧ ∀ o ∈ x.ops, o.unit ≠ 10) →
    let word := if b.status ≠ 0 then b.status
      else if b.tag ≠ 0 then (if b.opc = 0 then b.cursor else if b.opc = 1 ∨ b.opc = 4 ∨ b.opc = 12 then 0 else mxRow0 b.c + b.cursor) * 256 + 4
      else 0x8000
    ∃ s', exec .mxJobComplete s = .next s' ∧ s'.ldr = s.ldr ∧
      JobEnds team t b
        (fun _ => if b.tag ≠ 0 then .tagged b.tag 0
          else .value (if b.opc = 1 ∨ b.opc = 4 ∨ b.opc = 12 then 0
            else if b.opc = 5 then BitVec.ofNat 64 (b.pos2 * 2 ^ 32 + b.cursor) else BitVec.ofNat 64 b.cursor))
        (.value (BitVec.ofNat 64 word)) s s' ∧
      (s'.core t.core).mx.tiles = (s.core t.core).mx.tiles ∧
      (b.opc ≠ 0 → b.opc ≠ 1 → b.opc ≠ 4 → (s'.core t.core).mx.ts.getD (mxTile b.c) 0x8000 =
        BitVec.ofNat 64 (word % 256 * 2 ^ 24 + b.opc * 2 ^ 16 + word / 256 % 256 * 2 ^ 8))) ∧
  ∀ (s : State) (w : WRef) (t : Team) (x : Warp) (o : Op) (i : Item), s.subject = .op w o.id i.lane → s.team? w.team = some t → s.warp? w = some x →
    o ∈ x.ops → (x.ops.map Op.id).Nodup → o.items = [i] → i.lost = false → x.halted = none → o.unit = 10 →
    (o.opc = 9 → o.clk < s.clk → ∃ s' x', exec .mxJobComplete s = .next s' ∧ s'.warp? w = some x' ∧
      LaneEnds { w := w, warp := x, op := o, item := i } (.value 0) (.value 0x8000) x' ∧ StepKept w s s' ∧ BytesKept s s') ∧
    (o.opc = 10 → i.a.toNat % 16 = 9 → (∀ b ∈ t.jobs, ¬ (b.unit = 10 ∧ b.trig < o.id)) → t.mxFailed = [] →
      ∃ s' x', exec .mxJobComplete s = .next s' ∧ s'.warp? w = some x' ∧
        LaneEnds { w := w, warp := x, op := o, item := i } (.value 0) (.value 0x8000) x' ∧ StepKept w s s' ∧ BytesKept s s')

/-! ## Commits and homes -/

/-- R294, R295, R304, R308, R312, R316, R319: a transaction's commit ends with its status, or takes the next commit time where no line of it
has a newer version; a time is published with its versions installed; an auto-commit takes its time or waits for room to the limit; a version
is reclaimed once its successor is at or below the low-water mark. That a step whose condition does not hold changes nothing is the model's
choice (log 6). Readings of the model's own: logs 20 and 58. -/
def Obligations.CommitsTakeTheirTurn : Prop :=
  (∀ (s : State) (w : WRef) (l : Nat) (x : Warp) (o : Op), s.subject = .op w o.id l → s.warp? w = some x → o ∈ x.ops → (x.ops.map Op.id).Nodup →
    (o.items.map Item.lane).Nodup → o.unit = 12 → o.opc = 2 → o.info = [] → x.halted = none →
    let ends := fun (y : Elem) (status : Nat) => ∃ s' x', exec .commitTurn s = .next s' ∧ s'.warp? w = some x' ∧ x'.txn = none ∧
      x'.op? o.id = none ∧ (∀ p ∈ x.ops, p.id ≠ o.id → x'.op? p.id = some p) ∧ ResultsOnly 12 x x' ∧ StepKept w s s' ∧ s'.mem = s.mem ∧
      s'.eng = s.eng ∧ s'.cores = s.cores ∧
      ∀ i ∈ o.items, (x.unit 12).last.find? i.lane = some o.id →
        x'.elem 12 offY i.lane = y ∧ x'.elem 12 offY2 i.lane = .value (BitVec.ofNat 64 status)
    (x.txn = none → ends (.value 0) 7) ∧
    (∀ k, x.txn = some k → fenceReady s w o.id 3 = false → exec .commitTurn s = .next s) ∧
    (∀ k, x.txn = some k → fenceReady s w o.id 3 = true →
      (∀ c, k.doom = some c → ends (if c = 4 then .tagged 0x19 0 else .value 0) c) ∧
      (k.doom = none → k.ro = true ∨ k.lines.entries = [] → ends (.value (BitVec.ofNat 64 k.time)) 0) ∧
      (k.doom = none → k.ro = false → k.lines.entries ≠ [] → s.eng.snap.tookAt ≤ s.clk →
        ((∃ n ∈ k.lines.keys, k.time < newestTime s n) → ends (.value 0) 1) ∧
        ((∀ n ∈ k.lines.keys, newestTime s n ≤ k.time ∧ versionCount s n < 8) → s.eng.snap.clock + 1 < 2 ^ 56 →
          heapUsed s + k.lines.entries.length ≤ heapLines s →
          ∃ s' x', exec .commitTurn s = .next s' ∧ s'.warp? w = some x' ∧ s'.eng.snap.clock = s.eng.snap.clock + 1 ∧
            (∃ c, s'.eng.snap.taken = s.eng.snap.taken ++ [c] ∧ c.time = s.eng.snap.clock + 1 ∧
              c.commit.lines.entries = k.lines.entries.map fun e => (e.1, e.2.bytes)) ∧
            x'.txn = x.txn ∧ x'.ports = x.ports ∧ x'.lanes = x.lanes ∧ StepKept w s s' ∧ s'.mem = s.mem)))) ∧
  (∀ (s : State) (k : Taken) (r : List Taken), s.eng.snap.taken = k :: r → s.subject = .num k.time → (k.commit.lines.entries.map Prod.fst).Nodup →
    (∀ e ∈ k.commit.lines.entries, (e.2.entries.map Prod.fst).Nodup ∧ e.2.entries ≠ [] ∧ ∀ b ∈ e.2.entries, b.1 < 512) → k.commit.warp = none →
    k.commit.job = none ∨ k.commit.lane ≠ 64 → visitOf s k.commit = none →
    ∃ s', exec .commitPublish s = .next s' ∧ s'.eng.snap.published = k.time ∧ s'.eng.snap.taken = r ∧ s'.teams = s.teams ∧ s'.ldr = s.ldr ∧
      s'.eng.snap.clock = s.eng.snap.clock ∧ s'.eng.snap.held = s.eng.snap.held ∧ s'.mem.host = s.mem.host ∧ s'.mem.peer = s.mem.peer ∧
      (∀ a, s'.mem.byte a = match k.commit.lines.find? (a / 512) with
        | some m => m.getD (a % 512) (s.mem.byte a)
        | none => s.mem.byte a) ∧
      ∀ n, (n ∉ k.commit.lines.keys → s'.chain n = s.chain n) ∧
        (n ∈ k.commit.lines.keys → (s'.chain n).time = k.time ∧ ∃ v : Version, (s'.chain n).older = v :: (s.chain n).older ∧
          v.time = (s.chain n).time ∧ (∀ i, i < 512 → v.bytes.getD i 0 = s.mem.byte (512 * n + i)) ∧
          ∀ j, j ∈ v.poison ↔ j < 16 ∧ 16 * n + j ∈ s.mem.poison)) ∧
  (∀ (s : State) (n : Nat) (c : Commit), s.subject = .num n → s.eng.snap.waiting.find? n = some c → commitAtomic s c = none →
    visitOf s c = none → commitBehind s n c = false → s.eng.snap.tookAt ≤ s.clk → s.eng.snap.clock + 1 < 2 ^ 56 →
    ((∀ l ∈ c.lines.keys, versionCount s l < 8) → heapUsed s + c.lines.entries.length ≤ heapLines s →
      ∃ s', exec .autoCommit s = .next s' ∧ s'.eng.snap.waiting.find? n = none ∧ s'.eng.snap.clock = s.eng.snap.clock + 1 ∧
        s'.eng.snap.taken = s.eng.snap.taken ++ [{ time := s.eng.snap.clock + 1, commit := c }] ∧ s'.mem = s.mem ∧ s'.teams = s.teams ∧
        s'.ldr = s.ldr) ∧
    ((∃ l ∈ c.lines.keys, 8 ≤ versionCount s l) →
      ∃ s', exec .autoCommit s = .next s' ∧ s'.eng.snap.waiting.find? n = some { c with since := some (c.since.getD s.clk) } ∧
        s'.eng.snap.taken = s.eng.snap.taken ∧ s'.mem = s.mem ∧ s'.teams = s.teams)) ∧
  (∀ (s : State) (n since : Nat) (c : Commit) (team j : Nat), s.subject = .num n → s.eng.snap.waiting.find? n = some c → c.since = some since →
    c.warp = none → c.job = some (team, j) →
    (s.clk < since + heapLimit s → exec .heapWaitExpiry s = .next s) ∧
    (since + heapLimit s ≤ s.clk → ∃ s', exec .heapWaitExpiry s = .next s' ∧ s'.eng.snap.waiting.find? n = none ∧ s'.mem = s.mem ∧
      s'.eng.snap.taken = s.eng.snap.taken ∧ (∀ i, i ≠ team → s'.team? i = s.team? i) ∧
      ∀ t, s.team? team = some t → ∃ t', s'.team? team = some t' ∧ t'.warps = t.warps ∧
        t'.jobs = t.jobs.map fun b => if b.id = j then { b with stage := .go, ending := true, tag := 0x19 } else b)) ∧
  ∀ (s : State) (line : Nat) (c : Chain) (newer : List Version) (v : Version) (older : List Version),
    s.subject = .pair line v.time → s.eng.snap.chains.find? line = some c → c.older = newer ++ v :: older → v.time ∉ newer.map Version.time →
    ∃ s', exec .lichenReclaim s = .next s' ∧ s'.mem = s.mem ∧ s'.teams = s.teams ∧ s'.ldr = s.ldr ∧
      (∀ n, n ≠ line → s'.chain n = s.chain n) ∧
      s'.eng.snap.chains.find? line = some { c with older :=
        if ((newer.getLast?.map Version.time).getD c.time) ≤ lowWater s then newer ++ older else newer ++ v :: older }

/-- R295, R300, R309, R381, R382, R391 to R393, R341, R342, R351, R441: operations act at their homes: snapshots give, hold and release times;
deques give the item last pushed or first pushed; bound registers improve in their direction and their changes go to every copy; a slot tells
its next forced token and its counts; the operations of the supervisor fill what was known, one clk later. That a step whose condition does
not hold changes nothing is the model's choice (log 6). Readings of the model's own: logs 24, 51, 54 and 89. -/
def Obligations.HomeOperationsAct : Prop :=
  (∀ (s : State) (w : WRef) (x : Warp) (o : Op) (i : Item), OnLane s { w := w, warp := x, op := o, item := i } → o.unit = 12 → o.items = [i] →
    x.unfenced o.id = true → x.liveLanes ≠ [] → (o.opc = 5 ∨ o.opc = 6 → i.trip = 2) →
    let ends := fun (y : W64) (y2 : Nat) (tx : Option Txn) (held : FMap Held) => ∃ s' x', exec .homeOperationPerform s = .next s' ∧
      s'.warp? w = some x' ∧ x'.txn = tx ∧ s'.eng.snap = { s.eng.snap with held := held } ∧ s'.mem = s.mem ∧ StepKept w s s' ∧
      LaneEnds { w := w, warp := x, op := o, item := i } (.value y) (.value (BitVec.ofNat 64 y2)) x'
    let held := s.eng.snap.held
    let slot := o.mode.toNat % 2 ^ 12
    (o.opc ≤ 1 → o.mode = 0 → ends (BitVec.ofNat 64 s.eng.snap.published) 0
      (some { id := o.id, time := s.eng.snap.published, held := none, ro := o.opc == 1, doom := none, lines := .empty }) held) ∧
    (o.opc = 4 → ends (BitVec.ofNat 64 s.eng.snap.published) 0 x.txn held) ∧
    (o.opc = 5 → held.has slot = true → ends 0 9 x.txn held) ∧
    (o.opc = 5 → held.has slot = false → o.mode.getLsbD 16 = false → ends (BitVec.ofNat 64 s.eng.snap.published) 0 x.txn
      (held.insert slot { time := s.eng.snap.published, ctx := s.ctxOf w.team })) ∧
    (∀ h, o.opc = 6 → held.find? slot = some h →
      if h.ctx = s.ctxOf w.team then ends 0 0 x.txn (held.erase slot) else ends 0 8 x.txn held) ∧
    (o.opc = 6 → held.find? slot = none → ends 0 8 x.txn held) ∧
    (o.opc = 3 → x.txn = none → ends 0 7 none held) ∧
    (o.opc = 3 → x.txn ≠ none → mayAbort x o.id = true → ends 0 0 none held)) ∧
  (∀ (s : State) (p : Pick) (c : Context) (q : Deque), OnLane s p → p.op.unit = 14 → p.op.opc ≠ 3 → p.op.opc ≠ 5 → p.item.stage = .go →
    p.warp.unfenced p.op.id = true → p.item.trip = 2 → s.context? (s.ctxOf p.w.team) = some c → p.item.a.toNat % 2 ^ 12 ∈ c.deques →
    (∀ j ∈ p.op.items, j.lane < p.item.lane → j.a.toNat % 2 ^ 12 ≠ p.item.a.toNat % 2 ^ 12) → fenceReady s p.w p.op.id 3 = true →
    s.eng.deques.find? (p.item.a.toNat % 2 ^ 12) = some q → q.hurt s = 0 →
    q.cap ≤ 512 * q.pages.length →
    let d := p.item.a.toNat % 2 ^ 12
    let ends := fun (y : W64) (y2 : Nat) (items : List W64) => ∃ s' x', exec .homeOperationPerform s = .next s' ∧ s'.warp? p.w = some x' ∧
      LaneEnds p (.value y) (.value (BitVec.ofNat 64 y2)) x' ∧ StepKept p.w s s' ∧ s'.mem.host = s.mem.host ∧ s'.mem.peer = s.mem.peer ∧
      s'.mem.poison = s.mem.poison ∧ (∀ a, a / 4096 ∉ q.pages ∨ q.cap = 0 → s'.mem.byte a = s.mem.byte a) ∧
      s'.eng.deques.find? d = some { q with items := items } ∧ ∀ e, e ≠ d → s'.eng.deques.find? e = s.eng.deques.find? e
    let n := q.items.length
    (p.op.opc = 0 → n < 256 + q.cap → ends (BitVec.ofNat 64 (n + 1)) 0 (q.items ++ [p.item.b])) ∧
    (p.op.opc = 0 → 256 + q.cap ≤ n → ends (BitVec.ofNat 64 n) 2 q.items) ∧
    (p.op.opc = 1 ∨ p.op.opc = 2 → q.items = [] → ends 0 1 []) ∧
    (∀ v r, p.op.opc = 1 → q.items = r ++ [v] → ends v 0 r) ∧
    (∀ v r, p.op.opc = 2 → q.items = v :: r → ends v 0 r) ∧
    (p.op.opc = 4 → ends (BitVec.ofNat 64 n) 0 q.items)) ∧
  (∀ (s : State) (p : Pick) (t : Team), OnLane s p → p.op.unit = 15 → s.team? p.w.team = some t → acePermit s p.w p.item.a = true →
    (p.warp.lane p.item.lane).wait = none → boundWaiters s t.core (aceKey t.core p.item.a) = [] →
    s.eng.aceMsgs.wf = true →
    let k := aceKey t.core p.item.a
    let r := s.aceReg k
    let v := p.item.b
    let ends := fun (y : W64) (y2 : Nat) (s' : State) => exec .homeOperationPerform s = .next s' ∧ (∃ x', s'.warp? p.w = some x' ∧
      LaneEnds p (.value y) (.value (BitVec.ofNat 64 y2)) x') ∧ StepKept p.w s s' ∧ s'.mem = s.mem ∧ ∀ j, j ≠ k → s'.aceReg j = s.aceReg j
    let changed := fun (dir : Bool) (s' : State) => s'.aceReg k = { val := v, dir := dir, seqno := r.seqno + 1 } ∧
      (t.core ∈ aceCores k → (s'.core t.core).aceCopy k = { val := v, dir := dir, seqno := r.seqno + 1 }) ∧
      ∀ c ∈ aceCores k, c ≠ t.core → s'.core c = s.core c ∧ ∃ m ∈ s'.eng.aceMsgs.vals, m.core = c ∧ m.reg = k ∧ m.val = v ∧ m.dir = dir ∧
        m.seqno = r.seqno + 1 ∧ m.due = s.clk + if 1024 ≤ k then 400 else 24
    (p.op.opc = 2 → ∃ s', ends ((s.core t.core).aceCopy k).val 0 s' ∧ s'.eng = s.eng) ∧
    (p.item.trip = 2 →
      (p.op.opc = 3 → ∃ s', ends v 0 s' ∧ changed (p.item.a.getLsbD 8) s') ∧
      (p.op.opc ≤ 1 → r.dir ≠ (p.op.opc == 1) → ∃ s', ends r.val 2 s' ∧ s'.eng = s.eng) ∧
      (p.op.opc = 0 → r.dir = false → v.toInt < r.val.toInt → ∃ s', ends v 0 s' ∧ changed false s') ∧
      (p.op.opc = 0 → r.dir = false → r.val.toInt ≤ v.toInt → ∃ s', ends r.val 1 s' ∧ s'.eng = s.eng) ∧
      (p.op.opc = 1 → r.dir = true → r.val.toInt < v.toInt → ∃ s', ends v 0 s' ∧ changed true s') ∧
      (p.op.opc = 1 → r.dir = true → v.toInt ≤ r.val.toInt → ∃ s', ends r.val 1 s' ∧ s'.eng = s.eng))) ∧
  (∀ (s : State) (n : Nat) (m : AceMsg), s.subject = .num n → s.eng.aceMsgs.find? n = some m → boundWaiters s m.core m.reg = [] →
    (∀ k ∈ s.eng.aceMsgs.vals, k.core = m.core → k.reg = m.reg → m.seqno ≤ k.seqno) →
    ∃ s', exec .aceBroadcastApply s = .next s' ∧ s'.eng.aceMsgs.find? n = none ∧ s'.teams = s.teams ∧ s'.mem = s.mem ∧
      s'.eng.aces = s.eng.aces ∧ (∀ c, c ≠ m.core → s'.core c = s.core c) ∧
      ∀ k, (s'.core m.core).aceCopy k = if k = m.reg then { val := m.val, dir := m.dir, seqno := m.seqno } else (s.core m.core).aceCopy k) ∧
  (∀ (s : State) (p : Pick) (c : Context), OnLane s p → p.op.unit = 13 → p.item.stage = .go → p.warp.unfenced p.op.id = true →
    p.op.items = [p.item] → p.item.trip = 2 → s.context? (s.ctxOf p.w.team) = some c → p.item.a.toNat % 2 ^ 16 ∈ c.tell →
    let n := p.item.a.toNat % 2 ^ 16
    let t := s.slot n
    let ends := fun (y : W64) (y2 : Nat) (u : TellSlot) => ∃ s' x', exec .homeOperationPerform s = .next s' ∧ s'.warp? p.w = some x' ∧
      LaneEnds p (.value y) (.value (BitVec.ofNat 64 y2)) x' ∧ StepKept p.w s s' ∧ BytesKept s s' ∧ s'.slot n = u ∧
      ∀ k, k ≠ n → s'.slot k = s.slot k
    (p.op.opc = 2 → t.mode ≠ .free → t.queue = [] → ends 0 11 t) ∧
    (∀ k r, p.op.opc = 2 → t.mode ≠ .free → t.queue = k :: r →
      ends (BitVec.ofNat 64 (k.toNat + 2 ^ 24 + (r.length + 1) * 2 ^ 25)) 0 t) ∧
    (p.op.opc = 8 → p.item.b.toNat % 2 ^ 4 = 4 → ends (t.step.setWidth 64) 0 t) ∧
    (p.op.opc = 0 → fenceReady s p.w p.op.id 3 = true → t.mode = .stopped → ends 0 2 t) ∧
    (p.op.opc = 0 → fenceReady s p.w p.op.id 3 = true → t.mode = .live → t.entries.entries = [] → t.drafts = [] → t.queue = [] →
      t.counters.length = 4 → p.item.b.toNat < 2 ^ 24 →
      ends 0 0 { t with history := (t.history ++ [p.item.b.setWidth 24]).drop (t.history.length + 1 - 8), step := t.step + 1, word := 0 })) ∧
  ∀ (s : State) (p : Pick), OnLane s p → p.op.unit = 17 → p.op.opc ≠ 2 → p.op.opc ≠ 7 → p.op.opc ≠ 8 → p.op.items = [p.item] →
    (s.clk ≤ p.op.clk → exec .homeOperationPerform s = .next s) ∧
    (p.op.clk < s.clk → ∃ s' x', exec .homeOperationPerform s = .next s' ∧ s'.warp? p.w = some x' ∧ StepKept p.w s s' ∧ s'.mem = s.mem ∧
      s'.eng = s.eng ∧
      LaneEnds p (.value (BitVec.ofNat 64 (p.item.extra.getD 0 0))) (.value (BitVec.ofNat 64 (p.item.extra.getD 1 0))) x')

/-! ## The fabric and the surroundings -/

/-- R400, R402 to R404, R408, R409, R412, R415: a flit stands on its hop as its header and a head's payload say; one that has arrived where it
goes is ejected if its port is free; else it takes the first free output that shortens its way, or is deflected to the first free one, which
is counted; a candidate enters by such an output, while its router is not throttled; flits come from overflow into their slot; credits return.
That a step whose condition does not hold changes nothing is the model's choice (log 6). Readings of the model's own: log 18. -/
def Obligations.FlitsAreRouted : Prop :=
  (∀ (s : State) (f : Flit) (m : Message) (b : BitVec 576), s.message? f.msg = some m → flitBits s f = some b →
    let bits := fun (lo n : Nat) => b.toNat / 2 ^ lo % 2 ^ n
    bits 52 12 = f.age % 2 ^ 12 ∧ bits 51 1 = bit1 (m.xd = true) ∧ bits 47 4 = f.seqno % 2 ^ 4 ∧
      (m.xd = false → bits 37 10 = m.msgid % 2 ^ 10 ∧ bits 30 7 = m.src % 2 ^ 7 ∧ bits 23 7 = m.dst % 2 ^ 7 ∧ bits 20 3 = m.dstEp % 2 ^ 3 ∧
        bits 17 3 = m.cls % 2 ^ 3 ∧ bits 16 1 = 0 ∧ bits 0 16 = m.ctx % 2 ^ 16) ∧
      (m.xd = true → bits 38 9 = m.msgid % 2 ^ 9 ∧ bits 19 19 = m.ddev % 2 ^ 19 ∧ bits 0 19 = m.sdev % 2 ^ 19) ∧
      (f.seqno = 0 → bits 64 4 = (m.nflit - 1) % 2 ^ 4 ∧ bits 68 3 = m.cls % 2 ^ 3 ∧ (m.xd = true → bits 80 16 = m.ctx % 2 ^ 16))) ∧
  (∀ (s : State) (r : Nat) (f : Flit) (m : Message), s.subject = .num r → r < 72 → s.eng.fab.flits.filter (fun g => decide (g.router = r)) = [f] →
    s.message? f.msg = some m → m.xd = false → m.dst < 72 →
    let fab := s.eng.fab
    let goes := fun (s' : State) (out : Nat) => exec .flitArrival s = .next s' ∧ FabricOnly s s' ∧
      s'.eng.fab.flits = fab.flits.filter (fun g => decide (g.router ≠ r)) ∧ s'.eng.fab.messages = fab.messages ∧ s'.eng.fab.credits = fab.credits ∧
      s'.eng.fab.moved = fab.moved ++ [{ f with router := (meshTo r out).1, input := (meshTo r out).2 }] ∧
      (s'.router r).taken = out :: (s.router r).taken ∧ ∀ k, k ≠ r → s'.router k = s.router k
    let lands := m.dst = r ∧ m.dstEp / 4 ∉ (s.router r).eject
    (lands → m.core = none → m.arrived.length + 1 < m.nflit → ∃ s', exec .flitArrival s = .next s' ∧ FabricOnly s s' ∧ s'.cores = s.cores ∧
      s'.eng.fab.flits = fab.flits.filter (fun g => decide (g.router ≠ r)) ∧ s'.eng.fab.moved = fab.moved ∧
      s'.eng.fab.credits = fab.credits ++ (if f.own = true then [(m.src, 1)] else []) ∧
      s'.message? f.msg = some { m with arrived := m.arrived ++ [f.seqno], firstAt := some (m.firstAt.getD s.clk) } ∧
      ∀ k, k ≠ f.msg → s'.message? k = s.message? k) ∧
    (∀ out, ¬ lands → (meshWays r m.dst).find? (fun o => !(s.router r).taken.contains o) = some out →
      ∃ s', goes s' out ∧ s'.eng.fab.deflections = fab.deflections ∧ (s'.router r).defl = (s.router r).defl) ∧
    (∀ out, ¬ lands → (meshWays r m.dst).find? (fun o => !(s.router r).taken.contains o) = none →
      ([0, 1, 2, 3].find? fun o => meshHas r o && !(s.router r).taken.contains o) = some out →
      ∃ s', goes s' out ∧ s'.eng.fab.deflections.getD r 0 = fab.deflections.getD r 0 + 1 ∧ (s'.router r).defl = (s.router r).defl + 1)) ∧
  (∀ (s : State) (r ep id q out : Nat) (m : Message), s.subject = .num r → r < 72 → (∀ g ∈ s.eng.fab.flits, g.router ≠ r) →
    (s.router r).cand.find? ep = some (id, q) → ep < 8 →
    (∀ e, e < 8 → e ≠ ep → (s.router r).cand.find? e = none ∧ waitingFlits s r e = []) → s.message? id = some m → m.xd = false →
    m.dst < 72 → m.dst ≠ r → m.msgid ≠ 1024 → (s.router r).injected = false → (s.router r).own < 256 → (s.router r).level ≤ 7 →
    ¬ (r = s.eng.fab.golden ∧ s.clk % 4096 < 4064) → (meshWays r m.dst).find? (fun o => !(s.router r).taken.contains o) = some out →
    (8 - (s.router r).level ≤ s.clk % 8 → exec .flitInjection s = .next s) ∧
    (s.clk % 8 < 8 - (s.router r).level → ∃ s', exec .flitInjection s = .next s' ∧ FabricOnly s s' ∧ s'.cores = s.cores ∧
      s'.eng.fab.moved = s.eng.fab.moved ++ [{ msg := id, seqno := q, age := 0, router := (meshTo r out).1, input := (meshTo r out).2, own := true }] ∧
      s'.eng.fab.flits = s.eng.fab.flits ∧ s'.message? id = some { m with toSend := m.toSend.erase q } ∧
      (s'.router r).own = (s.router r).own + 1 ∧ (s'.router r).lastEp = ep ∧ (s'.router r).injected = true ∧
      (s'.router r).cand.find? ep = none ∧ (s'.router r).taken = out :: (s.router r).taken ∧ ∀ k, k ≠ r → s'.router k = s.router k)) ∧
  (∀ (s : State) (core id : Nat) (m : Message), s.subject = .num core → s.eng.fab.messages.entries = [(id, m)] → m.core = some core →
    m.purpose = .transit → m.overflow ≠ [] → residentOn s m.ctx core = true → m.arrived.length + m.overflow.length < m.nflit →
    ∃ s', exec .overflowMove s = .next s' ∧ FabricOnly s s' ∧ s'.cores = s.cores ∧
      s'.message? id = some { m with arrived := m.arrived ++ m.overflow, overflow := [], firstAt := m.firstAt.map fun _ => s.clk }) ∧
  ∀ (s : State) (r : Nat), s.subject = .num r → ∃ s', exec .creditReturn s = .next s' ∧ FabricOnly s s' ∧ s'.cores = s.cores ∧
    s'.eng.fab.credits = s.eng.fab.credits.filter (fun c => decide (c.1 ≠ r)) ∧ (∀ k, k ≠ r → s'.router k = s.router k) ∧
    s'.router r = { s.router r with own := (s.router r).own - (((s.eng.fab.credits.filter fun c => decide (c.1 = r)).map Prod.snd).foldl (· + ·) 0) }

/-- R406, R407, R417, R422, R473: flits age every 64 clk; each epoch has its golden router; a message that stays incomplete past its bound is
lost, and its waiting lane fills POISON; a frame in error is replayed, and a port goes down after 16 failed replays in a row; system time
steps at STEPCLK and slews once in 4,096 clk. That a step whose condition does not hold changes nothing is the model's choice (log 6).
Readings of the model's own: logs 18 and 91. -/
def Obligations.FabricKeepsTime : Prop :=
  (∀ s : State, ∃ s', exec .ageTick s = .next s' ∧ FabricOnly s s' ∧ s'.cores = s.cores ∧
    s'.eng.fab.flits = if s.clk % 64 = 0 then s.eng.fab.flits.map (fun f => { f with age := min 4095 (f.age + 1) }) else s.eng.fab.flits) ∧
  (∀ s : State, exec .goldenEpoch s =
    .next { s with eng := { s.eng with fab := { s.eng.fab with golden := s.clk / 4096 % 72 } } }) ∧
  (∀ (s : State) (id k : Nat) (m : Message), s.subject = .num id → s.message? id = some m → m.xd = false → m.firstAt = some k → m.overflow = [] →
    let limit := k + (72 * 4096 + 15) + 65536
    (s.clk ≤ limit → exec .reassemblyTimeout s = .next s) ∧
    (limit < s.clk → m.purpose = .transit → ∃ s', exec .reassemblyTimeout s = .next s' ∧ FabricOnly s s' ∧ s'.cores = s.cores ∧
      s'.message? id = none ∧ s'.eng.fab.lostCount = s.eng.fab.lostCount + 1 ∧ (∀ j, j ≠ id → s'.message? j = s.message? j) ∧
      ∀ f, f ∈ s'.eng.fab.flits ↔ f ∈ s.eng.fab.flits ∧ f.msg ≠ id) ∧
    (∀ (p : Pick) (n : Nat), limit < s.clk → m.purpose = .reply p.w p.op.id p.item.lane →
      OnTrans { s with subject := .trans (.op p.w p.op.id p.item.lane) } p → isMem p.op.unit = true → (p.op.opc, n) ∈ loadRows → p.item.trip = 1 →
      ∃ s' x', exec .reassemblyTimeout s = .next s' ∧ s'.message? id = none ∧ s'.warp? p.w = some x' ∧
        LaneEnds p (.tagged 0x12 0) (.tagged 0x12 0) x' ∧ StepKept p.w s s' ∧ BytesKept s s')) ∧
  (∀ (s : State) (f : LinkFrame) (n : Nat), s.subject = .frame f → f.port < 16 → f.crcOk = false →
    (s.eng.fab.ports.find? f.port).getD { down := false, fails := 0 } = { down := false, fails := n } →
    ∃ s', exec .linkFrameReceive s = .next s' ∧ FabricOnly s s' ∧ s'.cores = s.cores ∧ s'.eng.fab.replayCount = s.eng.fab.replayCount + 1 ∧
      s'.eng.fab.flits = s.eng.fab.flits ∧ s'.eng.fab.moved = s.eng.fab.moved ∧
      s'.eng.fab.ports.find? f.port = some (if n < 16 then { down := false, fails := n + 1 } else { down := true, fails := 0 }) ∧
      ∀ p, p ≠ f.port → s'.eng.fab.ports.find? p = s.eng.fab.ports.find? p) ∧
  (∀ s : State, (s.clk % 2 ^ 48 ≠ (s.ldr.device.getD 5 0).toNat % 2 ^ 48 → exec .systemTimeStep s = .next s) ∧
    (s.clk % 2 ^ 48 = (s.ldr.device.getD 5 0).toNat % 2 ^ 48 → exec .systemTimeStep s =
      .next { s with ldr := { s.ldr with stClk := some s.clk, stBase := (s.ldr.device.getD 4 0).toNat } })) ∧
  ∀ s : State, (s.ldr.stClk = none ∨ s.clk < s.eng.fab.slewAt → exec .systemTimeSlew s = .next s) ∧
    (s.ldr.stClk ≠ none → s.eng.fab.slewAt ≤ s.clk → 1 < deviceCount s → ∃ s', exec .systemTimeSlew s = .next s' ∧
      (s'.ldr.stBase = (s.ldr.stBase + 1) % 2 ^ 64 ∨ s'.ldr.stBase = (s.ldr.stBase + 2 ^ 64 - 1) % 2 ^ 64) ∧ s'.ldr = { s.ldr with stBase := s'.ldr.stBase } ∧
      s'.eng.fab.slewAt = s.clk + 4096 ∧ s'.teams = s.teams ∧ s'.mem = s.mem ∧ s'.cores = s.cores)

/-- R29, R407, R423, R426 to R428, R469, R475, R481, R487, R503: accesses of the host and of peers reach memory through open windows alone; a
doorbell makes the loader take entries; device reset and loss of power leave the device as after reset, memory's bytes kept or cleared; boot
takes firmware that verifies. That a step whose condition does not hold changes nothing is the model's choice (log 6). Readings of the model's
own: logs 13, 36 and 65. -/
def Obligations.HostPeersAndPower : Prop :=
  (∀ (s : State) (p : PeerAccess), s.subject = .peer p →
    (p.dev = s.deviceId ∨ configured s p.dev = false → exec .peerAccess s = .next s) ∧
    (p.dev ≠ s.deviceId → configured s p.dev = true → ∃ s' a, exec .peerAccess s = .next s' ∧
      VisitSent s s' a (fun m => m.xd = true ∧ m.inbound = true ∧ m.sdev = p.dev ∧ m.ddev = s.deviceId) ∧ a.dev = some p.dev ∧
      a.kind = p.kind ∧ a.opc = p.opc ∧ a.pa = p.addr ∧ a.width = p.bytes ∧ a.operand = p.data ∧ a.cmp = p.cmp ∧ a.performed = false)) ∧
  (∀ (s : State) (a : HostAccess), s.subject = .host a → hostReady s a = true → barHead a.func ≤ a.off →
    let sent := fun (x : Host.Outcome State Fault Refusal) (pa n : Nat) (more : OutAccess → Prop) => ∃ s' v, x = .next s' ∧
      VisitSent s s' v (fun m => m.xd = false ∧ m.cls = 6 ∧ m.ctx = 0 ∧ (m.src, m.srcEp) = (64, 0) ∧
        (m.dst, m.dstEp) = homeEndpoint (homeSlice pa)) ∧ v.dev = none ∧ v.kind = a.kind ∧ v.pa = pa ∧ v.width = n ∧ v.performed = false ∧ more v
    (a.kind = .write → hostTarget s a.func a.off a.bytes.length true = none →
      exec .hostWrite s = .next { s with ldr := { s.ldr with hostErrors := s.ldr.hostErrors + 1 } }) ∧
    (∀ pa, a.kind = .write → hostTarget s a.func a.off a.bytes.length true = some pa → a.bytes ≠ [] → pa % 512 + a.bytes.length ≤ 512 →
      sent (exec .hostWrite s) pa a.bytes.length fun v => v.bytes.length = a.bytes.length ∧
        ∀ k, k < a.bytes.length → v.bytes[k]? = some (pa + k, a.bytes.getD k 0)) ∧
    (a.kind = .read → hostTarget s a.func a.off a.width false = none →
      exec .hostRead s = .next { s with ldr := { s.ldr with answer := .unsupported } }) ∧
    (∀ pa, a.kind = .read → hostTarget s a.func a.off a.width false = some pa → 0 < a.width → pa % 512 + a.width ≤ 512 →
      sent (exec .hostRead s) pa a.width fun _ => True) ∧
    (a.kind = .add ∨ a.kind = .exch ∨ a.kind = .cas → (a.width ≠ 4 ∧ a.width ≠ 8) ∨ hostTarget s a.func a.off a.width true = none →
      exec .hostAtomic s = .next { s with ldr := { s.ldr with answer := .unsupported } }) ∧
    (∀ pa, a.kind = .add ∨ a.kind = .exch ∨ a.kind = .cas → a.width = 4 ∨ a.width = 8 → hostTarget s a.func a.off a.width true = some pa →
      sent (exec .hostAtomic s) pa a.width fun v => v.operand = a.operand ∧ v.cmp = a.cmp ∧
        v.opc = (if a.kind = .add then 12 else if a.kind = .exch then 20 else 22) + if a.width = 8 then 1 else 0)) ∧
  (∀ (s : State) (r id : Nat) (f : Flit) (m : Message) (a : OutAccess), LastFlit s r f m → m.purpose = .access id → s.ldr.outs.find? id = some a →
    (m.xd = true → peerWindow s a.pa a.width (a.kind != .read) = false →
      ∃ s', exec .flitArrival s = .next s' ∧ s'.teams = s.teams ∧ s'.mem = s.mem ∧
        s'.ldr.outs.find? id = some { a with performed := true, answer := .protection } ∧
        ∃ k ∈ s'.eng.fab.messages.vals, k.purpose = .answer id ∧ k.xd = true ∧ k.sdev = s.deviceId ∧ k.ddev = m.sdev) ∧
    (m.xd = true → peerWindow s a.pa a.width (a.kind != .read) = true →
      ∃ s', exec .flitArrival s = .next s' ∧ s'.teams = s.teams ∧ s'.mem = s.mem ∧
        s'.ldr.outs.find? id = some { a with epoch := some s.mem.epoch } ∧
        ∃ k ∈ s'.eng.fab.messages.vals, k.purpose = .access id ∧ k.xd = false ∧ (k.src, k.srcEp) = (r, 7) ∧
          (k.dst, k.dstEp) = homeEndpoint (homeSlice a.pa)) ∧
    (m.xd = false → m.bad = [] →
      let ends := fun (more : State → Prop) => ∃ s', exec .flitArrival s = .next s' ∧ s'.teams = s.teams ∧ s'.mem.host = s.mem.host ∧
        s'.mem.peer = s.mem.peer ∧ more s'
      (a.kind = .read → s.mem.touchesPoison a.pa a.width = false → ends fun s' => s'.mem = s.mem ∧
        s'.ldr.outs.find? id = some { a with performed := true, answer := .data ((List.range a.width).map fun k => s.mem.byte (a.pa + k)) }) ∧
      (a.kind = .write → a.bytes ≠ [] → (a.bytes.map Prod.fst).Nodup → (∀ e ∈ a.bytes, e.1 / 512 = a.pa / 512) →
        (s.eng.snap.chains.has (a.pa / 512) = false → ends fun s' => s'.ldr.outs.find? id = some { a with performed := true } ∧
          (∀ e ∈ a.bytes, s'.mem.byte e.1 = e.2) ∧ ∀ x, x ∉ a.bytes.map Prod.fst → s'.mem.byte x = s.mem.byte x) ∧
        (s.eng.snap.chains.has (a.pa / 512) = true → ends fun s' => s'.mem.bytes = s.mem.bytes ∧ s'.ldr = s.ldr ∧
          ∃ c ∈ s'.eng.snap.waiting.vals, c.warp = none ∧ c.job = none ∧ c.op = id ∧ c.lines.keys = [a.pa / 512])) ∧
      (a.kind = .add ∨ a.kind = .exch ∨ a.kind = .cas → a.width = 4 ∨ a.width = 8 → s.mem.touchesPoison a.pa a.width = false →
        a.opc = (if a.kind = .add then 12 else if a.kind = .exch then 20 else 22) + (if a.width = 8 then 1 else 0) →
        s.eng.snap.chains.has (a.pa / 512) = false →
        let old := (List.range a.width).map fun k => s.mem.byte (a.pa + k)
        let n := 2 ^ (8 * a.width)
        let new := if a.kind = .add then (lowFirst old + a.operand.toNat) % n else if a.kind = .exch then a.operand.toNat % n
          else if lowFirst old = a.cmp.toNat % n then a.operand.toNat % n else lowFirst old
        ends fun s' => s'.ldr.outs.find? id = some { a with performed := true, answer := .data old } ∧
          ∀ b, s'.mem.byte b = if a.pa ≤ b ∧ b < a.pa + a.width then BitVec.ofNat 8 (new / 2 ^ (8 * (b - a.pa))) else s.mem.byte b))) ∧
  (∀ (s : State) (id : Nat) (f : Flit) (m : Message) (a : OutAccess), LastFlit s 64 f m → m.xd = false → m.dstEp = 0 → m.purpose = .answer id →
    s.ldr.outs.find? id = some a → a.dev = none → a.kind ≠ .write →
    ∃ s', exec .flitArrival s = .next s' ∧ s'.teams = s.teams ∧ s'.mem = s.mem ∧
      s'.ldr = { s.ldr with outs := s.ldr.outs.erase id, answer := a.answer }) ∧
  (∀ (s : State) (n producer : Nat), s.subject = .pair n producer → ∃ s', exec .doorbellWrite s = .next s' ∧ s'.teams = s.teams ∧
    s'.mem = s.mem ∧ s'.ldr = s.ldr ∧ MessagePut s s' 6 (64, 0) (65, 0) (.doorbell n producer)) ∧
  (∀ (s : State) (f : Flit) (m : Message) (n producer : Nat) (q : Queue), LastFlit s 65 f m → m.xd = false → m.purpose = .doorbell n producer →
    s.ldr.queues.find? n = some q → producer < 2 ^ 32 → q.consumer < 2 ^ 32 →
    (q.consumer = producer → ∃ s', exec .flitArrival s = .next s' ∧ s'.teams = s.teams ∧ s'.mem = s.mem ∧
      s'.ldr = { s.ldr with queues := s.ldr.queues.insert n { q with producer := producer } }) ∧
    (producer = (q.consumer + 1) % 2 ^ 32 → 0 < q.size → ∃ s' c, exec .flitArrival s = .next s' ∧ s'.teams = s.teams ∧ s'.mem = s.mem ∧
      s'.ldr.queues.find? n = some { q with producer := producer, consumer := producer } ∧ s'.ldr.nextJ = s.ldr.nextJ + 1 ∧
      s'.ldr.journal.find? s.ldr.nextJ = some c ∧ c.queue = n ∧ c.func = q.func ∧ c.state = .accepted ∧ c.clkIn = s.clk ∧
      (c.entry = (List.range 64).map fun k => s.mem.byteAt (if q.host then 1 else 0) 0 (q.base + 64 * (q.consumer % q.size) + k)) ∧
      ∀ j, j ≠ s.ldr.nextJ → s'.ldr.journal.find? j = s.ldr.journal.find? j)) ∧
  (∀ s : State,
    let resets := fun (r : Host.Outcome State Fault Refusal) (bytes : Memory) (poison : List Nat) => ∃ s', r = .next s' ∧ s'.clk = 0 ∧
      s'.cores.entries = [] ∧ s'.teams.entries = [] ∧ s'.agenda = [] ∧ s'.issuing = none ∧ s'.curCmd = none ∧ s'.subject = .none ∧
      s'.eng = .start ∧ s'.ldr = { Loader.start with grade := s.ldr.grade } ∧ s'.mem.bytes = bytes ∧ s'.mem.poison = poison ∧
      s'.mem.writes.entries = [] ∧ s'.mem.tlb = [] ∧ s'.mem.epoch = 0 ∧ s'.mem.host = s.mem.host ∧ s'.mem.peer = s.mem.peer
    resets (exec .deviceReset s) s.mem.bytes s.mem.poison ∧ resets (exec .lossOfPower s) .empty []) ∧
  ∀ (s : State) (f : Firmware), s.subject = .firmware f →
    (s.ldr.booted = true ∨ rootSigned f.image f.sig = false ∨ rootSigned f.keys.flatten f.keysSig = false → exec .firmwareBoot s = .next s) ∧
    (s.ldr.booted = false → rootSigned f.image f.sig = true → rootSigned f.keys.flatten f.keysSig = true → ∃ s', exec .firmwareBoot s = .next s' ∧
      s'.teams = s.teams ∧ s'.mem = s.mem ∧ s'.eng = s.eng ∧ s'.ldr.booted = true ∧ s'.ldr.fwDigest = Config.shake256 f.image ∧
      s'.ldr.grade = { code := f.grade, mxp := f.mxp, disabled := f.cores, pairs := f.pairs } ∧
      ∀ k, k < 16 → s'.ldr.keys.getD k none = if f.keys.getD k [] = [] then none else some (f.keys.getD k []))

/-! ## The loader's commands -/

/-- R470, R471, R476: a command of a function that does not own the context that it names, a command of the physical function that a virtual
one issues, and a debugger's sub-command whose queue does not hold the right are NOT-PERMITTED; one that must name no context and names one of
its own is BAD-COMMAND. Nothing but their entry changes. Readings of the model's own: logs 73, 75 and 77. -/
def Obligations.ForeignCommandsAreNotPermitted : Prop :=
  ∀ (s : State) (i : Instr) (a : Acting), OnCommand s a →
    (i ∈ contextCommands → ¬ Owns s a → EndsAlone i a s 7) ∧
    (i ∈ functionCommands → a.cmd.ctx ≠ 0 → ¬ Owns s a → EndsAlone i a s 7) ∧
    (i ∈ functionCommands → a.cmd.ctx ≠ 0 → Owns s a → EndsAlone i a s 5) ∧
    (i ∈ physicalCommands → a.cmd.ctx = 0 → a.run.func ≠ 64 → EndsAlone i a s 7) ∧
    (i = .kill ∨ i = .attest ∨ i = .attestCertificate → a.cmd.ctx ≠ 0 → ¬ Owns s a → EndsAlone i a s 7) ∧
    (i = .debugRevoke → a.run.func ≠ 64 → EndsAlone i a s 7) ∧
    (i = .queryConfig → a.run.func ≠ 64 → ¬ Owns s a → EndsAlone i a s 7) ∧
    (i = .queryPartition → a.cmd.ctx = 0 → a.run.func ≠ 64 → a.cmd.w3.toNat ≠ 0 → a.cmd.w3.toNat ≠ a.run.func → EndsAlone i a s 7) ∧
    ∀ c, i ∈ holderCommands → OnContext s a c → c.debugQueue ≠ some a.run.queue → EndsAlone i a s 7

/-- R439, R455, R471, R480, R500: a context is made with a legal block and a free number of its function, takes a new block, is given and
deprived of objects, is stopped and saved and comes back with its traps answered, is exported and imported, and is removed once nothing of it
is left. That a step whose condition does not hold changes nothing is the model's choice (log 6). Readings of the model's own: logs 16, 67,
69, 79 and 83. -/
def Obligations.ContextsAreMadeServedAndRemoved : Prop :=
  (∀ (s : State) (a : Acting), OnFunction s a →
    let b := blockAt s a.cmd.w1
    let f := s.func a.run.func
    let open_ := fun n => n ≠ 0 ∧ f.asid0 ≤ n ∧ n < f.asid0 + f.asidN ∧ s.context? n = none
    (¬ CfgLegal b → EndsAlone .ctxCreate a s 5) ∧
    (CfgLegal b → (∀ n, ¬ open_ n) → EndsAlone .ctxCreate a s 9) ∧
    (CfgLegal b → (∃ n, open_ n) → ∃ s' n c, open_ n ∧ exec .ctxCreate s = .next s' ∧ CmdDone a s s' 0 n ∧ LoaderOnly s s' ∧
      OtherContexts n s s' ∧ s'.context? n = some c ∧ c.func = a.run.func ∧ c.cfg = b ∧ c.slots = List.replicate 16 none ∧ c.tell = [] ∧
      c.deques = [] ∧ c.aces = [] ∧ c.stopped = false ∧ c.traps = [] ∧ c.debugQueue = none)) ∧
  (∀ (s : State) (a : Acting) (c : Context), OnContext s a c →
    let b := blockAt s a.cmd.w1
    (¬ CfgLegal b → EndsAlone .ctxConfig a s 5) ∧
    (CfgLegal b → ∃ s' c', exec .ctxConfig s = .next s' ∧ CmdDone a s s' 0 0 ∧ LoaderOnly s s' ∧ OtherContexts (ctxNamed a) s s' ∧
      s'.context? (ctxNamed a) = some c' ∧ c' = { c with cfg := b, fqPos := c'.fqPos, nrPos := c'.nrPos, trPos := c'.trPos })) ∧
  (∀ (s : State) (a : Acting) (c : Context), OnContext s a c →
    let kind := a.cmd.w1.toNat
    let first := a.cmd.w2.toNat
    let count := a.cmd.w3.toNat
    let legal := kind ≤ 2 ∧ first + count ≤ (if kind = 0 then 65536 else if kind = 1 then 4096 else 64) ∧ a.cmd.w4.toNat < 2
    let granted := fun (i : Instr) (on : Prop) => ∃ s' c', exec i s = .next s' ∧ CmdDone a s s' 0 0 ∧ OtherContexts (ctxNamed a) s s' ∧
      s'.context? (ctxNamed a) = some c' ∧ c' = { c with tell := c'.tell, deques := c'.deques, aces := c'.aces } ∧
      (∀ n, (n ∈ c'.tell ↔ if kind = 0 ∧ first ≤ n ∧ n < first + count then on else n ∈ c.tell) ∧
        (n ∈ c'.deques ↔ if kind = 1 ∧ first ≤ n ∧ n < first + count then on else n ∈ c.deques) ∧
        (n ∈ c'.aces ↔ if kind = 2 ∧ first ≤ n ∧ n < first + count then on else n ∈ c.aces)) ∧
      s'.mem = s.mem ∧ (kind ≠ 2 → LoaderOnly s s') ∧
      (kind = 2 → ∀ n, first ≤ n → n < first + count → (s'.aceReg (1024 + n)).val = AceReg.start.val ∧ (s'.aceReg (1024 + n)).dir = false)
    (¬ legal → EndsAlone .grant a s 5 ∧ EndsAlone .grantRevoke a s 5) ∧
    (legal → granted .grant True) ∧
    (legal → objectBusy s (ctxNamed a) kind first count = true → RunsAlone .grantRevoke a s []) ∧
    (legal → objectBusy s (ctxNamed a) kind first count = false → granted .grantRevoke False)) ∧
  (∀ (s : State) (a : Acting) (c : Context), OnContext s a c →
    let here := ∃ t ∈ s.teams.vals, t.ctx = ctxNamed a ∧ t.dead = false ∧ t.status ≠ .saved
    let action := a.cmd.w1.toNat / 2 % 4
    (8 ≤ a.cmd.w1.toNat → EndsAlone .switchPreempt a s 5 ∧ EndsAlone .switchResume a s 5) ∧
    (a.cmd.w1.toNat < 8 →
      (a.run.state = .accepted → c.traps ≠ [] → EndsAlone .switchPreempt a s 0) ∧
      (a.run.state = .accepted → c.traps = [] → here → ∃ s', exec .switchPreempt s = .next s' ∧ CmdRuns a s s' [1] ∧ s'.teams = s.teams ∧
        s'.cores = s.cores ∧ s'.mem = s.mem ∧ s'.context? (ctxNamed a) = some { c with stopped := true } ∧
        ∀ e ∈ s.teams.entries, e.2.ctx = ctxNamed a → e.2.status = .resident → ∃ l, e.1 ∈ l ∧
          .event .preemptionRequest (.teams e.2.core l 1) ∈ s'.agenda) ∧
      (a.run.state = .accepted → c.traps = [] → ¬ here → ∃ s', exec .switchPreempt s = .next s' ∧ CmdDone a s s' 0 0 ∧ s'.teams = s.teams ∧
        s'.mem = s.mem ∧ s'.context? (ctxNamed a) = some { c with stopped := true }) ∧
      (a.run.state = .running → here → exec .switchPreempt s = .next s) ∧
      (a.run.state = .running → ¬ here → EndsAlone .switchPreempt a s 0)) ∧
    (a.cmd.w1.toNat < 8 →
      (action = 3 → EndsAlone .switchResume a s 5) ∧
      (action ≠ 3 → c.stopped = true → here → RunsAlone .switchResume a s []) ∧
      (action ≠ 3 → c.stopped = false ∨ ¬ here →
        let awake := { c with stopped := false, traps := [] }
        (c.traps = [] → ∃ s', exec .switchResume s = .next s' ∧ CmdDone a s s' 0 0 ∧ LoaderOnly s s' ∧ OtherContexts (ctxNamed a) s s' ∧
          s'.context? (ctxNamed a) = some awake) ∧
        (∀ (t : CtxTrap) (x : Warp), c.traps = [t] → s.warp? t.warp = some x → x.lanes.length = 64 → (∀ r ∈ t.reads, r.off = offY ∨ r.off = offY2) →
          ∃ s' x', exec .switchResume s = .next s' ∧ CmdDone a s s' 0 0 ∧ s'.mem = s.mem ∧ s'.context? (ctxNamed a) = some awake ∧
            s'.warp? t.warp = some x' ∧
            (∀ l, l < 64 → (x'.lane l).pc = match t.pc.find? l with
              | some p => if action = 1 then nextPc p else p
              | none => (x.lane l).pc) ∧
            (action = 2 → ∀ r ∈ t.reads, (x.elem r.unit r.off r.lane).tag ≠ 0 →
              x'.elem r.unit r.off r.lane = .value (s.mem.word (a.cmd.w2.toNat + 8 * r.lane))) ∧
            (action ≠ 2 → x'.ports = x.ports))))) ∧
  (∀ (s : State) (a : Acting) (c : Context), OnContext s a c →
    let here := ctxOnCores s (ctxNamed a)
    (a.run.state = .accepted → notPortable s (ctxNamed a) = true → EndsAlone .ctxExport a s 10) ∧
    (∀ p, a.run.state = .accepted → notPortable s (ctxNamed a) = false → translate s (ctxNamed a) (s.cfgWord (ctxNamed a) 6).toNat true false = .ok p →
      p.tgt = 0 → NoVersions s → ∃ s', exec .ctxExport s = .next s' ∧ CmdRuns a s s' [1] ∧ WordsAt s s' p.pa [1] ∧ s'.teams = s.teams ∧
        s'.context? (ctxNamed a) = some { c with exporting := some s.clk }) ∧
    (a.run.state = .running → a.run.info = [1] → exportReady s (ctxNamed a) = false → exec .ctxExport s = .next s) ∧
    (a.run.state = .running → a.run.info = [1] → exportReady s (ctxNamed a) = true → ∃ s', exec .ctxExport s = .next s' ∧ CmdRuns a s s' [2] ∧
      s'.teams = s.teams ∧ s'.mem = s.mem ∧ s'.context? (ctxNamed a) = some { c with stopped := true }) ∧
    (a.run.state = .running → a.run.info = [2] → here = true → exec .ctxExport s = .next s) ∧
    (a.run.state = .running → a.run.info = [2] → here = false → NoVersions s → ∃ s', exec .ctxExport s = .next s' ∧ CmdDone a s s' 0 0 ∧
      s'.teams = s.teams ∧ s'.context? (ctxNamed a) = some { c with exporting := none } ∧
      ∀ b, b < a.cmd.w1.toNat ∨ a.cmd.w1.toNat + a.cmd.w2.toNat ≤ b → s'.mem.byte b = s.mem.byte b)) ∧
  (∀ (s : State) (a : Acting) (c : Context), OnContext s a c →
    ((∀ i ∈ s.ldr.images.vals, i.ctx = ctxNamed a → imgHasIr i.bytes = false) → EndsAlone .ctxImport a s 1) ∧
    (∀ (n : Nat) (i : Image) (r : List (Nat × Image)), s.ldr.images.entries = (n, i) :: r → i.ctx = ctxNamed a → imgHasIr i.bytes = true →
      s.ldr.images.find? 0 = none → s.ldr.nextHandle ≠ 0 → NoVersions s →
      let sec := section_ i.bytes (imgIr i.bytes)
      (translationStatus sec 256 ≠ 0 → EndsAlone .ctxImport a s (translationStatus sec 256)) ∧
      (translationStatus sec 256 = 0 → needsRegion sec 256 = false → none ∈ c.slots → c.slots.length = 16 →
        (∀ k, s.nextId ≤ k → s.team? k = none) →
        let top := (s.ldr.codeTop + (translatedCode i.bytes 256).length + 511) / 512 * 512
        (768 * 2 ^ 30 < top → EndsAlone .ctxImport a s 9) ∧
        (top ≤ 768 * 2 ^ 30 → ∃ s' h, exec .ctxImport s = .next s' ∧ CmdDone a s s' 0 0 ∧
          s'.ldr.images.find? s.ldr.nextHandle = some h ∧ h.ctx = ctxNamed a ∧
          h.ir = true ∧ (∀ k, k < s.nextId → s'.team? k = s.team? k) ∧
          ∀ k t, s.nextId ≤ k → s'.team? k = some t → t.ctx = ctxNamed a ∧ t.status = .saved)))) ∧
  ∀ (s : State) (a : Acting) (c : Context), OnContext s a c →
    (openLaunches s (ctxNamed a) = [] → (∀ t ∈ s.teams.vals, t.ctx ≠ ctxNamed a) → ∃ s', exec .ctxDestroy s = .next s' ∧ CmdDone a s s' 0 0 ∧
      s'.teams = s.teams ∧ BytesKept s s' ∧ s'.context? (ctxNamed a) = none ∧ OtherContexts (ctxNamed a) s s' ∧
      (∀ e, e ∈ s'.ldr.images.entries ↔ e ∈ s.ldr.images.entries ∧ e.2.ctx ≠ ctxNamed a) ∧
      ∀ e, e ∈ s'.eng.snap.held.entries ↔ e ∈ s.eng.snap.held.entries ∧ e.2.ctx ≠ ctxNamed a) ∧
    (∀ e ∈ s.teams.entries, a.run.state = .running → e.2.ctx = ctxNamed a → RunsAlone .ctxDestroy a s []) ∧
    (a.run.state = .accepted → ∃ s', exec .ctxDestroy s = .next s' ∧ ∀ j ∈ openLaunches s (ctxNamed a), ∀ l, s.ldr.launches.find? j = some l →
      ∃ l', s'.ldr.launches.find? j = some l' ∧ l'.killed = some (l.killed.getD 3))

/-- R447, R473 to R475, R477, R478, R503: the physical function's legal blocks set the device, a partition, a host window or a peer window,
others are refused; a query writes its block; EVSEL0 to EVSEL7 of the issuing function are written, and its counters zeroed where CLEAR asks.
Readings of the model's own: logs 74 and 75. -/
def Obligations.DevicesAreConfiguredAndQueried : Prop :=
  (∀ (s : State) (a : Acting), OnFunction s a → a.run.func = 64 →
    let b := blockAt s a.cmd.w1
    let f := fieldAt b
    (a.cmd.w1.toNat % 64 ≠ 0 → ∀ i ∈ physicalCommands, EndsAlone i a s 5) ∧
    (a.cmd.w1.toNat % 64 = 0 →
      (¬ DeviceLegal s b → EndsAlone .devConfigDevice a s 5) ∧
      (DeviceLegal s b → (∀ k, k < 4 → fieldAt s.ldr.device 3 (8 * k + 7) 1 = f 3 (8 * k + 7) 1) → ∃ s', exec .devConfigDevice s = .next s' ∧
        CmdDone a s s' 0 0 ∧ s'.ldr = { s.ldr with device := b, journal := s'.ldr.journal } ∧ s'.teams = s.teams ∧ s'.mem = s.mem ∧ s'.eng = s.eng ∧
        s'.agenda = (if s.clk % 2 ^ 48 = f 5 0 48 then [.event .systemTimeStep .none] else []) ++ s.agenda) ∧
      (¬ PartitionLegal s b → EndsAlone .devConfigPartition a s 5) ∧
      (PartitionLegal s b → ∃ s', exec .devConfigPartition s = .next s' ∧ CmdDone a s s' 0 0 ∧ LoaderOnly s s' ∧
        (∀ n, n ≠ f 0 0 7 → s'.func n = s.func n) ∧
        s'.func (f 0 0 7) =
          { s.func (f 0 0 7) with
            cores := coresNamed b, defGrant := if f 0 8 4 = 0 then 8 else f 0 8 4, s2root := f 5 12 40 * 2 ^ 12, asid0 := f 6 0 16,
            asidN := f 6 16 17 }) ∧
      (¬ HostWindowLegal s b → EndsAlone .devConfigHostWindow a s 5) ∧
      (HostWindowLegal s b → ∃ s', exec .devConfigHostWindow s = .next s' ∧ CmdDone a s s' 0 0 ∧ LoaderOnly s s' ∧
        (∀ n, n ≠ f 0 8 7 → s'.func n = s.func n) ∧
        s'.func (f 0 8 7) = { s.func (f 0 8 7) with windows := (s'.func (f 0 8 7)).windows } ∧
        ∀ w, (s'.func (f 0 8 7)).windows.find? w = if w = f 0 0 6 then some b else (s.func (f 0 8 7)).windows.find? w) ∧
      (¬ PeerWindowLegal s b → EndsAlone .devConfigPeerWindow a s 5) ∧
      (PeerWindowLegal s b → ∃ s', exec .devConfigPeerWindow s = .next s' ∧ CmdDone a s s' 0 0 ∧ LoaderOnly s s' ∧
        s'.ldr = { s.ldr with peerWins := s'.ldr.peerWins, journal := s'.ldr.journal } ∧
        ∀ w, s'.ldr.peerWins.find? w = if w = f 0 0 6 then some b else s.ldr.peerWins.find? w))) ∧
  (∀ (s : State) (a : Acting), OnFunction s a → NoVersions s →
    let f := a.run.func
    let writes := fun (i : Instr) (ws : List W64) => ∃ s', exec i s = .next s' ∧ CmdDone a s s' 0 0 ∧ WordsAt s s' a.cmd.w2.toNat ws ∧
      s'.teams = s.teams ∧ s'.ldr = { s.ldr with journal := s'.ldr.journal }
    (a.cmd.w3 ≠ 0 → EndsAlone .queryDeviceMap a s 5 ∧ EndsAlone .queryEvsel a s 5) ∧
    (a.cmd.w2.toNat % 64 ≠ 0 → EndsAlone .queryDeviceMap a s 5 ∧ EndsAlone .queryEvsel a s 5) ∧
    (a.cmd.w2.toNat % 64 = 0 → a.cmd.w3 = 0 → (s.func f).evsel.length = 8 → writes .queryEvsel (s.func f).evsel) ∧
    (a.cmd.w2.toNat % 64 = 0 → a.cmd.w3 = 0 → ∃ ws, writes .queryDeviceMap ws ∧ ws.length = 64 ∧
      ws.getD 0 0 = fieldsWord [(16, (s.ldr.device.getD 0 0).toNat % 2 ^ 19), (8, s.ldr.grade.code % 256), (0, 1)] ∧
      (∀ n, n < 256 → ((ws.getD (1 + n / 64) 0).getLsbD (n % 64) = true ↔ n ∉ s.ldr.grade.disabled)) ∧
      ws.getD 5 0 = (if s.ldr.grade.mxp = true then 1 else 0) ∧
      (∀ q k p, q < 1024 → k < 3 → s.ldr.grade.pairs.find? (fun e => decide (e.1 = q)) = some (q, p) →
        ((ws.getD (6 + (3 * q + k) / 64) 0).getLsbD ((3 * q + k) % 64) = true ↔ p / 2 ^ k % 2 = 1)) ∧
      (∀ q k, q < 1024 → k < 3 → s.ldr.grade.pairs.find? (fun e => decide (e.1 = q)) = none →
        (ws.getD (6 + (3 * q + k) / 64) 0).getLsbD ((3 * q + k) % 64) = false) ∧
      ∀ k, 54 ≤ k → ws.getD k 0 = 0) ∧
    (∀ n, a.cmd.w2.toNat % 64 = 0 → n = (if f = 64 then a.cmd.w3.toNat else f) → f ≤ 64 → n ≤ 64 → (f ≠ 64 → a.cmd.w3 = 0 ∨ a.cmd.w3.toNat = f) →
      let g := s.func n
      ∃ ws, writes .queryPartition ws ∧ ws.length = 8 ∧ ws.getD 0 0 = fieldsWord [(8, g.defGrant % 16), (0, n)] ∧
        (∀ c, c < 256 → ((ws.getD (1 + c / 64) 0).getLsbD (c % 64) = true ↔ c ∈ g.cores)) ∧
        ws.getD 5 0 = BitVec.ofNat 64 g.s2root ∧ ws.getD 6 0 = BitVec.ofNat 64 (g.asid0 + g.asidN * 2 ^ 16) ∧ ws.getD 7 0 = 0)) ∧
  (∀ (s : State) (a : Acting) (c : Context), OnCommand s a → s.context? (ctxNamed a) = some c → a.run.func = 64 ∨ a.run.func = c.func →
    (a.cmd.w3 ≠ 0 ∨ a.cmd.w2.toNat % 64 ≠ 0 → EndsAlone .queryConfig a s 5) ∧
    (a.cmd.w3 = 0 → a.cmd.w2.toNat % 64 = 0 → NoVersions s → ∃ s', exec .queryConfig s = .next s' ∧ CmdDone a s s' 0 0 ∧
      WordsAt s s' a.cmd.w2.toNat c.cfg ∧ s'.teams = s.teams ∧ s'.ldr = { s.ldr with journal := s'.ldr.journal })) ∧
  ∀ (s : State) (a : Acting), OnFunction s a →
    let f := a.run.func
    let b := blockAt s a.cmd.w1
    let bad := 2 ≤ a.cmd.w2.toNat ∨ ∃ k, k < 8 ∧ (fieldAt b k 16 48 ≠ 0 ∨ fieldAt b k 8 6 ≠ 0)
    (bad → EndsAlone .pmcSet a s 5) ∧
    (¬ bad → ∃ s', exec .pmcSet s = .next s' ∧ CmdDone a s s' 0 0 ∧ s'.teams = s.teams ∧ s'.mem = s.mem ∧
      (s'.func f).evsel = b.map (fun w => if f = 64 then w else w ||| 0x4000) ∧ (∀ n, n ≠ f → s'.func n = s.func n) ∧
      (a.cmd.w2 = 0 → s'.cores = s.cores ∧ (s'.func f).pmcs = (s.func f).pmcs) ∧
      (a.cmd.w2 = 1 → (s'.func f).pmcs.entries = [] ∧ ∀ n k, s.cores.find? n = some k →
        s'.cores.find? n = some (if k.func = f then { k with pmcs := List.replicate 8 0 } else k)))

/-- R115, R486 to R490, R501: an image that verifies is placed in a free slot and named by the next handle, one that does not is refused with
BAD-SIGNATURE; it is unloaded once its slot is in no use; a handle is replaced by another one of its context; a report says which device,
firmware and image run, and is signed. Whether a signature verifies is uninterpreted (notes/assumptions/15.md): both cases are stated.
Readings of the model's own: logs 15 and 35. -/
def Obligations.ImagesLoadLeaveAndAttest : Prop :=
  (∀ (s : State) (a : Acting) (c : Context), OnContext s a c →
    let img := s.mem.read a.cmd.w1.toNat a.cmd.w2.toNat
    let w := fun k => (wordIn img (8 * k)).toNat
    let code := w 1 % 2 ^ 32
    let signed := (s.ldr.keys.getD (w 0 % 16) none).any fun k =>
      Config.ed448Verify k (asciiBytes "Parnex Zenlux image") (Config.shake256 (img.take (img.length - 114))) (img.drop (img.length - 114))
    (a.cmd.w2.toNat < 178 → EndsAlone .loadImage a s 5) ∧
    (178 ≤ a.cmd.w2.toNat → w 0 / 2 ^ 32 ≠ 0x5A4C5849 ∨ w 0 / 2 ^ 24 % 2 ^ 8 ≠ 1 ∨ signed = false → EndsAlone .loadImage a s 6) ∧
    (178 ≤ a.cmd.w2.toNat → w 0 / 2 ^ 24 = 0x5A4C584901 → w 0 / 2 ^ 12 % 2 ^ 4 = 0 → w 0 / 2 ^ 10 % 2 = 0 → w 0 / 2 ^ 4 % 2 ^ 4 = 0 →
      w 0 / 2 ^ 16 % 2 ^ 8 ≤ 1 → code % 32 = 0 → code < 2 ^ 28 → 178 + code + w 1 / 2 ^ 32 ≤ a.cmd.w2.toNat → w 3 / 2 ^ 32 = 0 → w 4 / 2 ^ 32 = 0 →
      w 5 / 2 ^ 32 = 0 → w 6 = 0 → w 7 = 0 → none ∈ c.slots → c.slots.length = 16 → s.ldr.nextHandle ≠ 0 →
      s.ldr.codeTop + code + 511 ≤ 768 * 2 ^ 30 → NoVersions s →
      ∃ s', exec .loadImage s = .next s' ∧ (signed = false → CmdDone a s s' 6 0 ∧ s' = { s with ldr := { s.ldr with journal := s'.ldr.journal } }) ∧
        (signed = true → CmdDone a s s' 0 s.ldr.nextHandle ∧ s'.teams = s.teams ∧ s'.ldr.nextHandle = s.ldr.nextHandle + 1 ∧
          BytesAt s s' s.ldr.codeTop ((img.drop 64).take code) ∧ ∃ i slot, s'.ldr.images.find? s.ldr.nextHandle = some i ∧ i.ctx = ctxNamed a ∧
          i.slot = slot ∧ slot < 16 ∧ c.slots.getD slot none = none ∧ s'.context? (ctxNamed a) = some { c with slots := c.slots.set slot (some s.ldr.nextHandle) } ∧
          i.base = s.ldr.codeTop ∧ i.len = code ∧ i.ir = false ∧ i.step = w 0 / 2 ^ 16 % 2 ^ 8 ∧ i.schk = decide (w 0 / 2 ^ 9 % 2 = 1) ∧
          i.w32 = decide (w 0 / 2 ^ 8 % 2 = 1) ∧ i.tvec0.toNat = w 2 % 2 ^ 32 ∧ i.tvec1.toNat = w 2 / 2 ^ 32 ∧
          i.digest = Config.shake256 (img.take (img.length - 114))))) ∧
  (∀ (s : State) (a : Acting) (c : Context), OnContext s a c →
    let h := a.cmd.w1.toNat
    ((∀ i, s.ldr.images.find? h = some i → i.ctx ≠ ctxNamed a) → EndsAlone .unloadImage a s 5) ∧
    (∀ i, s.ldr.images.find? h = some i → i.ctx = ctxNamed a →
      (slotInUse s h i = true → ∃ s', exec .unloadImage s = .next s' ∧ CmdRuns a s s' [] ∧ LoaderOnly s s' ∧
        s'.ldr.images.find? h = some { i with unloading := true } ∧ s'.context? (ctxNamed a) = some c) ∧
      (slotInUse s h i = false → ∃ s', exec .unloadImage s = .next s' ∧ CmdDone a s s' 0 0 ∧ s'.teams = s.teams ∧ s'.mem = s.mem ∧
        s'.ldr.images.find? h = none ∧ (∀ k, k ≠ h → s'.ldr.images.find? k = s.ldr.images.find? k) ∧
        s'.context? (ctxNamed a) = some { c with slots := c.slots.set i.slot none }))) ∧
  (∀ (s : State) (a : Acting) (c : Context), OnContext s a c →
    let names := fun (v : W64) (i : Image) => s.ldr.images.find? v.toNat = some i ∧ i.ctx = ctxNamed a
    ((∀ i, ¬ names a.cmd.w1 i) ∨ (∀ i, ¬ names a.cmd.w2 i) ∨ a.cmd.w1 = a.cmd.w2 → EndsAlone .reinstall a s 5) ∧
    (∀ i k, names a.cmd.w1 i → names a.cmd.w2 k → a.cmd.w1 ≠ a.cmd.w2 → ∃ s', exec .reinstall s = .next s' ∧ CmdDone a s s' 0 0 ∧
      LoaderOnly s s' ∧ s'.ldr.images.find? a.cmd.w1.toNat = some { i with replaced := some a.cmd.w2.toNat } ∧
      ∀ n, n ≠ a.cmd.w1.toNat → s'.ldr.images.find? n = s.ldr.images.find? n)) ∧
  (∀ (s : State) (a : Acting), OnCommand s a → a.cmd.ctx = 0 ∨ Owns s a → NoVersions s →
    let at_ := a.cmd.w2.toNat
    (a.cmd.w3 ≠ 0 → s.ldr.images.find? a.cmd.w3.toNat = none → EndsAlone .attest a s 5) ∧
    (∀ digest : List Byte, digest.length = 64 →
      (a.cmd.w3 = 0 ∧ digest = List.replicate 64 0 ∨ a.cmd.w3 ≠ 0 ∧ ∃ i c, s.ldr.images.find? a.cmd.w3.toNat = some i ∧ s.context? i.ctx = some c ∧
        c.func = a.run.func ∧ i.digest = digest) → s.ldr.fwDigest.length = 64 →
      ∃ s' body, exec .attest s = .next s' ∧ CmdDone a s s' 0 0 ∧ s'.teams = s.teams ∧ body.length = 192 ∧
        BytesAt s s' at_ (body ++ Config.ed448Sign (Config.shake256 body) (asciiBytes "Parnex Zenlux attest")) ∧
        s'.mem.word at_ = 1 ∧ (s'.mem.word (at_ + 8)).toNat % 2 ^ 16 = (s.ldr.device.getD 0 0).toNat % 2 ^ 16 ∧
        (s'.mem.word (at_ + 8)).toNat / 2 ^ 19 % 2 ^ 5 = 0 ∧ (s'.mem.word (at_ + 8)).toNat / 2 ^ 24 = s.ldr.grade.code % 256 ∧
        s'.mem.word (at_ + 16) = BitVec.ofNat 64 s.clk ∧ s'.mem.read (at_ + 24) 32 = s.mem.read a.cmd.w1.toNat 32 ∧
        s'.mem.read (at_ + 56) 64 = s.ldr.fwDigest ∧ s'.mem.read (at_ + 120) 64 = digest ∧ s'.mem.word (at_ + 184) = 0) ∧
    ∃ s', exec .attestCertificate s = .next s' ∧ CmdDone a s s' 0 0 ∧ s'.teams = s.teams ∧ BytesAt s s' at_ Config.identityCertificate)

/-- R358 to R362, R364, R471: a launch whose record is malformed is refused (that its ASID is the context of the image is the model's choice,
log 66), one that exceeds the device too; an accepted one runs with its record's shape, roles and edges; a launch is killed with its teams and
ends once they are gone. That a step whose condition does not hold changes nothing is the model's choice (log 6). Readings of the model's own:
logs 56, 59 and 66. -/
def Obligations.LaunchesAreAcceptedAndKilled : Prop :=
  (∀ (s : State) (a : Acting) (c : Context), OnContext s a c → a.run.state = .accepted →
    let r := (List.range 32).map fun k => s.mem.word (a.cmd.w1.toNat + 8 * k)
    let f := fieldAt r
    let h := f 0 0 64
    (a.cmd.w1.toNat % 256 ≠ 0 → EndsAlone .launch a s 5) ∧
    (a.cmd.w1.toNat % 256 = 0 →
      ((∀ i, s.ldr.images.find? h = some i → i.ctx ≠ ctxNamed a) → EndsAlone .launch a s 1) ∧
      (∀ i, s.ldr.images.find? h = some i → i.ctx = ctxNamed a → i.replaced = none → i.unloading = false →
        let roles := [0, 1, 2, 3].filter fun k => decide (f 7 (16 * k) 5 ≠ 0)
        let exts := (List.range (f 4 0 3)).map fun k => f (5 + k / 2) (32 * (k % 2)) 32
        let ts := f 4 8 8
        let reserved := f 1 35 5 ≠ 0 ∨ f 1 24 4 ≠ 0 ∨ f 1 0 19 ≠ 0 ∨ f 2 57 7 ≠ 0 ∨ f 3 57 7 ≠ 0 ∨ f 4 16 48 ≠ 0 ∨ f 4 6 2 ≠ 0 ∨ f 4 3 1 ≠ 0 ∨
          (∃ k, k < 4 ∧ f 7 (16 * k + 11) 5 ≠ 0) ∨ f 10 3 61 ≠ 0
        let nest := f 4 0 3 = 0 ∨ 4 < f 4 0 3 ∨ (∃ k, k < 4 ∧ (k < f 4 0 3 ↔ f (5 + k / 2) (32 * (k % 2)) 32 = 0)) ∨ 2 ^ 32 < exts.foldl (· * ·) 1
        let shapes := f 7 0 5 = 0 ∨ ∃ k, k < 4 ∧
          (f 7 (16 * k) 5 ≠ 0 ∧ (f 7 (16 * k + 5) 6 = 0 ∨ (0 < k ∧ f 7 (16 * k - 16) 5 = 0) ∨ f (8 + k / 2) (32 * (k % 2)) 32 % 32 ≠ 0 ∨
              (if i.ir then 32 * i.nf else i.len) ≤ f (8 + k / 2) (32 * (k % 2)) 32) ∨
            f 7 (16 * k) 5 = 0 ∧ (f 7 (16 * k + 5) 6 ≠ 0 ∨ f (8 + k / 2) (32 * (k % 2)) 32 ≠ 0))
        let bad := f 1 48 16 ≠ i.ctx ∨ f 1 40 8 ≠ i.step ∨ 9 ≤ f 1 28 4 ∨ reserved ∨ nest ∨ shapes
        let large := 16 < (roles.map fun k => f 7 (16 * k) 5).foldl (· + ·) 0 ∨ (∃ k, k < 4 ∧ 32 < f 7 (16 * k + 5) 6) ∨ 128 < ts ∨
          (f 1 21 1 = 1 ∧ s.ldr.grade.mxp = false) ∨ (s.func c.func).cores = []
        let edgeless := f 10 0 3 = 0 ∧ ∀ k, 11 ≤ k → k < 32 → r.getD k 0 = 0
        (bad → EndsAlone .launch a s 1) ∧
        (¬ bad → edgeless → large → (f 1 23 1 = 0 ∨ i.ir = false) → EndsAlone .launch a s 2) ∧
        (¬ bad → edgeless → ¬ large → ∃ s' l, exec .launch s = .next s' ∧ CmdRuns a s s' [] ∧ LoaderOnly s s' ∧
          s'.ldr.launches.find? a.j = some l ∧ (∀ j, j ≠ a.j → s'.ldr.launches.find? j = s.ldr.launches.find? j) ∧
          l.ctx = ctxNamed a ∧ l.image = h ∧ l.prio = f 1 32 3 ∧ l.grant = f 1 28 4 ∧ l.acec = decide (f 1 22 1 = 1) ∧
          l.matrix = decide (f 1 21 1 = 1) ∧ l.snap = decide (f 1 20 1 = 1) ∧ l.fuse = decide (f 1 19 1 = 1) ∧ l.data = r.getD 2 0 ∧
          l.arg = r.getD 3 0 ∧ l.tsu = ts ∧ l.order = f 4 4 2 ∧ l.extents = exts ∧ l.total = exts.foldl (· * ·) 1 ∧
          l.roles = roles.map (fun k => (f 7 (16 * k) 5, 8 * f 7 (16 * k + 5) 6)) ∧
          (i.ir = false → l.entries = roles.map fun k => BitVec.ofNat 32 (f (8 + k / 2) (32 * (k % 2)) 32)) ∧
          l.edges = [] ∧ l.state = .waiting ∧ l.next = 0 ∧ l.retired = [] ∧ l.killed = none)))) ∧
  (∀ (s : State) (a : Acting) (c : Context), OnContext s a c → a.run.state = .running → exec .launch s = .next s) ∧
  ∀ (s : State) (a : Acting), OnCommand s a → a.cmd.ctx = 0 ∨ Owns s a →
    let j := a.cmd.w1.toNat
    (s.ldr.journal.find? j = none → EndsAlone .kill a s 5) ∧
    ∀ k, s.ldr.journal.find? j = some k → j ≠ a.j →
      (k.entry.getD 7 0 ≠ 3 → EndsAlone .kill a s 5) ∧
      (k.entry.getD 7 0 = 3 → k.func ≠ a.run.func → EndsAlone .kill a s 7) ∧
      (k.entry.getD 7 0 = 3 → k.func = a.run.func →
        (k.state = .accepted → ∃ s', exec .kill s = .next s' ∧ LoaderOnly s s' ∧
          s'.ldr.journal.find? a.j = some { a.run with state := .done 0, cur0 := 0, info := [] } ∧
          s'.ldr.journal.find? j = some { k with state := .done 3, cur0 := 0, info := [] }) ∧
        (∀ l, k.state ≠ .accepted → s.ldr.launches.find? j = some l → (∃ st, l.state = .ended st) → EndsAlone .kill a s 0) ∧
        (∀ l, k.state ≠ .accepted → s.ldr.launches.find? j = some l → l.state = .running ∨ l.state = .waiting →
          (l.killed ≠ none → RunsAlone .kill a s []) ∧
          (l.killed = none → s.teams.wf = true → (∀ c, s.context? l.ctx = some c → c.traps = []) → ∃ s' l', exec .kill s = .next s' ∧ s'.ldr.launches.find? j = some l' ∧
            l'.killed = some 3 ∧ s'.ldr.journal.find? a.j = some { a.run with state := .running, info := [] } ∧
            (∀ e ∈ s.teams.entries, e.2.launch = j → e.2.dead = false → e.2.status ≠ .saving →
              ∃ t, s'.team? e.1 = some t ∧ t.dead = true ∧ t.jobs.length = e.2.jobs.length ∧ ∀ b ∈ t.jobs, b.ending = true ∨
                (b.unit = 11 ∧ b.cancel = true) ∨ (b.unit ≠ 11 ∧ isMultiply b.opc = true ∧ b.begun = true ∧ b.cursor ≠ 0)) ∧
            (∀ n t, s.team? n = some t → t.launch ≠ j → s'.team? n = some t) ∧
            ((∀ t ∈ s.teams.vals, t.launch ≠ j) → l'.state = .ended 3 ∧
              s'.ldr.journal.find? j = some { k with state := .done 3 }))))

/-- R227, R231, R234, R235, R293, R321, R471, R472: an invalidation drops the cached translations of its range, or waits for pins; a reply
ends its request; a page moves with its bytes, poison and version chains, its old frame in quarantine; versioned pages open with one version
of time 0. Readings of the model's own: logs 70, 71, 72 and 73. -/
def Obligations.PagesAreInvalidatedMovedAndOpened : Prop :=
  (∀ (s : State) (a : Acting) (c : Context), OnContext s a c → a.run.info = [] →
    let lo := a.cmd.w1.toNat
    let n := a.cmd.w2.toNat
    let frames := rangeFrames s (ctxNamed a) lo n
    let shut := frames.filter fun f => !(tableFrames false s (ctxNamed a) lo n).contains f
    let covered := fun (e : TlbEntry) => e.ctx = ctxNamed a ∧ e.page * 4096 < lo + n ∧ lo < e.page * 4096 + 4096
    (2 ≤ a.cmd.w3.toNat → EndsAlone .inval a s 5) ∧
    (a.cmd.w3.toNat < 2 → framesPinned s (ctxNamed a) lo n frames = true ∨ (a.cmd.w3 = 0 ∧ ∃ f ∈ shut, frameUsed s f = true) →
      RunsAlone .inval a s [ctxNamed a, lo, n]) ∧
    (a.cmd.w3.toNat < 2 → framesPinned s (ctxNamed a) lo n frames = false → (a.cmd.w3 = 0 → ∀ f ∈ shut, frameUsed s f = false) →
      s.mem.quarantine.length + frames.length ≤ 16384 → s.mem.quarantine.length < 16384 →
      let freed := if a.cmd.w3 = 1 then frames else []
      ∃ s', exec .inval s = .next s' ∧ CmdDone a s s' 0 freed.length ∧ BytesKept s s' ∧ s'.mem.epoch = s.mem.epoch + 1 ∧
        s'.mem.quarantine = s.mem.quarantine ++ freed.map (fun f => { frame := f, stamp := s.mem.epoch + 1 }) ∧
        (∀ core e, e ∈ (s'.core core).tlb ↔ e ∈ (s.core core).tlb ∧ ¬ covered e) ∧ (∀ e, e ∈ s'.mem.tlb ↔ e ∈ s.mem.tlb ∧ ¬ covered e.2) ∧
        (∀ line, s'.eng.snap.chains.find? line = if a.cmd.w3 = 0 ∧ line / 8 ∈ shut then none else s.eng.snap.chains.find? line) ∧
        ∀ w x, s.warp? w = some x → ∃ x', s'.warp? w = some x' ∧ x'.ops = x.ops ∧ x'.lanes = x.lanes ∧
          ∀ k line, x.txn = some k → line ∈ k.lines.keys → line / 8 ∈ frames → ∃ k' code, x'.txn = some k' ∧ k'.doom = some code)) ∧
  (∀ (s : State) (a : Acting), OnFunction s a →
    let req := a.cmd.w1.toNat % 2 ^ 16
    let f := a.cmd.w1.toNat / 2 ^ 16
    (64 < f ∨ 2 < a.cmd.w2.toNat → EndsAlone .pageReply a s 5) ∧
    (f ≤ 64 → a.cmd.w2.toNat ≤ 2 →
      (a.run.func ≠ 64 → a.run.func ≠ f → EndsAlone .pageReply a s 7) ∧
      (a.run.func = 64 ∨ a.run.func = f →
        ((s.func f).reqs.find? req = none → EndsAlone .pageReply a s 5) ∧
        (∀ q, (s.func f).reqs.find? req = some q → ∃ s', exec .pageReply s = .next s' ∧ CmdDone a s s' 0 0 ∧ (s'.func f).reqs.find? req = none ∧
          s'.mem = s.mem ∧ s'.cores = s.cores ∧ (∀ j, j ≠ req → (s'.func f).reqs.find? j = (s.func f).reqs.find? j) ∧
          (waitersOn s f req = [] → s'.teams = s.teams) ∧
          ∀ p : Pick, OnTrans { s with subject := .trans (.op p.w p.op.id p.item.lane) } p → waitersOn s f req = [.op p.w p.op.id p.item.lane] →
            p.op.inTxn = false → ∃ x', s'.warp? p.w = some x' ∧ StepAside p.w s s' ∧
              (a.cmd.w2 = 1 → LaneEnds p (.tagged 0x10 0) (.tagged 0x10 0) x') ∧ (a.cmd.w2 ≠ 1 → LaneMoves p { p.item with stage := .walk } none x'))))) ∧
  (∀ (s : State) (a : Acting) (c : Context) (at_ old : Nat) (e : Leaf), OnContext s a c → a.run.info = [] →
    ownLeaf s (ctxNamed a) a.cmd.w1.toNat false = some (at_, e) → c.func = 64 → leafAddr e a.cmd.w1.toNat / 4096 = old →
    let va := a.cmd.w1.toNat
    let group := e.entry / 2 ^ 5 % 2 = 1
    let n := pageFrames e
    let new := a.cmd.w2.toNat / 4096
    let move : FrameMove := { old := old, new := new, n := n }
    let leaves := if group then (List.range 16).map fun i => (at_ / 128 * 128 + 8 * i, new + i) else [(at_, new)]
    let inNew := fun (f : Nat) => new ≤ f ∧ f < new + n
    (e.entry / 2 ^ 6 % 4 ≠ 0 ∨ va % (4096 * n) ≠ 0 ∨ a.cmd.w2.toNat % (4096 * n) ≠ 0 ∨ Config.reservedBase < a.cmd.w2.toNat + 4096 * n →
      EndsAlone .pageMove a s 5) ∧
    (e.entry / 2 ^ 6 % 4 = 0 → va % (4096 * n) = 0 → a.cmd.w2.toNat = 4096 * new → new % n = 0 → leafAddr e va = 4096 * old →
      4096 * new + 4096 * n ≤ Config.reservedBase → new < 2 ^ 40 →
      (old = new → EndsAlone .pageMove a s 5) ∧
      (old ≠ new → framesPinned s (ctxNamed a) va (4096 * n) ((List.range n).map fun i => old + i) = true ∨ move.busy s = true →
        RunsAlone .pageMove a s [ctxNamed a, va, 4096 * n]) ∧
      (old + n ≤ new ∨ new + n ≤ old → framesPinned s (ctxNamed a) va (4096 * n) ((List.range n).map fun i => old + i) = false →
        move.busy s = false → s.mem.quarantine.length + n ≤ 16384 → s.mem.quarantine.length < 16384 → s.eng.snap.chains.wf = true →
        (∀ line ∈ s.eng.snap.chains.keys, ¬ inNew (line / 8)) → ¬ inNew (at_ / 4096) → s.eng.snap.chains.has (at_ / 512) = false →
        at_ % 8 = 0 →
        ∃ s', exec .pageMove s = .next s' ∧ CmdDone a s s' 0 0 ∧ s'.ldr = { s.ldr with journal := s'.ldr.journal } ∧
          (∀ b, b < 4096 * n → s'.mem.byte (4096 * new + b) = s.mem.byte (4096 * old + b)) ∧
          (∀ x ∈ leaves, s'.mem.word x.1 = withFrame (s.mem.word x.1).toNat x.2) ∧
          (∀ b, ¬ inNew (b / 4096) → (∀ x ∈ leaves, b < x.1 ∨ x.1 + 8 ≤ b) → s'.mem.byte b = s.mem.byte b) ∧
          (∀ k, k < 128 * n → (new * 128 + k ∈ s'.mem.poison ↔ old * 128 + k ∈ s.mem.poison)) ∧
          (∀ k, k < 8 * n → s'.eng.snap.chains.find? (8 * new + k) = s.eng.snap.chains.find? (8 * old + k) ∧
            s'.eng.snap.chains.find? (8 * old + k) = none) ∧
          s'.mem.epoch = s.mem.epoch + 1 ∧
          s'.mem.quarantine = s.mem.quarantine ++ (List.range n).map (fun i => { frame := old + i, stamp := s.mem.epoch + 1 }) ∧
          ∀ core t, t ∈ (s'.core core).tlb → ¬ (t.ctx = ctxNamed a ∧ va ≤ t.page * 4096 ∧ t.page * 4096 < va + 4096 * n)))) ∧
  ∀ (s : State) (a : Acting) (c : Context), OnContext s a c →
    let va := a.cmd.w1.toNat
    let n := a.cmd.w2.toNat
    (va % 4096 ≠ 0 ∨ n % 4096 ≠ 0 ∨ fieldAt s.ldr.device 2 0 32 = 0 → EndsAlone .verOpen a s 5) ∧
    (va % 4096 = 0 → n % 4096 = 0 → fieldAt s.ldr.device 2 0 32 ≠ 0 →
      ((∃ k, k < n / 4096 ∧ openable s (ctxNamed a) (va + 4096 * k) = none) → EndsAlone .verOpen a s 5) ∧
      (∀ at_ e frame, n = 4096 → openable s (ctxNamed a) va = some (at_, e, frame) → e.entry / 2 ^ 5 % 2 = 0 → at_ % 8 = 0 → at_ / 4096 ≠ frame →
        s.eng.snap.chains.has (at_ / 512) = false →
        ∃ s', exec .verOpen s = .next s' ∧ CmdDone a s s' 0 1 ∧ s'.teams = s.teams ∧
          (∀ line, s'.eng.snap.chains.find? line = if line / 8 = frame then some { time := 0, older := [] } else s.eng.snap.chains.find? line) ∧
          s'.mem.word at_ = (s.mem.word at_ ||| 1) ∧ ∀ b, b < at_ ∨ at_ + 8 ≤ b → s'.mem.byte b = s.mem.byte b))

/-- R463, R465 to R467, R476: the debug right is taken, given up and revoked; a group is halted at an edge at least 64 clk on and resumes; an
item of a halted warp is read into memory or written from it, where its kind and length allow; an issue log is set. That a step whose
condition does not hold changes nothing is the model's choice (log 6). Readings of the model's own: logs 37, 53, 64 and 76. -/
def Obligations.DebuggersHaltReadAndWrite : Prop :=
  (∀ (s : State) (a : Acting) (c : Context), OnContext s a c →
    (∀ q, c.debugQueue = some q → q ≠ a.run.queue → EndsAlone .debugTake a s 7) ∧
    (c.debugQueue = none ∨ c.debugQueue = some a.run.queue → ∃ s', exec .debugTake s = .next s' ∧ CmdDone a s s' 0 0 ∧ LoaderOnly s s' ∧
      OtherContexts (ctxNamed a) s s' ∧ s'.context? (ctxNamed a) = some { c with debugQueue := some a.run.queue }) ∧
    (c.debugQueue = some a.run.queue → (∀ e ∈ s.ldr.halts.entries, e.2.ctx ≠ ctxNamed a) → ∃ s', exec .debugGive s = .next s' ∧ CmdDone a s s' 0 0 ∧
      LoaderOnly s s' ∧ OtherContexts (ctxNamed a) s s' ∧ s'.context? (ctxNamed a) = some { c with debugQueue := none })) ∧
  (∀ (s : State) (a : Acting), OnCommand s a → a.run.func = 64 →
    (s.context? (ctxNamed a) = none → EndsAlone .debugRevoke a s 7) ∧
    ∀ c, s.context? (ctxNamed a) = some c →
      (c.debugQueue = none → EndsAlone .debugRevoke a s 0) ∧
      (c.debugQueue ≠ none → (c.cfg.getD 4 0).getLsbD 1 = true → openLaunches s (ctxNamed a) = [] →
        ∃ s', exec .debugRevoke s = .next s' ∧ CmdDone a s s' 0 0 ∧ LoaderOnly s s' ∧ s'.context? (ctxNamed a) = some { c with debugQueue := none } ∧
          ∀ e, e ∈ s'.ldr.halts.entries ↔ e ∈ s.ldr.halts.entries ∧ e.2.ctx ≠ ctxNamed a) ∧
      (c.debugQueue ≠ none → (c.cfg.getD 4 0).getLsbD 1 = false → (∀ e ∈ s.ldr.halts.entries, e.2.ctx ≠ ctxNamed a) →
        ∃ s', exec .debugRevoke s = .next s' ∧ CmdDone a s s' 0 0 ∧ LoaderOnly s s' ∧ s'.context? (ctxNamed a) = some { c with debugQueue := none })) ∧
  (∀ (s : State) (a : Acting) (c : Context), OnContext s a c → c.debugQueue = some a.run.queue →
    let scope := a.cmd.w2.toNat
    let mine := fun (e : Nat × Team) => e ∈ s.teams.entries ∧ e.2.ctx = ctxNamed a ∧ e.2.dead = false ∧ (scope ≤ 2 → e.2.launch = a.cmd.w3.toNat) ∧
      (scope ≤ 1 → e.2.index = a.cmd.w4.toNat)
    (a.run.info = [] → 3 < scope ∨ 2 ^ 32 ≤ a.cmd.w4.toNat ∨ 16 ≤ a.cmd.w5.toNat → EndsAlone .debugHalt a s 5) ∧
    (a.run.info = [] → scope ≤ 2 → (∀ l, s.ldr.launches.find? a.cmd.w3.toNat = some l → l.ctx ≠ ctxNamed a) → EndsAlone .debugHalt a s 5) ∧
    (∀ l, a.run.info = [] → scope = 2 ∨ scope = 3 ∨ (scope ≤ 1 ∧ ∃ e, mine e ∧ ∃ x, e.2.warps[if scope = 0 then a.cmd.w5.toNat else 0]? = some x) →
      (scope ≤ 2 → s.ldr.launches.find? a.cmd.w3.toNat = some l ∧ l.ctx = ctxNamed a) → a.cmd.w4.toNat < 2 ^ 32 → a.cmd.w5.toNat < 16 →
      ∃ s' g, exec .debugHalt s = .next s' ∧ CmdRuns a s s' [s.nextId] ∧ s'.teams = s.teams ∧ s'.mem = s.mem ∧
        s'.ldr.halts.find? s.nextId = some g ∧ g.ctx = ctxNamed a ∧ g.scope = scope ∧ s.clk + 64 ≤ g.edge ∧ g.halted = false ∧ g.issuer = none ∧
        ∀ w, w ∈ g.warps ↔ ∃ e, mine e ∧ w.team = e.1 ∧ w.warp < e.2.warps.length ∧ (scope = 0 → w.warp = a.cmd.w5.toNat)) ∧
    (∀ id r, a.run.info = id :: r →
      (s.ldr.halts.find? id = none → EndsAlone .debugHalt a s 7) ∧
      (∀ g, s.ldr.halts.find? id = some g →
        (g.halted = true → g.edge < s.clk → ∃ s', exec .debugHalt s = .next s' ∧ CmdDone a s s' 0 id ∧ LoaderOnly s s' ∧ s'.ldr.halts = s.ldr.halts) ∧
        (g.halted = false ∨ s.clk ≤ g.edge → exec .debugHalt s = .next s)))) ∧
  (∀ (s : State) (a : Acting) (c : Context), OnContext s a c → c.debugQueue = some a.run.queue →
    ((∀ g, s.ldr.halts.find? a.cmd.w2.toNat = some g → g.ctx ≠ ctxNamed a) → EndsAlone .debugResume a s 5) ∧
    (∀ g, s.ldr.halts.find? a.cmd.w2.toNat = some g → g.ctx = ctxNamed a → g.halted = false → ∃ s', exec .debugResume s = .next s' ∧
      CmdDone a s s' 0 0 ∧ LoaderOnly s s' ∧ s'.ldr.halts.find? a.cmd.w2.toNat = none) ∧
    (∀ g w t x at_, s.ldr.halts.find? a.cmd.w2.toNat = some g → g.ctx = ctxNamed a → g.halted = true → g.warps = [w] → s.team? w.team = some t →
      t.status = .resident → s.warp? w = some x → x.halted = some at_ → x.held = [] → (s.cfgWord t.ctx 3).toNat < 2 ^ 12 →
      (∀ e ∈ s.ldr.halts.entries, e.1 ≠ a.cmd.w2.toNat → w ∉ e.2.warps) →
      ∃ s' x', exec .debugResume s = .next s' ∧ CmdDone a s s' 0 0 ∧ s'.mem = s.mem ∧ s'.ldr.halts.find? a.cmd.w2.toNat = none ∧
        s'.warp? w = some x' ∧ x'.halted = none ∧ x'.lanes = x.lanes ∧ x'.ports = x.ports ∧ x'.ops = x.ops ∧ s.clk + 1 ≤ x'.delayTo ∧
        x'.fills = x.fills.map (fun f =>
          if (f.unit < 2 ∨ f.unit = 3 ∨ f.unit = 4 ∨ f.unit = 5 ∨ f.unit = 7 ∨ (f.unit = 2 ∧ f.opc ≤ 8)) ∧ at_ ≤ f.due then
            { f with due := s.clk + (f.due - at_) } else f))) ∧
  (∀ (s : State) (a : Acting) (c : Context) (g : HaltGroup) (r : WRef) (t : Team) (x : Warp), OnContext s a c → c.debugQueue = some a.run.queue →
    OnItem s a g r t x →
    let kind := a.cmd.w3.toNat / 2 ^ 56
    let l := a.cmd.w3.toNat / 2 ^ 40 % 64
    let n := a.cmd.w3.toNat % 2 ^ 32
    let len := a.cmd.w5.toNat
    let at_ := a.cmd.w4.toNat
    let reads := fun (bs : List Byte) => NoVersions s → ∃ s', exec .debugRead s = .next s' ∧ CmdDone a s s' 0 0 ∧ s'.teams = s.teams ∧
      BytesAt s s' at_ bs
    let bytes := fun (k v : Nat) => (List.range k).map fun i => BitVec.ofNat 8 (v / 2 ^ (8 * i))
    let writes := fun (x' : Warp) => t.status ≠ .saving → exec .debugWrite s = .next (finishCmd (s.setWarp r x') a.j 0 0)
    (12 < kind ∨ (kind ≠ 7 ∧ len ≠ [4, 4, 2, 8, 16, 36, 64, 0, 8, 1024, 2, 512, 4096].getD kind 0) →
      EndsAlone .debugRead a s 5 ∧ EndsAlone .debugWrite a s 5) ∧
    (kind = 10 ∨ kind = 12 → EndsAlone .debugWrite a s 5) ∧
    ((kind = 0 → n < x.budget) → (kind = 1 ∨ kind = 2 ∨ kind = 0) → len = [4, 4, 2].getD kind 0 → t.status = .saving →
      RunsAlone .debugWrite a s []) ∧
    (kind = 0 → len = 4 → x.budget ≤ n → EndsAlone .debugRead a s 5 ∧ EndsAlone .debugWrite a s 5) ∧
    (kind = 0 → len = 4 → n < x.budget → reads (bytes 4 ((x.lane l).reg n).toNat) ∧
      (x.lanes.length = 64 → t.status ≠ .saving → ∃ s' x', exec .debugWrite s = .next s' ∧ CmdDone a s s' 0 0 ∧ s'.mem = s.mem ∧
        s'.warp? r = some x' ∧ ((x'.lane l).reg n).toNat = (s.mem.word at_).toNat % 2 ^ 32 ∧
        (∀ k j, k ≠ l ∨ j ≠ n → (x'.lane k).reg j = (x.lane k).reg j) ∧ x'.ports = x.ports ∧ x'.guards = x.guards)) ∧
    (kind = 1 → len = 4 → reads (bytes 4 (x.lane l).pc.toNat) ∧
      writes (x.modLane l fun y => { y with pc := BitVec.ofNat 32 ((s.mem.word at_).toNat % 2 ^ 32) })) ∧
    (kind = 2 → len = 2 → reads (bytes 2 (x.lane l).nfr.toNat) ∧
      writes (x.modLane l fun y => { y with nfr := BitVec.ofNat 16 ((s.mem.word at_).toNat % 2 ^ 16) })) ∧
    (kind = 3 → len = 8 → n < 15 → reads (bytes 8 (x.guards.getD n 0).toNat) ∧ writes { x with guards := x.guards.set n (s.mem.word at_) }) ∧
    (∀ u off, kind = 4 → len = 16 → itemPort n = some (u, off) → off = offY ∨ off = offY2 → populated s t u = true →
      reads (bytes 8 (x.elem u off l).val.toNat ++ [if (x.elem u off l).filled then 1 else 0, (x.elem u off l).tag] ++ List.replicate 6 0) ∧
      (t.status ≠ .saving → ∃ s' x', exec .debugWrite s = .next s' ∧ CmdDone a s s' 0 0 ∧ s'.mem = s.mem ∧ s'.warp? r = some x' ∧
        x'.elem u off l = .value (s.mem.word at_) ∧ x'.lanes = x.lanes ∧ x'.guards = x.guards ∧
        ∀ u' off' l', u' ≠ u ∨ off' ≠ off ∨ l' ≠ l → off' = offY ∨ off' = offY2 → x'.elem u' off' l' = x.elem u' off' l')) ∧
    (kind = 7 → n + len ≤ t.tsSize → reads ((List.range len).map fun i => t.tstore.getD (n + i) 0) ∧
      (t.status ≠ .saving → ∃ s' t', exec .debugWrite s = .next s' ∧ CmdDone a s s' 0 0 ∧ s'.mem = s.mem ∧ s'.team? r.team = some t' ∧
        t'.warps = t.warps ∧ ∀ i, t'.tstore.getD i 0 = if n ≤ i ∧ i < n + len then s.mem.byte (at_ + (i - n)) else t.tstore.getD i 0)) ∧
    (kind = 10 → len = 2 → reads (bytes 2 (x.lane l).age))) ∧
  ∀ (s : State) (a : Acting) (c : Context), OnContext s a c → c.debugQueue = some a.run.queue →
    let mode := a.cmd.w5.toNat
    let core := a.cmd.w2.toNat % 256
    let quad := a.cmd.w2.toNat / 256
    let size := a.cmd.w4.toNat
    (4 ≤ quad ∨ 2 < mode ∨ (mode ≠ 0 ∧ ∀ k, k ≤ 16 → size ≠ 2 ^ (8 + k)) → EndsAlone .debugLog a s 5) ∧
    (quad < 4 → mode ≤ 2 → (mode ≠ 0 → ∃ k, k ≤ 16 ∧ size = 2 ^ (8 + k)) → ((s.core core).quad quad).log.mode ≠ 1 →
      ∃ s', exec .debugLog s = .next s' ∧ CmdDone a s s' 0 0 ∧ s'.teams = s.teams ∧ s'.mem = s.mem ∧ s'.ldr = { s.ldr with journal := s'.ldr.journal } ∧
        (s'.core core).quad quad =
          { (s.core core).quad quad with
            log := { mode := mode, ring := a.cmd.w3.toNat, size := size, pos := 0, kind := 0, slot := 0, run := 0 } } ∧
        ∀ d q, d ≠ core ∨ q ≠ quad → (s'.core d).quad q = (s.core d).quad q)

/-! ## Teams, the supervisor, completion -/

/-- R29, R366, R369 to R371, R455, R457 to R459, R462, R362, R364: the walker's first candidate starts on a core that fits with its lanes'
start values, or resumes there with its latencies running on; a pre-emption freezes teams, whose save ends once they stand; a team that may
leaves, and the last one ends its launch; a team whose waits are all monitors goes where room is wanted. That a step whose condition does not
hold changes nothing is the model's choice (log 6). Readings of the model's own: logs 55, 57, 58, 62 and 87. -/
def Obligations.TeamsStartSaveAndRetire : Prop :=
  (∀ (s : State) (f : Nat), s.subject = .num f →
    (candidates s f = [] → exec .teamPlacement s = .next s) ∧
    (∀ (c : Candidate) (r : List Candidate) (l : Launch) (core : Nat) (i : Image), candidates s f = c :: r → s.ldr.launches.find? c.launch = some l → chooseCore s c.launch l = some core →
      s.ldr.images.find? l.image = some i → s.ldr.halts.entries = [] → l.acec = false → i.slot < 16 →
      (core ∈ (s.func (s.funcOf l.ctx)).cores ∧ fits s c.launch l core [] = true ∧
        ∀ k ∈ (s.func (s.funcOf l.ctx)).cores, fits s c.launch l k [] = true → injLevel s core ≤ injLevel s k) ∧
      (c.team = none → ∃ (s' : State) (id : Nat) (t : Team) (l' : Launch), exec .teamPlacement s = .next s' ∧ s'.team? id = some t ∧ (∀ j, j ≠ id → s'.team? j = s.team? j) ∧
        s'.ldr.launches.find? c.launch = some l' ∧ l'.next = l.next + 1 ∧ l'.state = .running ∧ l'.lastCore = some core ∧ l'.retired = l.retired ∧
        t.launch = c.launch ∧ t.index = l.next ∧ t.ctx = l.ctx ∧ t.core = core ∧ t.status = .resident ∧ t.tsSize = l.tsu * 4096 ∧
        t.tstore.entries = [] ∧ t.bars.entries = [] ∧ t.scale.entries = [] ∧ t.jobs = [] ∧ t.owner = l.matrix ∧ t.readyAt = s.clk + 1 ∧
        t.warps.map (fun x => (x.role, x.roleNum, x.budget)) = roleWarps l.roles ∧
        ∀ (w : Nat) (x : Warp), t.warps[w]? = some x → x.quad = w % 4 ∧ x.prio = l.prio ∧ x.w32 = i.w32 ∧ x.guards = List.replicate 15 0 ∧ x.ports.entries = [] ∧
          x.ops = [] ∧ x.fills = [] ∧ x.txn = none ∧ x.handlers = [] ∧ (∀ h, (x.half h).levels = []) ∧ x.lanes.length = 64 ∧
          ∀ n, n < 64 → (x.lane n).live = true ∧ (x.lane n).wait = none ∧ (x.lane n).nfr = 0 ∧ (x.lane n).age = 0 ∧ (x.lane n).rstack = [] ∧
            (x.lane n).pc = (BitVec.ofNat 32 (i.slot * 2 ^ 28) ||| l.entries.getD x.role 0) ∧
            (∀ k, k < 4 → (x.lane n).reg k = BitVec.ofNat 32 ((nestIndex l.order l.next l.extents).getD k 0)) ∧
            (x.lane n).reg 4 = BitVec.ofNat 32 x.role ∧ (x.lane n).reg 5 = BitVec.ofNat 32 x.roleNum ∧
            (x.lane n).reg 6 = BitVec.ofNat 32 (64 * w + n) ∧ ∀ k, 7 ≤ k → (x.lane n).reg k = 0) ∧
      (∀ (n : Nat) (t : Team), c.team = some n → s.team? n = some t → t.launch = c.launch → (∀ x ∈ t.warps, x.handlers = []) → (s.cfgWord t.ctx 3).toNat < 2 ^ 12 →
        ∃ (s' : State) (t' : Team), exec .teamPlacement s = .next s' ∧ s'.team? n = some t' ∧ (∀ j, j ≠ n → s'.team? j = s.team? j) ∧ t'.status = .resident ∧
          t'.core = core ∧ t'.readyAt = s.clk + 1 ∧ t'.tstore = t.tstore ∧ t'.bars = t.bars ∧ t'.scale = t.scale ∧ (s'.core core).l1.entries = [] ∧
          (∀ m, t.mx = some m → (s'.core core).mx = m) ∧ t'.warps.length = t.warps.length ∧
          ∀ (w : Nat) (x x' : Warp), t.warps[w]? = some x → t'.warps[w]? = some x' → x'.quad = x.quad ∧ x'.lanes = x.lanes ∧ x'.guards = x.guards ∧ x'.ports = x.ports ∧
            x'.halves = x.halves ∧ x'.ops = x.ops ∧ x'.fills = x.fills.map (fun g => { g with due := g.due + (s.clk + 1 - t.savedAt) })))) ∧
  (∀ (s : State) (core src : Nat) (l : List Nat), s.subject = .teams core l src → s.teams.wf = true →
    let named := fun n => n ∈ l ∧ ∃ t, s.team? n = some t ∧ t.core = core ∧ t.status = .resident ∧ t.dead = false
    ((∀ n, ¬ named n) → exec .preemptionRequest s = .next s) ∧
    (l.Nodup → (∃ n, named n) → (s.core core).save = [] → ∃ s', exec .preemptionRequest s = .next s' ∧
      (∀ n, n ∈ (s'.core core).save ↔ named n) ∧
      ∀ n t, s.team? n = some t → (¬ named n → s'.team? n = some t) ∧
        (named n → s'.team? n = some { t with status := .saving, savedAt := s.clk + 1 })) ∧
    ((∃ n, named n) → (s.core core).save ≠ [] → ∃ (s' : State) (ids : List Nat), exec .preemptionRequest s = .next s' ∧ s'.teams = s.teams ∧
      (s'.core core).save = (s.core core).save ∧ (s'.core core).saveQueue = (s.core core).saveQueue ++ [(ids, src)] ∧ ∀ n, n ∈ ids ↔ named n)) ∧
  (∀ (s : State) (core : Nat), s.subject = .num core →
    ((∃ n ∈ (s.core core).save, saveReady s n = false) ∨ (s.core core).save = [] → exec .saveEnd s = .next s) ∧
    (∀ (n : Nat) (t : Team), (s.core core).save = [n] → (s.core core).saveQueue = [] → (s.core core).saveKill = [] → saveReady s n = true → s.team? n = some t →
      t.core = core → (∀ x ∈ t.warps, x.handlers = [] ∧ ∀ o ∈ x.ops, ¬ (o.unit = 12 ∧ o.opc = 2)) →
      ∃ s' t', exec .saveEnd s = .next s' ∧ s'.team? n = some t' ∧ t'.status = .saved ∧ t'.tstore = t.tstore ∧ t'.jobs = t.jobs ∧ t'.bars = t.bars ∧
        (s'.core core).save = [] ∧ (∀ j, j ≠ n → s'.team? j = s.team? j) ∧ s'.mem = s.mem ∧ s'.ldr = s.ldr ∧
        (t.owner = true → t'.mx = some (s.core core).mx ∧ (s'.core core).mx = .start) ∧
        ∀ (w : Nat) (x x' : Warp), t.warps[w]? = some x → t'.warps[w]? = some x' → x'.lanes = x.lanes ∧ x'.ports = x.ports ∧ x'.guards = x.guards ∧
          x'.halves = x.halves ∧ x'.fills = x.fills ∧ x'.sq = x.sq ∧ (x.txn = none → x'.txn = none) ∧
          ∀ k, x.txn = some k → ∃ k', x'.txn = some k' ∧ k'.doom = some (k.doom.getD 3))) ∧
  (∀ (s : State) (n : Nat) (t : Team), s.subject = .num n → s.team? n = some t →
    (mayRetire s n t = false → exec .teamRetire s = .next s) ∧
    (∀ l : Launch, mayRetire s n t = true → s.ldr.launches.find? t.launch = some l → l.state = .running → ∃ (s' : State) (l' : Launch), exec .teamRetire s = .next s' ∧
      s'.team? n = none ∧ (∀ j, j ≠ n → s'.team? j = s.team? j) ∧
      (t.owner = true → t.status = .resident → (s'.core t.core).mx = .start) ∧
      s'.ldr.launches.find? t.launch = some l' ∧ l'.retired = (if t.dead then l.retired else l.retired ++ [t.index]) ∧
      ((∃ j u, j ≠ n ∧ s.team? j = some u ∧ u.launch = t.launch) → l'.state = .running) ∧
      ((∀ u ∈ (s.teams.erase n).vals, u.launch ≠ t.launch) → l.killed = none → t.dead = false → l.retired.length + 1 = l.total →
        l'.state = .ended 0 ∧ ∀ c, s.ldr.journal.find? t.launch = some c → s'.ldr.journal.find? t.launch = some { c with state := .done 0 }) ∧
      (∀ st, (∀ u ∈ (s.teams.erase n).vals, u.launch ≠ t.launch) → l.killed = some st →
        l'.state = .ended st ∧ ∀ c, s.ldr.journal.find? t.launch = some c → s'.ldr.journal.find? t.launch = some { c with state := .done st }))) ∧
  ∀ (s : State) (n : Nat) (t : Team), s.subject = .num n → s.team? n = some t →
    let limit := 2 ^ ((s.cfgWord t.ctx 4).toNat / 2 ^ 10 % 2 ^ 6)
    (t.status ≠ .resident ∨ t.monWait < limit ∨ roomWanted s t = false → exec .monitorSwapOut s = .next s) ∧
    (t.status = .resident → t.dead = false → limit ≤ t.monWait → (s.core t.core).save = [] → roomWanted s t = true →
      ∃ s', exec .monitorSwapOut s = .next s' ∧ (s'.core t.core).save = [n] ∧ (∀ j, j ≠ n → s'.team? j = s.team? j) ∧
        s'.team? n = some { t with status := .saving, savedAt := s.clk + 1, swapped := true, wake := false })

/-- R433, R437, R439, R460, R461, R463, R483, R484, R500: commands complete, then their records stand and their interrupts are raised; a
launch's cursors are written while it runs; an export that is late is undone; service times, the team watchdog and the wait scan end in
TIMEOUT and LONG-WAIT for the context, whose teams are stopped; a halt takes effect at its edge. That a step whose condition does not hold
changes nothing is the model's choice (log 6). Readings of the model's own: logs 60, 61 and 90. -/
def Obligations.SupervisorCompletesAndWatches : Prop :=
  (∀ (s : State) (j st : Nat) (c : CmdRun), s.subject = .num j → s.ldr.journal.find? j = some c →
    (c.state = .done st → ∃ (s' : State) (c' : CmdRun), exec .commandComplete s = .next s' ∧ LoaderOnly s s' ∧ s'.ldr.journal.find? j = some c' ∧
      c' = { c with state := .complete st, cur0 := c'.cur0, cur1 := c'.cur1, clkOut := s.clk } ∧ s'.ldr.queues = s.ldr.queues ∧
      (s.ldr.launches.find? j = none → c'.cur0 = c.cur0 ∧ c'.cur1 = c.cur1) ∧
      (∀ l, s.ldr.launches.find? j = some l → c'.cur1 = l.retired.length ∧ c'.cur0 ∉ l.retired ∧ ∀ n, n < c'.cur0 → n ∈ l.retired) ∧
      (∀ i, i ≠ j → s'.ldr.journal.find? i = s.ldr.journal.find? i) ∧
      ∀ (k : Nat) (l : Launch), s.ldr.launches.find? k = some l → ∃ l' : Launch, s'.ldr.launches.find? k = some l' ∧ ∀ e ∈ l'.edges, e.pred = j → e.done = true) ∧
    (∀ q : Queue, c.state = .complete st → s.ldr.queues.find? c.queue = some q → NoVersions s → c.entry.length = 64 →
      let a := natOfBytes (c.entry.drop 56)
      let record := [BitVec.ofNat 64 j, BitVec.ofNat 64 (natOfBytes (c.entry.take 6) + st % 256 * 2 ^ 48 + (c.entry.getD 7 0).toNat * 2 ^ 56),
        BitVec.ofNat 64 c.cur0, BitVec.ofNat 64 c.cur1]
      ∃ s', exec .commandComplete s = .next s' ∧ s'.teams = s.teams ∧ s'.ldr.journal.find? j = some { c with state := .recorded st } ∧
        (a = 0 → s'.mem = s.mem) ∧
        (a ≠ 0 → a % 32 = 0 → q.host = false → WordsAt s s' a record) ∧
        (a ≠ 0 → a % 32 = 0 → q.host = true → s'.mem.bytes = s.mem.bytes ∧
          ∀ b, s'.mem.byteAt 1 0 b = if a ≤ b ∧ b < a + 32 then (record.flatMap (wordBytes 8)).getD (b - a) 0 else s.mem.byteAt 1 0 b) ∧
        s'.ldr.queues.find? c.queue = some { q with irq := q.irq || (c.entry.getD 6 0).getLsbD 1 })) ∧
  (∀ (s : State) (j : Nat) (c : CmdRun) (l : Launch), s.subject = .num j → s.ldr.journal.find? j = some c → c.state = .running → c.entry.getD 7 0 = 3 →
    s.ldr.launches.find? j = some l → ∃ (s' : State) (c' : CmdRun), exec .launchProgressUpdate s = .next s' ∧ LoaderOnly s s' ∧ s'.ldr.journal.find? j = some c' ∧
      c' = { c with cur0 := c'.cur0, cur1 := l.retired.length } ∧ c'.cur0 ∉ l.retired ∧ (∀ n, n < c'.cur0 → n ∈ l.retired) ∧
      ∀ i, i ≠ j → s'.ldr.journal.find? i = s.ldr.journal.find? i) ∧
  (∀ (s : State) (j k ctx : Nat) (c : CmdRun) (x : Context), s.subject = .num j → s.ldr.journal.find? j = some c → c.state = .running →
    c.entry.getD 7 0 = 0x10 → c.info = [1] → c.entry.length = 64 → ctx = natOfBytes ((c.entry.drop 4).take 2) → s.context? ctx = some x →
    x.exporting = some k →
    let limit := k + 2 ^ ((s.cfgWord ctx 4).toNat / 2 ^ 16 % 2 ^ 6)
    (s.clk ≤ limit → exec .exportTimeout s = .next s) ∧
    (∀ p : Place, limit < s.clk → translate s ctx (s.cfgWord ctx 6).toNat true false = .ok p → p.tgt = 0 → NoVersions s →
      ∃ s', exec .exportTimeout s = .next s' ∧ s'.teams = s.teams ∧ WordsAt s s' p.pa [0] ∧
        s'.ldr.journal.find? j = some { c with state := .done 11, cur0 := 0, info := [] } ∧ s'.context? ctx = some { x with exporting := none })) ∧
  (∀ (s : State) (w : WRef) (t : Team) (x : Warp) (h : Handler) (r : List Handler), s.subject = .timeout (.handler w) → s.team? w.team = some t →
    s.warp? w = some x → x.handlers = h :: r →
    let limit := 2 ^ ((s.cfgWord t.ctx 4).toNat / (if h.rung = 0 then 2 ^ 27 else 2 ^ 22) % 2 ^ 5)
    (h.served < limit ∨ t.status ≠ .resident → exec .serviceTimeout s = .next s) ∧
    (limit ≤ h.served → t.status = .resident → ∃ (s1 : State) (q : TrapReq), s1 = s.setWarp w { x with handlers := { h with served := 0 } :: r } ∧
      exec .serviceTimeout s = .next (takeTrap s1 w q) ∧ q.code = 0x3F ∧ q.from_ = h.rung + 1 ∧ q.rungOut = h.rung ∧ q.post = true ∧
      ∀ l, l ∈ q.lanes ↔ l < 64 ∧ h.lanes.getLsbD l = true ∧ (x.lane l).live = true)) ∧
  (∀ (s : State) (ctx : Nat) (c : Context), s.subject = .timeout (.context ctx) → s.context? ctx = some c →
    let late := fun (v : CtxTrap) => v.trap.rung = 2 ∧ ∃ k, v.since = some k ∧ k + 2 ^ ((s.cfgWord ctx 4).toNat / 2 ^ 16 % 2 ^ 6) < s.clk
    ((∀ v ∈ c.traps, ¬ late v) → exec .serviceTimeout s = .next s) ∧
    (∀ (before after : List CtxTrap) (v : CtxTrap) (t : Team), c.traps = before ++ v :: after → (∀ u ∈ before, ¬ late u) → late v →
      s.team? v.warp.team = some t → t.ctx = ctx → (s.cfgWord ctx 3).toNat < 2 ^ 12 →
      ∃ (s' : State) (c' : Context) (v' : CtxTrap), exec .serviceTimeout s = .next s' ∧ s'.teams = s.teams ∧ s'.mem = s.mem ∧ s'.context? ctx = some c' ∧
        c'.traps = before ++ { v with since := none } :: after ++ [v'] ∧ v'.since = some s.clk ∧
        v'.warp = v.warp ∧ v'.trap.code = 0x3F ∧ v'.trap.rung = 3 ∧ v'.trap.timeoutRung = 2 ∧ c'.stopped = true ∧
        (∀ (m : Nat) (d : Context), s.context? m = some d → d.func = c.func → ∃ d', s'.context? m = some d' ∧ d'.stopped = true) ∧
        s'.ldr.events = s.ldr.events ++ [(ctx, 0x3F, v.warp.team)])) ∧
  (∀ (s : State), s.subject = .timeout .device → (∃ c ∈ s.ldr.contexts.entries, ∃ v ∈ c.2.traps, v.trap.rung = 4 ∧ v.since ≠ none) →
    ∃ s', exec .serviceTimeout s = .next s' ∧ s'.teams = s.teams ∧ s'.mem = s.mem ∧ s'.ldr.workStopped = true ∧
      ∀ (m : Nat) (d : Context), s.context? m = some d → s'.context? m = some { d with stopped := true }) ∧
  (∀ (s : State) (n : Nat) (t : Team) (x : Warp) (c : Context), s.subject = .num n → s.team? n = some t → t.warps[0]? = some x →
    s.context? t.ctx = some c → (s.cfgWord t.ctx 3).toNat < 2 ^ 12 →
    let limit := 2 ^ ((s.cfgWord t.ctx 4).toNat / 2 ^ 22 % 2 ^ 5)
    (t.status ≠ .resident ∨ t.barWait < limit → exec .teamWatchdog s = .next s) ∧
    (t.status = .resident → limit ≤ t.barWait → ∃ (s' : State) (c' : Context) (v : CtxTrap), exec .teamWatchdog s = .next s' ∧ s'.team? n = some { t with barWait := 0 } ∧
      (∀ j, j ≠ n → s'.team? j = s.team? j) ∧ s'.mem = s.mem ∧ s'.context? t.ctx = some c' ∧ c'.traps = c.traps ++ [v] ∧ v.warp.team = n ∧
      v.trap.code = 0x3F ∧ v.trap.rung = 2 ∧ c'.stopped = true ∧ v.since = some s.clk ∧ s'.ldr.events = s.ldr.events ++ [(t.ctx, 0x3F, n)] ∧
      ∃ l, n ∈ l ∧ .event .preemptionRequest (.teams t.core l 1) ∈ s'.agenda)) ∧
  (∀ (s : State) (ctx k : Nat) (c : Context), s.subject = .num ctx → s.context? ctx = some c → c.scanSince = some k →
    (s.clk % 2 ^ 20 ≠ 0 ∨ s.clk < k + 2 ^ 20 → exec .waitGraphScan s = .next s) ∧
    (∀ (n : Nat) (t : Team) (x : Warp) (r : List (Nat × Team)), s.clk % 2 ^ 20 = 0 → k + 2 ^ 20 ≤ s.clk → s.teams.entries = (n, t) :: r → t.ctx = ctx → t.dead = false → t.warps[0]? = some x →
      (s.cfgWord ctx 3).toNat < 2 ^ 12 → ∃ (s' : State) (c' : Context) (v : CtxTrap), exec .waitGraphScan s = .next s' ∧ s'.teams = s.teams ∧ s'.mem = s.mem ∧ s'.context? ctx = some c' ∧
        c'.traps = c.traps ++ [v] ∧ v.trap.code = 0x28 ∧ v.trap.rung = 2 ∧ v.values = (waitAddrs s ctx).take 16 ∧ c'.stopped = true ∧
        c'.scanSince = none)) ∧
  ∀ (s : State) (id : Nat) (g : HaltGroup), s.subject = .num id → s.ldr.halts.find? id = some g → (s.cfgWord g.ctx 3).toNat < 2 ^ 12 →
    (g.halted = true ∨ s.clk < g.edge → exec .haltEdge s = .next s) ∧
    (g.halted = false → g.edge ≤ s.clk → (∀ w ∈ g.warps, s.ctxOf w.team = g.ctx) → g.warps.Nodup → ∃ s', exec .haltEdge s = .next s' ∧
      s'.mem = s.mem ∧ s'.cores = s.cores ∧ s'.ldr.halts.find? id = some { g with halted := true } ∧
      (∀ j, j ≠ id → s'.ldr.halts.find? j = s.ldr.halts.find? j) ∧
      (∀ (c : Context) (q : Nat), s.context? g.ctx = some c → c.debugQueue = some q → g.issuer = none → s'.ldr.debugReports = s.ldr.debugReports ++ [(q, id, 0)]) ∧
      ∀ (w : WRef) (x : Warp), s.warp? w = some x →
        (w ∉ g.warps → s'.warp? w = some x) ∧
        (∀ t : Team, w ∈ g.warps → s.team? w.team = some t → 
          let k := x.halted.getD (if t.status = .resident then g.edge else min g.edge t.savedAt)
          s'.warp? w = some { x with halted := some k }))

/-! ## The machine as a whole -/

/-- R73 to R77, R470, R471: the bytes of every well-formed instruction, with every operand at every value that its encoding admits, decode to
that instruction and those operands; and bytes that decode to an instruction are that instruction's bytes, so each word has one meaning. -/
def Obligations.DecodingUndoesEncoding : Prop :=
  (∀ (i : Instr) (c : Cmd) (bs : List Byte), i.wf = true → (toBundle i = none → i.operandsOk c = true) → encode i c = some bs →
    decode bs = .ok i ∧ (toBundle i = none → cmdOfBytes bs = c)) ∧
  (∀ (bs : List Byte) (i : Instr), decode bs = .ok i →
    i.wf = true ∧ encode i (cmdOfBytes bs) = some bs ∧ (toBundle i = none → i.operandsOk (cmdOfBytes bs) = true))

/-- R73 to R76, R82, R86, R470, R471: words that the spec writes out, or that its tables give bit by bit, decode to their instructions. -/
def Obligations.EncodedWordsDecode : Prop :=
  decodeTableWord 256 (0x0010 + 0xF291400009 * 2 ^ 16) = some (.seqLoop { g := 15, ng := false, src := .port 9 }) ∧
  decodeTableWord 256 (0x0010 + 0xF1F0001014 * 2 ^ 16) = some (.cpCopy { g := 15, ng := false, src := .port 0x1014 }) ∧
  decodeTableWord 256 (0x0010 + 0x11F2100100 * 2 ^ 16) = some (.cpStreamOpen { g := 1, ng := false, src := .imm 0x100 }) ∧
  decodeTableWord 256 (0x0010 + 0xF1D0800014 * 2 ^ 16) = some (.mxMma { g := 15, ng := false, src := .port 0x14 }) ∧
  decodeTableWord 256 (0x0014 + 0xF1D0A00000 * 2 ^ 16 + 0x1FC0000 * 2 ^ 216) =
    some (.mxMma { g := 15, ng := false, src := .const 0x1FC0000 }) ∧
  decodeTableWord 256 (0x0010 + 0xF210501007 * 2 ^ 16) = some (.snapBeginRo { g := 15, ng := false, src := .imm 0x1007 }) ∧
  decodeTableWord 256 (0x0010 + 0xF230000604 * 2 ^ 16) = some (.tellCommit { g := 15, ng := false, src := .port 0x604 }) ∧
  decodeTableWord 256 (0x0010 + 0xF250400001 * 2 ^ 16) = some (.tqPop { g := 15, ng := false, src := .port 1 }) ∧
  decodeTableWord 256 (0x0010 + 0xF270400304 * 2 ^ 16) = some (.aceMax { g := 15, ng := false, src := .port 0x304 }) ∧
  decodeTableWord 256 (0x0010 + 0xF2B0100040 * 2 ^ 16) = some (.supCsrRd { g := 15, ng := false, src := .imm 0x40 }) ∧
  decodeTableWord 256 (0x0010 + 0xF0F0000204 * 2 ^ 16) = some (.fmaF32 0 { g := 15, ng := false, src := .port 0x204 }) ∧
  decodeTableWord 256 (0x0010 + 0xF090900008 * 2 ^ 16) = some (.intAdd64 0 { g := 15, ng := false, src := .imm 8 }) ∧
  decodeTableWord 256 (0x0010 + 0xF1B0800204 * 2 ^ 16) = some (.memLdU16 1 { g := 15, ng := false, src := .port 0x204 }) ∧
  decodeTableWord 256 (0x3020 + 0xF0F0000384 * 2 ^ 16 + 0xF110000404 * 2 ^ 56) =
    some (.bundleIssue
      { sw := false, d := 3, lv := 0, im := 0, slot5 := .none,
        moves := [{ g := 15, ng := false, dst := 0x03C0, src := .port 0x384 }, { g := 15, ng := false, dst := 0x0440, src := .port 0x404 }] }) ∧
  decodeTableWord 512 (0x04 * 2 ^ 56 + 7 * 2 ^ 32 + 0x99 + 5 * 2 ^ 64) = some .kill ∧
  decodeTableWord 512 (0x14 * 2 ^ 56 + 2 * 2 ^ 64) = some .queryPartition ∧
  decodeTableWord 256 0x0013 = none ∧ decodeTableWord 512 (0x16 * 2 ^ 56) = none

/-- R77, R91, R92: a bundle with a class-2 failure of its header is refused with a zero mask; else with a mask of exactly the slots that fail:
one in use whose source is not allowed, one unused and not zero, reserved bits of slot 5, and both slots of a collision; every other bundle
decodes. Readings of the model's own: log 38. -/
def Obligations.IllegalBundlesAreRefused : Prop :=
  ∀ bs : List Byte, bs.length = 32 →
    let v := natOfBytes bs
    (HeaderFails v → decode bs = .error (.illegalBundle 0)) ∧
    (¬ HeaderFails v → (∀ k, k < 6 → ¬ SlotFails v k) → ∃ i, decode bs = .ok i ∧ i.wf = true) ∧
    (¬ HeaderFails v → (∃ k, k < 6 ∧ SlotFails v k) →
      ∃ mask : BitVec 6, decode bs = .error (.illegalBundle mask) ∧ ∀ k, k < 6 → (mask.getLsbD k = true ↔ SlotFails v k))

/-- R23, R89, R114, R148, R149, R454, R470: a step takes what comes from outside first, then the next turn of the clk. In an issue turn a warp
that nothing holds is looked at, its chosen address fetched and decoded, and the instruction of the warp picked runs for it; a step of the
device runs on its subject, and a command's entry is decoded and runs; when all turns are done the next clk begins. The order of the turns is
the model's choice (log 5). -/
def Obligations.StepRunsTheDecodedInstruction : Prop :=
  (∀ (s : State) (core quad : Nat) (r : List Turn) (cs gs : List Cand) (s1 s2 t : State) (c : Cand) (i : Instr),
    s.inbox = [] → s.agenda = .issue core quad :: r → lookQuad { s with agenda := r } core quad = (cs, s1) →
    grantQuad s1 core quad cs = (gs, s2) → choosePick gs = some c → c.act = .run i → exec i { s2 with issuing := some c.w } = .next t →
    c ∈ cs ∧ step s = .next (closeIssue core quad gs (some c) (committedOf s2 c.w) t)) ∧
  (∀ (s : State) (core quad : Nat) (c : Cand) (i : Instr), c ∈ (lookQuad s core quad).1 → c.act = .run i →
    ∃ (s1 : State) (t : Team) (x : Warp) (ch : Choice) (bs : List Byte), s1.mem = s.mem ∧ s1.ldr = s.ldr ∧ s1.teams = s.teams ∧
      s.team? c.w.team = some t ∧ s.warp? c.w = some x ∧ mayIssue s c.w t x = true ∧ x.chooseAt s.clk = some ch ∧
      (fetch s1 core t.ctx ch.pc).1 = .ok bs ∧ decode bs = .ok i) ∧
  (∀ (s : State) (core ctx h : Nat) (pc : W32) (g : Image), handleAt s ctx (pc.toNat / 2 ^ 28) = some h → s.ldr.images.find? h = some g →
    let off := pc.toNat % 2 ^ 28
    (g.len < off + 32 → (fetch s core ctx pc).1 = .error 0x10) ∧
    (off + 32 ≤ g.len → g.exec = false → (fetch s core ctx pc).1 = .error 0x11) ∧
    (off + 32 ≤ g.len → g.exec = true → g.va = none →
      (∀ l, (s.core core).buffer.find? (bufferKey h off) = some l → l = { tgt := 0, dev := 0, pa := (g.base + off) / 512 * 512, olds := [] }) →
      (fetch s core ctx pc).1 = .ok (s.mem.read (g.base + off) 32)) ∧
    (∀ va k, off + 32 ≤ g.len → g.exec = true → g.va = some va → (∀ own, ∃ e, fetchPlace s ctx (va + off) own = .error e ∧ e.kind = k) →
      (fetch s core ctx pc).1 = .error (if k = 1 then 0x11 else 0x10))) ∧
  (∀ (s t : State) (i : Instr) (sub : Subject) (r : List Turn), s.inbox = [] → s.agenda = .event i sub :: r →
    exec i { s with agenda := r, subject := sub } = .next t → step s = .next { t with subject := .none }) ∧
  (∀ (s t : State) (j : Nat) (c : CmdRun) (i : Instr) (r : List Turn), s.inbox = [] → s.agenda = .command j :: r →
    s.ldr.journal.find? j = some c → decode c.entry = .ok i → c.entry.length = 64 →
    exec i { s with agenda := r, curCmd := some j } = .next t → step s = .next { t with curCmd := none }) ∧
  (∀ (s t : State) (i : Instr) (sub : Subject) (r : List Stimulus), s.inbox = .step i sub :: r →
    exec i { s with inbox := r, subject := sub } = .next t → step s = .next { t with subject := .none }) ∧
  (∀ s : State, s.inbox = [] → s.agenda = [] → step s = .next (planClk (nextClk s)))

/-- R24, R28, R149: a native warp issues the bundle of the oldest lane at age 256 or more, at the lowest address on a tie, else the lowest
address, for every candidate lane there. A quad picks among its warps those that waited 512 clk, else those with BOOST, else those of the
highest priority; of these the one that waited longest, on a tie the lowest slot. Readings of the model's own: logs 7 and 40. -/
def Obligations.LanesAndWarpsAreChosen : Prop :=
  (∀ x : Warp, x.w32 = false →
    let may := fun l => l < 64 ∧ (x.lane l).live = true ∧ (x.lane l).wait = none ∧ ∀ h r, x.handlers = h :: r → h.lanes.getLsbD l = true
    (x.choose = none ↔ ∀ l, ¬ may l) ∧
    ∀ c, x.choose = some c →
      (∀ l, l ∈ c.cand ↔ may l) ∧ (∀ l, l ∈ c.active ↔ may l ∧ (x.lane l).pc = c.pc) ∧ c.active ≠ [] ∧
      ((∀ l, may l → (x.lane l).age < 256) → ∀ l, may l → c.pc.toNat ≤ (x.lane l).pc.toNat) ∧
      ((∃ l, may l ∧ 256 ≤ (x.lane l).age) → ∃ l, may l ∧ (x.lane l).pc = c.pc ∧ 256 ≤ (x.lane l).age ∧
        ∀ m, may m → (x.lane m).age < (x.lane l).age ∨ ((x.lane m).age = (x.lane l).age ∧ c.pc.toNat ≤ (x.lane m).pc.toNat))) ∧
  (∀ cs : List Cand, (∀ c ∈ cs, c.prio ≤ 7 ∧ c.readyWait < 2 ^ 64) →
    (pickOf cs = none ↔ cs = []) ∧
    ∀ c, pickOf cs = some c → c ∈ pickPool cs ∧
      ∀ d ∈ pickPool cs, d.readyWait < c.readyWait ∨ (d.readyWait = c.readyWait ∧ c.slot ≤ d.slot))

/-- R96: in scheduled mode, a bundle that issues at clk t with delay count D makes the warp's next bundle issue no earlier than clk t + 1 + D;
in interlocked mode D is ignored, and the next bundle issues no earlier than clk t + 1. -/
def Obligations.DelayHoldsTheNextBundle : Prop :=
  (∀ (s s' : State) (w : WRef) (x x' : Warp) (b : Bundle), s.issuing = some w → s.warp? w = some x → exec (.bundleIssue b) s = .next s' →
    s'.warp? w = some x' → x'.committed = x.committed + 1 → x'.delayTo = s.clk + 1 + if x.sched then b.d.toNat else 0) ∧
  (∀ (s : State) (w : WRef) (x : Warp), s.subject = .warp w → s.warp? w = some x → s.clk < x.delayTo →
    exec .delayExpiry s = .next (s.setWarp w x)) ∧
  (∀ (s : State) (core quad : Nat) (c : Cand), c ∈ (lookQuad s core quad).1 → ∃ x, s.warp? c.w = some x ∧ x.delayTo ≤ s.clk)

/-- R411: a router's injection-throttle level is 0 at reset; the deflections that it makes are counted, and in every clk whose bits [7:0] are
zero it takes min(7, D / 32) of the count D as its target: it rises to it at once, or falls toward it by one. -/
def Obligations.ThrottleFollowsDeflections : Prop :=
  (∀ r, (State.reset.router r).level = 0) ∧
  (∀ (s : State) (r out : Nat) (f : Flit) (m : Message), s.subject = .num r → r < 72 →
    s.eng.fab.flits.filter (fun g => decide (g.router = r)) = [f] → s.message? f.msg = some m → m.xd = false → m.dst < 72 →
    ¬ (m.dst = r ∧ m.dstEp / 4 ∉ (s.router r).eject) →
    (meshWays r m.dst).find? (fun o => !(s.router r).taken.contains o) = none →
    ([0, 1, 2, 3].find? fun o => meshHas r o && !(s.router r).taken.contains o) = some out →
    ∃ s', exec .flitArrival s = .next s' ∧ (s'.router r).defl = (s.router r).defl + 1 ∧ (s'.router r).level = (s.router r).level) ∧
  (∀ (s : State) (r : Nat), s.clk % 256 = 0 → s.router r = Router.start ∨ Turn.event .throttleUpdate (.num r) ∈ (planClk s).agenda) ∧
  (∀ (s : State) (r : Nat), s.subject = .num r → ∃ s', exec .throttleUpdate s = .next s' ∧ FabricOnly s s' ∧ s'.cores = s.cores ∧
    (∀ k, k ≠ r → s'.router k = s.router k) ∧
    let x := s.router r
    let target := min 7 (x.defl / 32)
    s'.router r = if s.clk % 256 = 0 then { x with level := if x.level < target then target else max target (x.level - 1), defl := 0 } else x)

/-- R29, R411, R473, R481: what device reset leaves: the clk and the commit clock at 0, no team, no job, no message, four permits on every
core, engines at their start values, every Tell slot free, no held snapshot, no initialised deque, bound registers at the largest value. That
memory reads 0 is the model's choice (log 1), as are its other values that the spec does not state (log 2). Readings of the model's own: log
36. -/
def Obligations.ResetState : Prop :=
  let s := State.reset
  s.clk = 0 ∧ s.inbox = [] ∧ s.agenda = [] ∧ s.atRest = true ∧ s.mem.canonical = true ∧ s.mem.writes.entries = [] ∧ s.mem.poison = [] ∧
    (∀ n, s.team? n = none) ∧ (∀ tgt dev a, s.mem.byteAt tgt dev a = 0) ∧
    (∀ c, (s.core c).permits = 4 ∧ (s.core c).l1.entries = [] ∧ (s.core c).mx = MxState.start ∧ ∀ q, (s.core c).quad q = Quad.start) ∧
    s.eng.snap.clock = 0 ∧ s.eng.snap.published = 0 ∧ (∀ n, s.eng.snap.held.find? n = none) ∧ (∀ n, s.eng.snap.chains.find? n = none) ∧
    (∀ n, (s.slot n).mode = .free ∧ (s.slot n).step = 0 ∧ (s.slot n).entries.entries = []) ∧ (∀ d, s.eng.deques.find? d = none) ∧
    (∀ k, (s.aceReg k).val = 0x7FFFFFFFFFFFFFFF) ∧ (∀ r, (s.router r).level = 0) ∧ s.eng.fab.messages.entries = [] ∧ s.eng.fab.flits = [] ∧
    s.ldr.contexts.entries = [] ∧ s.ldr.images.entries = [] ∧ s.ldr.launches.entries = [] ∧ s.ldr.booted = false ∧ s.ldr.stClk = none

/-- From every state the machine makes a step: no instruction, no step of the device and no command stops it. That the machine never stops is
the model's own claim; a step whose condition does not hold changes nothing (log 6). -/
def Obligations.EveryStepGoesOn : Prop :=
  (∀ (i : Instr) (s : State), ∃ t, exec i s = .next t) ∧ ∀ s : State, ∃ t, Goes s t

/-- Every step keeps device, host and peer memory in canonical form, and ends with no warp issuing, no subject and no acting command. The form
is the model's own (log 1). -/
def Obligations.StepsKeepMemoryCanonical : Prop :=
  Kept fun s => s.mem.canonical = true ∧ s.atRest = true

/-- R431 to R439, R444, R445: a trap enters the lowest rung at or above its entry rung, above the handler that raises it, that has a vector.
At the warp or team rung it takes a permit where no handler runs, or backs off without one; its lanes go to the vector with age 0, guards and
the ports of int0, int1, cmp0, mem0, seq and sup are banked and cleared, and the first bundle issues 8 clk later at the earliest. Above, its
scope is stopped and saved, and system software is told. tret ends the handler: lanes go on at their trap PCs, past them, or with replaced
elements; the bank comes back, and the permit is free with the last handler. Readings of the model's own: logs 82 and 88. -/
def Obligations.TrapsEnterAndHandlersReturn : Prop :=
  (∀ (s : State) (w : WRef) (q : TrapReq) (t : Team) (x : Warp) (r : Nat), OnTrap s w q t x → EntersAt s t x q r → r ≤ 1 →
    x.handlers ≠ [] ∨ 0 < (s.core t.core).permits →
    ∃ (x' : Warp) (h : Handler) (p : List (BitVec 48)), WarpAndCore w t s (takeTrap s w q) ∧ (takeTrap s w q).warp? w = some x' ∧
      (takeTrap s w q).core t.core =
        { s.core t.core with permits := (s.core t.core).permits - (if x.handlers = [] then 1 else 0), pmcs := p } ∧
      x' = { x with lanes := x'.lanes, guards := List.replicate 15 0, ports := x'.ports, poison := x'.poison, handlers := h :: x.handlers,
                    entryTo := s.clk + 8, backoff := 64 } ∧
      (∀ e, e ∈ x'.poison ↔ e ∈ x.poison ∧ ∀ u ∈ handlerUnits, unitOf e.1 ≠ some u) ∧
      HandlerOf s q x r h ∧
      (∀ l, x'.lane l = if l ∈ q.lanes then { x.lane l with pc := (q.pc &&& 0xF0000000) ||| tvec s t.ctx q.pc r, age := 0 } else x.lane l) ∧
      ∀ u, x'.unit u = if u ∈ handlerUnits then UnitPorts.start else x.unit u) ∧
  (∀ (s : State) (w : WRef) (q : TrapReq) (t : Team) (x : Warp) (r : Nat), OnTrap s w q t x → EntersAt s t x q r → r ≤ 1 →
    x.handlers = [] → (s.core t.core).permits = 0 →
    let b := if x.backoff = 0 then 64 else x.backoff
    WarpAndCore w t s (takeTrap s w q) ∧ (takeTrap s w q).cores = s.cores ∧
      (takeTrap s w q).warp? w = some { x with backoffTo := s.clk + b, backoff := min 4096 (2 * b) }) ∧
  (∀ (s : State) (w : WRef) (q : TrapReq) (t : Team) (x : Warp) (r : Nat), OnTrap s w q t x → EntersAt s t x q r → 2 ≤ r →
    let s' := takeTrap s w q
    s'.mem = s.mem ∧ s'.eng = s.eng ∧ s'.clk = s.clk ∧ (∀ j, j ≠ w.team → s'.team? j = s.team? j) ∧
      s'.warp? w = some { x with owesPermit := x.owesPermit || decide (x.handlers ≠ []) } ∧
      (s'.core t.core).permits = (s.core t.core).permits + (if x.handlers ≠ [] ∧ x.owesPermit = false then 1 else 0) ∧
      s'.ldr.events = s.ldr.events ++ [(t.ctx, q.code.toNat, w.team)] ∧
      (∀ c y, s.context? c = some y → ∃ y', s'.context? c = some y' ∧ (stopsContext s r t.ctx c → y'.stopped = true) ∧
        (¬ stopsContext s r t.ctx c → y'.stopped = y.stopped) ∧ (c ≠ t.ctx → y'.traps = y.traps) ∧
        (c = t.ctx → ∃ d, y'.traps = y.traps ++ [d] ∧ d.warp = w ∧ RecordOf s q r d.trap ∧
          (∀ l ∈ q.lanes, d.pc.find? l = some (if q.post then (x.lane l).pc else q.pc)) ∧ d.since = some s.clk)) ∧
      ∀ n u, (n, u) ∈ s.teams.entries → stopsContext s r t.ctx u.ctx → u.status = .resident →
        ∃ ts, n ∈ ts ∧ Turn.event .preemptionRequest (.teams u.core ts 1) ∈ s'.agenda) ∧
  (∀ (s : State) (p : Pick) (t : Team) (h : Handler) (rest : List Handler) (i : Item) (more : List Item), OnLane s p → p.op.unit = 17 →
    p.op.opc = 2 → p.op.clk < s.clk → p.op.items = i :: more → s.team? p.w.team = some t → (s.cfgWord t.ctx 3).toNat < 2 ^ 12 →
    p.warp.handlers = h :: rest → p.warp.owesPermit = false →
    (∀ u ∈ handlerUnits, ∀ e ∈ (p.warp.unit u).y.entries ++ (p.warp.unit u).y2.entries,
      (e.2.filled = true ∧ e.2.tag = 0) ∨ (u = 17 ∧ (p.warp.unit 17).last.find? e.1 = some p.op.id)) →
    h.ports.wf = true → (∀ u, u ∉ handlerUnits → h.ports.find? u = none) →
    let a := i.a.toNat % 4
    let old := fun u => if u ∈ handlerUnits then h.ports.getD u UnitPorts.start else p.warp.unit u
    ∃ s' x', exec .homeOperationPerform s = .next s' ∧ WarpAndCore p.w t s s' ∧ s'.warp? p.w = some x' ∧
      s'.core t.core = { s.core t.core with permits := (s.core t.core).permits + if rest = [] then 1 else 0 } ∧
      x' = { p.warp with ops := p.warp.ops.filter (fun o => decide (o.id ≠ p.op.id)), lanes := x'.lanes, guards := h.guards, ports := x'.ports,
                         poison := x'.poison, streams := x'.streams, handlers := rest } ∧
      (∀ e, e ∈ x'.poison ↔ e ∈ h.poison ∨ (e ∈ p.warp.poison ∧ ∀ u ∈ handlerUnits, unitOf e.1 ≠ some u)) ∧
      (∀ l, l < p.warp.lanes.length → x'.lane l =
        if h.lanes.getLsbD l = true then
          let at_ := h.tpc.getD l (p.warp.lane l).pc
          { p.warp.lane l with pc := if a = 1 then nextPc at_ else at_ }
        else p.warp.lane l) ∧
      (a ≠ 2 → x'.streams = p.warp.streams ∧ ∀ u, x'.unit u = old u) ∧
      (a = 2 → ∀ k st st', p.warp.streams.find? k = some st → x'.streams.find? k = some st' → ∀ e,
        ((∃ r ∈ h.reads, r.off = 6 + k ∧ r.idx = e) → ∃ r ∈ h.reads, r.off = 6 + k ∧ r.idx = e ∧
          st'.given.find? e = some (p.warp.port 17 offB r.lane)) ∧
        ((∀ r ∈ h.reads, r.off = 6 + k → r.idx ≠ e) → st'.given.find? e = st.given.find? e)) ∧
      (a = 2 → (∀ e ∈ h.reads, e.off = offY ∨ e.off = offY2 ∨ 6 ≤ e.off) → ∀ u l,
        (∀ off, off < 4 → x'.port u off l = (old u).operand off l) ∧
        ∀ off, off = offY ∨ off = offY2 → x'.elem u off l =
          if (∃ r ∈ h.reads, r.unit = u ∧ r.off = off ∧ r.lane = l) ∧ ((old u).elem off l).tag ≠ 0 then .value (p.warp.port 17 offB l)
          else (old u).elem off l))
end

