-- ==== Sys2Proof/Laws/Map.lean ====
section
/-! SUPPORT. Laws of sparse data by number: reads after writes, and the canonical form. None but those of the canonical form needs
a premise about the map. -/

namespace Sys2Proof.Machine

variable {β : Type}

theorem lookupKey_putKey_same (k : Nat) (v : β) (l : List (Nat × β)) : lookupKey k (putKey k v l) = some v := by
  induction l with
  | nil => simp [putKey, lookupKey]
  | cons e r ih =>
    obtain ⟨j, w⟩ := e
    by_cases h : k < j
    · simp [putKey, lookupKey, h]
    · by_cases e : j = k
      · simp [putKey, lookupKey, e]
      · simp [putKey, lookupKey, h, e, ih]

theorem lookupKey_putKey_other {j k : Nat} (v : β) (l : List (Nat × β)) (h : j ≠ k) :
    lookupKey j (putKey k v l) = lookupKey j l := by
  induction l with
  | nil => simp [putKey, lookupKey, Ne.symm h]
  | cons e r ih =>
    obtain ⟨i, w⟩ := e
    by_cases a : k < i
    · simp [putKey, lookupKey, a, Ne.symm h]
    · by_cases b : i = k
      · subst b; simp [putKey, lookupKey, Ne.symm h]
      · rw [putKey, if_neg a, if_neg b, lookupKey, lookupKey, ih]

theorem lookupKey_dropKey_same (k : Nat) (l : List (Nat × β)) : lookupKey k (dropKey k l) = none := by
  induction l with
  | nil => simp [dropKey, lookupKey]
  | cons e r ih =>
    obtain ⟨j, w⟩ := e
    by_cases h : j = k <;> simp [dropKey, lookupKey, h, ih]

theorem lookupKey_dropKey_other {j k : Nat} (l : List (Nat × β)) (h : j ≠ k) :
    lookupKey j (dropKey k l) = lookupKey j l := by
  induction l with
  | nil => simp [dropKey]
  | cons e r ih =>
    obtain ⟨i, w⟩ := e
    by_cases a : i = k
    · subst a; simp [dropKey, lookupKey, Ne.symm h, ih]
    · rw [dropKey, if_neg a, lookupKey, lookupKey, ih]

namespace FMap

/-- Two maps with the same entries are the same. -/
theorem ext_entries {m n : FMap β} (h : m.entries = n.entries) : m = n := by cases m; cases n; simp_all

@[simp] theorem find?_empty (k : Nat) : (FMap.empty : FMap β).find? k = none := rfl

@[simp] theorem find?_insert_same (m : FMap β) (k : Nat) (v : β) : (m.insert k v).find? k = some v :=
  lookupKey_putKey_same k v m.entries

theorem find?_insert_other (m : FMap β) {j k : Nat} (v : β) (h : j ≠ k) : (m.insert k v).find? j = m.find? j :=
  lookupKey_putKey_other v m.entries h

@[simp] theorem find?_erase_same (m : FMap β) (k : Nat) : (m.erase k).find? k = none :=
  lookupKey_dropKey_same k m.entries

theorem find?_erase_other (m : FMap β) {j k : Nat} (h : j ≠ k) : (m.erase k).find? j = m.find? j :=
  lookupKey_dropKey_other m.entries h

@[simp] theorem getD_empty (k : Nat) (d : β) : (FMap.empty : FMap β).getD k d = d := rfl

@[simp] theorem getD_insert_same (m : FMap β) (k : Nat) (v d : β) : (m.insert k v).getD k d = v := by simp [getD]

theorem getD_insert_other (m : FMap β) {j k : Nat} (v d : β) (h : j ≠ k) : (m.insert k v).getD j d = m.getD j d := by
  simp [getD, find?_insert_other m v h]

@[simp] theorem getD_setD_same [DecidableEq β] (m : FMap β) (k : Nat) (d v : β) : (m.setD k d v).getD k d = v := by
  unfold setD; split <;> simp_all [getD]

theorem getD_setD_other [DecidableEq β] (m : FMap β) {j k : Nat} (d v : β) (h : j ≠ k) :
    (m.setD k d v).getD j d = m.getD j d := by
  unfold setD; split <;> simp [getD, find?_insert_other, find?_erase_other, h]

theorem getD_modifyD_same (m : FMap β) (k : Nat) (d : β) (f : β → β) : (m.modifyD k d f).getD k d = f (m.getD k d) := by
  simp [modifyD]

theorem find?_modify (m : FMap β) (j k : Nat) (f : β → β) :
    (m.modify k f).find? j = if j = k then (m.find? k).map f else m.find? j := by
  unfold modify
  by_cases h : j = k
  · subst h; split <;> simp_all
  · split <;> simp [h, find?_insert_other]

end FMap

/-! ## The canonical form -/

/-- Do all keys of a list of pairs lie above `k`? -/
def keysAbove (k : Nat) (l : List (Nat × β)) : Prop := ∀ e ∈ l, k < e.1

theorem keysRise_cons (k : Nat) (v : β) (l : List (Nat × β)) :
    keysRise ((k, v) :: l) = true ↔ keysAbove k l ∧ keysRise l = true := by
  induction l generalizing k v with
  | nil => simp [keysRise, keysAbove]
  | cons e r ih =>
    obtain ⟨j, w⟩ := e
    simp only [keysRise, Bool.and_eq_true, decide_eq_true_eq, ih j w, keysAbove, List.mem_cons, forall_eq_or_imp]
    constructor
    · rintro ⟨h, a, b⟩
      exact ⟨⟨h, fun e he => Nat.lt_trans h (a e he)⟩, a, b⟩
    · rintro ⟨⟨h, -⟩, a, b⟩
      exact ⟨h, a, b⟩

theorem mem_putKey {k : Nat} {v : β} {l : List (Nat × β)} {e : Nat × β} (h : e ∈ putKey k v l) : e = (k, v) ∨ e ∈ l := by
  induction l with
  | nil => simpa [putKey] using h
  | cons x r ih =>
    obtain ⟨j, w⟩ := x
    by_cases a : k < j
    · simpa [putKey, a] using h
    · by_cases b : j = k
      · rw [putKey, if_neg a, if_pos b, List.mem_cons] at h
        rcases h with h | h
        · exact .inl h
        · exact .inr (by simp [h])
      · simp only [putKey, a, b, if_false, List.mem_cons] at h
        rcases h with h | h
        · exact .inr (by simp [h])
        · rcases ih h with h | h
          · exact .inl h
          · exact .inr (by simp [h])

theorem mem_dropKey {k : Nat} {l : List (Nat × β)} {e : Nat × β} (h : e ∈ dropKey k l) : e ∈ l := by
  induction l with
  | nil => simp [dropKey] at h
  | cons x r ih =>
    obtain ⟨j, w⟩ := x
    by_cases b : j = k
    · simp only [dropKey, b, if_true] at h
      exact List.mem_cons_of_mem _ (ih h)
    · simp only [dropKey, b, if_false, List.mem_cons] at h
      rcases h with h | h
      · simp [h]
      · exact List.mem_cons_of_mem _ (ih h)

theorem keysRise_putKey (k : Nat) (v : β) (l : List (Nat × β)) (h : keysRise l = true) : keysRise (putKey k v l) = true := by
  induction l with
  | nil => simp [putKey, keysRise]
  | cons x r ih =>
    obtain ⟨j, w⟩ := x
    obtain ⟨ha, hr⟩ := (keysRise_cons j w r).1 h
    by_cases a : k < j
    · simp only [putKey, a, if_true]
      refine (keysRise_cons _ _ _).2 ⟨?_, h⟩
      intro e he
      rcases List.mem_cons.1 he with rfl | he
      · exact a
      · exact Nat.lt_trans a (ha e he)
    · by_cases b : j = k
      · subst b
        simp only [putKey, a, if_true, if_false]
        exact (keysRise_cons _ _ _).2 ⟨ha, hr⟩
      · simp only [putKey, a, b, if_false]
        refine (keysRise_cons _ _ _).2 ⟨?_, ih hr⟩
        intro e he
        rcases mem_putKey he with rfl | he
        · show j < k
          omega
        · exact ha e he

theorem keysRise_dropKey (k : Nat) (l : List (Nat × β)) (h : keysRise l = true) : keysRise (dropKey k l) = true := by
  induction l with
  | nil => simp [dropKey, keysRise]
  | cons x r ih =>
    obtain ⟨j, w⟩ := x
    obtain ⟨ha, hr⟩ := (keysRise_cons j w r).1 h
    by_cases b : j = k
    · simp only [dropKey, b, if_true]; exact ih hr
    · simp only [dropKey, b, if_false]
      exact (keysRise_cons _ _ _).2 ⟨fun e he => ha e (mem_dropKey he), ih hr⟩

namespace FMap

theorem wf_empty : (FMap.empty : FMap β).wf = true := rfl

theorem wf_insert (m : FMap β) (k : Nat) (v : β) (h : m.wf = true) : (m.insert k v).wf = true :=
  keysRise_putKey k v m.entries h

theorem wf_erase (m : FMap β) (k : Nat) (h : m.wf = true) : (m.erase k).wf = true := keysRise_dropKey k m.entries h

/-- A write of a value keeps the form in which no entry holds the value of unlisted keys. -/
theorem wfD_setD [DecidableEq β] (m : FMap β) (k : Nat) (d v : β) (h : m.wfD d = true) : (m.setD k d v).wfD d = true := by
  simp only [wfD, Bool.and_eq_true, List.all_eq_true, decide_eq_true_eq] at h ⊢
  unfold setD
  split
  · exact ⟨wf_erase m k h.1, fun e he => h.2 e (mem_dropKey he)⟩
  · next hv =>
    refine ⟨wf_insert m k v h.1, fun e he => ?_⟩
    rcases mem_putKey he with rfl | he
    · exact hv
    · exact h.2 e he

end FMap
end Sys2Proof.Machine
end

