-- ==== Sys2Proof/Laws/State.lean ====
section
/-! SUPPORT. Each field of the state after each change of a part of it, and parts read after parts changed. -/

namespace Sys2Proof.Machine
@[simp] theorem State.setCore_clk (s : State) (c : Nat) (k : Core) : (s.setCore c k).clk = s.clk := rfl
@[simp] theorem State.setCore_inbox (s : State) (c : Nat) (k : Core) : (s.setCore c k).inbox = s.inbox := rfl
@[simp] theorem State.setCore_agenda (s : State) (c : Nat) (k : Core) : (s.setCore c k).agenda = s.agenda := rfl
@[simp] theorem State.setCore_issuing (s : State) (c : Nat) (k : Core) : (s.setCore c k).issuing = s.issuing := rfl
@[simp] theorem State.setCore_subject (s : State) (c : Nat) (k : Core) : (s.setCore c k).subject = s.subject := rfl
@[simp] theorem State.setCore_curCmd (s : State) (c : Nat) (k : Core) : (s.setCore c k).curCmd = s.curCmd := rfl
@[simp] theorem State.setCore_freeCtr (s : State) (c : Nat) (k : Core) : (s.setCore c k).freeCtr = s.freeCtr := rfl
@[simp] theorem State.setCore_fairAt (s : State) (c : Nat) (k : Core) : (s.setCore c k).fairAt = s.fairAt := rfl
@[simp] theorem State.setCore_nextId (s : State) (c : Nat) (k : Core) : (s.setCore c k).nextId = s.nextId := rfl
@[simp] theorem State.setCore_teams (s : State) (c : Nat) (k : Core) : (s.setCore c k).teams = s.teams := rfl
@[simp] theorem State.setCore_mem (s : State) (c : Nat) (k : Core) : (s.setCore c k).mem = s.mem := rfl
@[simp] theorem State.setCore_ldr (s : State) (c : Nat) (k : Core) : (s.setCore c k).ldr = s.ldr := rfl
@[simp] theorem State.setCore_eng (s : State) (c : Nat) (k : Core) : (s.setCore c k).eng = s.eng := rfl
@[simp] theorem State.modCore_clk (s : State) (c : Nat) (f : Core → Core) : (s.modCore c f).clk = s.clk := rfl
@[simp] theorem State.modCore_inbox (s : State) (c : Nat) (f : Core → Core) : (s.modCore c f).inbox = s.inbox := rfl
@[simp] theorem State.modCore_agenda (s : State) (c : Nat) (f : Core → Core) : (s.modCore c f).agenda = s.agenda := rfl
@[simp] theorem State.modCore_issuing (s : State) (c : Nat) (f : Core → Core) : (s.modCore c f).issuing = s.issuing := rfl
@[simp] theorem State.modCore_subject (s : State) (c : Nat) (f : Core → Core) : (s.modCore c f).subject = s.subject := rfl
@[simp] theorem State.modCore_curCmd (s : State) (c : Nat) (f : Core → Core) : (s.modCore c f).curCmd = s.curCmd := rfl
@[simp] theorem State.modCore_freeCtr (s : State) (c : Nat) (f : Core → Core) : (s.modCore c f).freeCtr = s.freeCtr := rfl
@[simp] theorem State.modCore_fairAt (s : State) (c : Nat) (f : Core → Core) : (s.modCore c f).fairAt = s.fairAt := rfl
@[simp] theorem State.modCore_nextId (s : State) (c : Nat) (f : Core → Core) : (s.modCore c f).nextId = s.nextId := rfl
@[simp] theorem State.modCore_teams (s : State) (c : Nat) (f : Core → Core) : (s.modCore c f).teams = s.teams := rfl
@[simp] theorem State.modCore_mem (s : State) (c : Nat) (f : Core → Core) : (s.modCore c f).mem = s.mem := rfl
@[simp] theorem State.modCore_ldr (s : State) (c : Nat) (f : Core → Core) : (s.modCore c f).ldr = s.ldr := rfl
@[simp] theorem State.modCore_eng (s : State) (c : Nat) (f : Core → Core) : (s.modCore c f).eng = s.eng := rfl
@[simp] theorem State.modQuad_clk (s : State) (c q : Nat) (f : Quad → Quad) : (s.modQuad c q f).clk = s.clk := rfl
@[simp] theorem State.modQuad_inbox (s : State) (c q : Nat) (f : Quad → Quad) : (s.modQuad c q f).inbox = s.inbox := rfl
@[simp] theorem State.modQuad_agenda (s : State) (c q : Nat) (f : Quad → Quad) : (s.modQuad c q f).agenda = s.agenda := rfl
@[simp] theorem State.modQuad_issuing (s : State) (c q : Nat) (f : Quad → Quad) : (s.modQuad c q f).issuing = s.issuing := rfl
@[simp] theorem State.modQuad_subject (s : State) (c q : Nat) (f : Quad → Quad) : (s.modQuad c q f).subject = s.subject := rfl
@[simp] theorem State.modQuad_curCmd (s : State) (c q : Nat) (f : Quad → Quad) : (s.modQuad c q f).curCmd = s.curCmd := rfl
@[simp] theorem State.modQuad_freeCtr (s : State) (c q : Nat) (f : Quad → Quad) : (s.modQuad c q f).freeCtr = s.freeCtr := rfl
@[simp] theorem State.modQuad_fairAt (s : State) (c q : Nat) (f : Quad → Quad) : (s.modQuad c q f).fairAt = s.fairAt := rfl
@[simp] theorem State.modQuad_nextId (s : State) (c q : Nat) (f : Quad → Quad) : (s.modQuad c q f).nextId = s.nextId := rfl
@[simp] theorem State.modQuad_teams (s : State) (c q : Nat) (f : Quad → Quad) : (s.modQuad c q f).teams = s.teams := rfl
@[simp] theorem State.modQuad_mem (s : State) (c q : Nat) (f : Quad → Quad) : (s.modQuad c q f).mem = s.mem := rfl
@[simp] theorem State.modQuad_ldr (s : State) (c q : Nat) (f : Quad → Quad) : (s.modQuad c q f).ldr = s.ldr := rfl
@[simp] theorem State.modQuad_eng (s : State) (c q : Nat) (f : Quad → Quad) : (s.modQuad c q f).eng = s.eng := rfl
@[simp] theorem State.setTeam_clk (s : State) (t : Nat) (x : Team) : (s.setTeam t x).clk = s.clk := rfl
@[simp] theorem State.setTeam_inbox (s : State) (t : Nat) (x : Team) : (s.setTeam t x).inbox = s.inbox := rfl
@[simp] theorem State.setTeam_agenda (s : State) (t : Nat) (x : Team) : (s.setTeam t x).agenda = s.agenda := rfl
@[simp] theorem State.setTeam_issuing (s : State) (t : Nat) (x : Team) : (s.setTeam t x).issuing = s.issuing := rfl
@[simp] theorem State.setTeam_subject (s : State) (t : Nat) (x : Team) : (s.setTeam t x).subject = s.subject := rfl
@[simp] theorem State.setTeam_curCmd (s : State) (t : Nat) (x : Team) : (s.setTeam t x).curCmd = s.curCmd := rfl
@[simp] theorem State.setTeam_freeCtr (s : State) (t : Nat) (x : Team) : (s.setTeam t x).freeCtr = s.freeCtr := rfl
@[simp] theorem State.setTeam_fairAt (s : State) (t : Nat) (x : Team) : (s.setTeam t x).fairAt = s.fairAt := rfl
@[simp] theorem State.setTeam_nextId (s : State) (t : Nat) (x : Team) : (s.setTeam t x).nextId = s.nextId := rfl
@[simp] theorem State.setTeam_cores (s : State) (t : Nat) (x : Team) : (s.setTeam t x).cores = s.cores := rfl
@[simp] theorem State.setTeam_mem (s : State) (t : Nat) (x : Team) : (s.setTeam t x).mem = s.mem := rfl
@[simp] theorem State.setTeam_ldr (s : State) (t : Nat) (x : Team) : (s.setTeam t x).ldr = s.ldr := rfl
@[simp] theorem State.setTeam_eng (s : State) (t : Nat) (x : Team) : (s.setTeam t x).eng = s.eng := rfl
@[simp] theorem State.modTeam_clk (s : State) (t : Nat) (f : Team → Team) : (s.modTeam t f).clk = s.clk := by unfold State.modTeam; split <;> rfl
@[simp] theorem State.modTeam_inbox (s : State) (t : Nat) (f : Team → Team) : (s.modTeam t f).inbox = s.inbox := by unfold State.modTeam; split <;> rfl
@[simp] theorem State.modTeam_agenda (s : State) (t : Nat) (f : Team → Team) : (s.modTeam t f).agenda = s.agenda := by unfold State.modTeam; split <;> rfl
@[simp] theorem State.modTeam_issuing (s : State) (t : Nat) (f : Team → Team) : (s.modTeam t f).issuing = s.issuing := by unfold State.modTeam; split <;> rfl
@[simp] theorem State.modTeam_subject (s : State) (t : Nat) (f : Team → Team) : (s.modTeam t f).subject = s.subject := by unfold State.modTeam; split <;> rfl
@[simp] theorem State.modTeam_curCmd (s : State) (t : Nat) (f : Team → Team) : (s.modTeam t f).curCmd = s.curCmd := by unfold State.modTeam; split <;> rfl
@[simp] theorem State.modTeam_freeCtr (s : State) (t : Nat) (f : Team → Team) : (s.modTeam t f).freeCtr = s.freeCtr := by unfold State.modTeam; split <;> rfl
@[simp] theorem State.modTeam_fairAt (s : State) (t : Nat) (f : Team → Team) : (s.modTeam t f).fairAt = s.fairAt := by unfold State.modTeam; split <;> rfl
@[simp] theorem State.modTeam_nextId (s : State) (t : Nat) (f : Team → Team) : (s.modTeam t f).nextId = s.nextId := by unfold State.modTeam; split <;> rfl
@[simp] theorem State.modTeam_cores (s : State) (t : Nat) (f : Team → Team) : (s.modTeam t f).cores = s.cores := by unfold State.modTeam; split <;> rfl
@[simp] theorem State.modTeam_mem (s : State) (t : Nat) (f : Team → Team) : (s.modTeam t f).mem = s.mem := by unfold State.modTeam; split <;> rfl
@[simp] theorem State.modTeam_ldr (s : State) (t : Nat) (f : Team → Team) : (s.modTeam t f).ldr = s.ldr := by unfold State.modTeam; split <;> rfl
@[simp] theorem State.modTeam_eng (s : State) (t : Nat) (f : Team → Team) : (s.modTeam t f).eng = s.eng := by unfold State.modTeam; split <;> rfl
@[simp] theorem State.modWarp_clk (s : State) (w : WRef) (f : Warp → Warp) : (s.modWarp w f).clk = s.clk := by simp [State.modWarp]
@[simp] theorem State.modWarp_inbox (s : State) (w : WRef) (f : Warp → Warp) : (s.modWarp w f).inbox = s.inbox := by simp [State.modWarp]
@[simp] theorem State.modWarp_agenda (s : State) (w : WRef) (f : Warp → Warp) : (s.modWarp w f).agenda = s.agenda := by simp [State.modWarp]
@[simp] theorem State.modWarp_issuing (s : State) (w : WRef) (f : Warp → Warp) : (s.modWarp w f).issuing = s.issuing := by simp [State.modWarp]
@[simp] theorem State.modWarp_subject (s : State) (w : WRef) (f : Warp → Warp) : (s.modWarp w f).subject = s.subject := by simp [State.modWarp]
@[simp] theorem State.modWarp_curCmd (s : State) (w : WRef) (f : Warp → Warp) : (s.modWarp w f).curCmd = s.curCmd := by simp [State.modWarp]
@[simp] theorem State.modWarp_freeCtr (s : State) (w : WRef) (f : Warp → Warp) : (s.modWarp w f).freeCtr = s.freeCtr := by simp [State.modWarp]
@[simp] theorem State.modWarp_fairAt (s : State) (w : WRef) (f : Warp → Warp) : (s.modWarp w f).fairAt = s.fairAt := by simp [State.modWarp]
@[simp] theorem State.modWarp_nextId (s : State) (w : WRef) (f : Warp → Warp) : (s.modWarp w f).nextId = s.nextId := by simp [State.modWarp]
@[simp] theorem State.modWarp_cores (s : State) (w : WRef) (f : Warp → Warp) : (s.modWarp w f).cores = s.cores := by simp [State.modWarp]
@[simp] theorem State.modWarp_mem (s : State) (w : WRef) (f : Warp → Warp) : (s.modWarp w f).mem = s.mem := by simp [State.modWarp]
@[simp] theorem State.modWarp_ldr (s : State) (w : WRef) (f : Warp → Warp) : (s.modWarp w f).ldr = s.ldr := by simp [State.modWarp]
@[simp] theorem State.modWarp_eng (s : State) (w : WRef) (f : Warp → Warp) : (s.modWarp w f).eng = s.eng := by simp [State.modWarp]
@[simp] theorem State.setWarp_clk (s : State) (w : WRef) (x : Warp) : (s.setWarp w x).clk = s.clk := by simp [State.setWarp]
@[simp] theorem State.setWarp_inbox (s : State) (w : WRef) (x : Warp) : (s.setWarp w x).inbox = s.inbox := by simp [State.setWarp]
@[simp] theorem State.setWarp_agenda (s : State) (w : WRef) (x : Warp) : (s.setWarp w x).agenda = s.agenda := by simp [State.setWarp]
@[simp] theorem State.setWarp_issuing (s : State) (w : WRef) (x : Warp) : (s.setWarp w x).issuing = s.issuing := by simp [State.setWarp]
@[simp] theorem State.setWarp_subject (s : State) (w : WRef) (x : Warp) : (s.setWarp w x).subject = s.subject := by simp [State.setWarp]
@[simp] theorem State.setWarp_curCmd (s : State) (w : WRef) (x : Warp) : (s.setWarp w x).curCmd = s.curCmd := by simp [State.setWarp]
@[simp] theorem State.setWarp_freeCtr (s : State) (w : WRef) (x : Warp) : (s.setWarp w x).freeCtr = s.freeCtr := by simp [State.setWarp]
@[simp] theorem State.setWarp_fairAt (s : State) (w : WRef) (x : Warp) : (s.setWarp w x).fairAt = s.fairAt := by simp [State.setWarp]
@[simp] theorem State.setWarp_nextId (s : State) (w : WRef) (x : Warp) : (s.setWarp w x).nextId = s.nextId := by simp [State.setWarp]
@[simp] theorem State.setWarp_cores (s : State) (w : WRef) (x : Warp) : (s.setWarp w x).cores = s.cores := by simp [State.setWarp]
@[simp] theorem State.setWarp_mem (s : State) (w : WRef) (x : Warp) : (s.setWarp w x).mem = s.mem := by simp [State.setWarp]
@[simp] theorem State.setWarp_ldr (s : State) (w : WRef) (x : Warp) : (s.setWarp w x).ldr = s.ldr := by simp [State.setWarp]
@[simp] theorem State.setWarp_eng (s : State) (w : WRef) (x : Warp) : (s.setWarp w x).eng = s.eng := by simp [State.setWarp]
@[simp] theorem State.modLdr_clk (s : State) (f : Loader → Loader) : (s.modLdr f).clk = s.clk := rfl
@[simp] theorem State.modLdr_inbox (s : State) (f : Loader → Loader) : (s.modLdr f).inbox = s.inbox := rfl
@[simp] theorem State.modLdr_agenda (s : State) (f : Loader → Loader) : (s.modLdr f).agenda = s.agenda := rfl
@[simp] theorem State.modLdr_issuing (s : State) (f : Loader → Loader) : (s.modLdr f).issuing = s.issuing := rfl
@[simp] theorem State.modLdr_subject (s : State) (f : Loader → Loader) : (s.modLdr f).subject = s.subject := rfl
@[simp] theorem State.modLdr_curCmd (s : State) (f : Loader → Loader) : (s.modLdr f).curCmd = s.curCmd := rfl
@[simp] theorem State.modLdr_freeCtr (s : State) (f : Loader → Loader) : (s.modLdr f).freeCtr = s.freeCtr := rfl
@[simp] theorem State.modLdr_fairAt (s : State) (f : Loader → Loader) : (s.modLdr f).fairAt = s.fairAt := rfl
@[simp] theorem State.modLdr_nextId (s : State) (f : Loader → Loader) : (s.modLdr f).nextId = s.nextId := rfl
@[simp] theorem State.modLdr_cores (s : State) (f : Loader → Loader) : (s.modLdr f).cores = s.cores := rfl
@[simp] theorem State.modLdr_teams (s : State) (f : Loader → Loader) : (s.modLdr f).teams = s.teams := rfl
@[simp] theorem State.modLdr_mem (s : State) (f : Loader → Loader) : (s.modLdr f).mem = s.mem := rfl
@[simp] theorem State.modLdr_eng (s : State) (f : Loader → Loader) : (s.modLdr f).eng = s.eng := rfl
@[simp] theorem State.modCtx_clk (s : State) (c : Nat) (f : Context → Context) : (s.modCtx c f).clk = s.clk := rfl
@[simp] theorem State.modCtx_inbox (s : State) (c : Nat) (f : Context → Context) : (s.modCtx c f).inbox = s.inbox := rfl
@[simp] theorem State.modCtx_agenda (s : State) (c : Nat) (f : Context → Context) : (s.modCtx c f).agenda = s.agenda := rfl
@[simp] theorem State.modCtx_issuing (s : State) (c : Nat) (f : Context → Context) : (s.modCtx c f).issuing = s.issuing := rfl
@[simp] theorem State.modCtx_subject (s : State) (c : Nat) (f : Context → Context) : (s.modCtx c f).subject = s.subject := rfl
@[simp] theorem State.modCtx_curCmd (s : State) (c : Nat) (f : Context → Context) : (s.modCtx c f).curCmd = s.curCmd := rfl
@[simp] theorem State.modCtx_freeCtr (s : State) (c : Nat) (f : Context → Context) : (s.modCtx c f).freeCtr = s.freeCtr := rfl
@[simp] theorem State.modCtx_fairAt (s : State) (c : Nat) (f : Context → Context) : (s.modCtx c f).fairAt = s.fairAt := rfl
@[simp] theorem State.modCtx_nextId (s : State) (c : Nat) (f : Context → Context) : (s.modCtx c f).nextId = s.nextId := rfl
@[simp] theorem State.modCtx_cores (s : State) (c : Nat) (f : Context → Context) : (s.modCtx c f).cores = s.cores := rfl
@[simp] theorem State.modCtx_teams (s : State) (c : Nat) (f : Context → Context) : (s.modCtx c f).teams = s.teams := rfl
@[simp] theorem State.modCtx_mem (s : State) (c : Nat) (f : Context → Context) : (s.modCtx c f).mem = s.mem := rfl
@[simp] theorem State.modCtx_eng (s : State) (c : Nat) (f : Context → Context) : (s.modCtx c f).eng = s.eng := rfl
@[simp] theorem State.modFunc_clk (s : State) (n : Nat) (f : Func → Func) : (s.modFunc n f).clk = s.clk := rfl
@[simp] theorem State.modFunc_inbox (s : State) (n : Nat) (f : Func → Func) : (s.modFunc n f).inbox = s.inbox := rfl
@[simp] theorem State.modFunc_agenda (s : State) (n : Nat) (f : Func → Func) : (s.modFunc n f).agenda = s.agenda := rfl
@[simp] theorem State.modFunc_issuing (s : State) (n : Nat) (f : Func → Func) : (s.modFunc n f).issuing = s.issuing := rfl
@[simp] theorem State.modFunc_subject (s : State) (n : Nat) (f : Func → Func) : (s.modFunc n f).subject = s.subject := rfl
@[simp] theorem State.modFunc_curCmd (s : State) (n : Nat) (f : Func → Func) : (s.modFunc n f).curCmd = s.curCmd := rfl
@[simp] theorem State.modFunc_freeCtr (s : State) (n : Nat) (f : Func → Func) : (s.modFunc n f).freeCtr = s.freeCtr := rfl
@[simp] theorem State.modFunc_fairAt (s : State) (n : Nat) (f : Func → Func) : (s.modFunc n f).fairAt = s.fairAt := rfl
@[simp] theorem State.modFunc_nextId (s : State) (n : Nat) (f : Func → Func) : (s.modFunc n f).nextId = s.nextId := rfl
@[simp] theorem State.modFunc_cores (s : State) (n : Nat) (f : Func → Func) : (s.modFunc n f).cores = s.cores := rfl
@[simp] theorem State.modFunc_teams (s : State) (n : Nat) (f : Func → Func) : (s.modFunc n f).teams = s.teams := rfl
@[simp] theorem State.modFunc_mem (s : State) (n : Nat) (f : Func → Func) : (s.modFunc n f).mem = s.mem := rfl
@[simp] theorem State.modFunc_eng (s : State) (n : Nat) (f : Func → Func) : (s.modFunc n f).eng = s.eng := rfl
@[simp] theorem State.modMem_clk (s : State) (f : Mem → Mem) : (s.modMem f).clk = s.clk := rfl
@[simp] theorem State.modMem_inbox (s : State) (f : Mem → Mem) : (s.modMem f).inbox = s.inbox := rfl
@[simp] theorem State.modMem_agenda (s : State) (f : Mem → Mem) : (s.modMem f).agenda = s.agenda := rfl
@[simp] theorem State.modMem_issuing (s : State) (f : Mem → Mem) : (s.modMem f).issuing = s.issuing := rfl
@[simp] theorem State.modMem_subject (s : State) (f : Mem → Mem) : (s.modMem f).subject = s.subject := rfl
@[simp] theorem State.modMem_curCmd (s : State) (f : Mem → Mem) : (s.modMem f).curCmd = s.curCmd := rfl
@[simp] theorem State.modMem_freeCtr (s : State) (f : Mem → Mem) : (s.modMem f).freeCtr = s.freeCtr := rfl
@[simp] theorem State.modMem_fairAt (s : State) (f : Mem → Mem) : (s.modMem f).fairAt = s.fairAt := rfl
@[simp] theorem State.modMem_nextId (s : State) (f : Mem → Mem) : (s.modMem f).nextId = s.nextId := rfl
@[simp] theorem State.modMem_cores (s : State) (f : Mem → Mem) : (s.modMem f).cores = s.cores := rfl
@[simp] theorem State.modMem_teams (s : State) (f : Mem → Mem) : (s.modMem f).teams = s.teams := rfl
@[simp] theorem State.modMem_ldr (s : State) (f : Mem → Mem) : (s.modMem f).ldr = s.ldr := rfl
@[simp] theorem State.modMem_eng (s : State) (f : Mem → Mem) : (s.modMem f).eng = s.eng := rfl
@[simp] theorem State.modEng_clk (s : State) (f : Engines → Engines) : (s.modEng f).clk = s.clk := rfl
@[simp] theorem State.modEng_inbox (s : State) (f : Engines → Engines) : (s.modEng f).inbox = s.inbox := rfl
@[simp] theorem State.modEng_agenda (s : State) (f : Engines → Engines) : (s.modEng f).agenda = s.agenda := rfl
@[simp] theorem State.modEng_issuing (s : State) (f : Engines → Engines) : (s.modEng f).issuing = s.issuing := rfl
@[simp] theorem State.modEng_subject (s : State) (f : Engines → Engines) : (s.modEng f).subject = s.subject := rfl
@[simp] theorem State.modEng_curCmd (s : State) (f : Engines → Engines) : (s.modEng f).curCmd = s.curCmd := rfl
@[simp] theorem State.modEng_freeCtr (s : State) (f : Engines → Engines) : (s.modEng f).freeCtr = s.freeCtr := rfl
@[simp] theorem State.modEng_fairAt (s : State) (f : Engines → Engines) : (s.modEng f).fairAt = s.fairAt := rfl
@[simp] theorem State.modEng_nextId (s : State) (f : Engines → Engines) : (s.modEng f).nextId = s.nextId := rfl
@[simp] theorem State.modEng_cores (s : State) (f : Engines → Engines) : (s.modEng f).cores = s.cores := rfl
@[simp] theorem State.modEng_teams (s : State) (f : Engines → Engines) : (s.modEng f).teams = s.teams := rfl
@[simp] theorem State.modEng_mem (s : State) (f : Engines → Engines) : (s.modEng f).mem = s.mem := rfl
@[simp] theorem State.modEng_ldr (s : State) (f : Engines → Engines) : (s.modEng f).ldr = s.ldr := rfl
@[simp] theorem State.pushTurns_clk (s : State) (l : List Turn) : (pushTurns s l).clk = s.clk := rfl
@[simp] theorem State.pushTurns_inbox (s : State) (l : List Turn) : (pushTurns s l).inbox = s.inbox := rfl
@[simp] theorem State.pushTurns_issuing (s : State) (l : List Turn) : (pushTurns s l).issuing = s.issuing := rfl
@[simp] theorem State.pushTurns_subject (s : State) (l : List Turn) : (pushTurns s l).subject = s.subject := rfl
@[simp] theorem State.pushTurns_curCmd (s : State) (l : List Turn) : (pushTurns s l).curCmd = s.curCmd := rfl
@[simp] theorem State.pushTurns_freeCtr (s : State) (l : List Turn) : (pushTurns s l).freeCtr = s.freeCtr := rfl
@[simp] theorem State.pushTurns_fairAt (s : State) (l : List Turn) : (pushTurns s l).fairAt = s.fairAt := rfl
@[simp] theorem State.pushTurns_nextId (s : State) (l : List Turn) : (pushTurns s l).nextId = s.nextId := rfl
@[simp] theorem State.pushTurns_cores (s : State) (l : List Turn) : (pushTurns s l).cores = s.cores := rfl
@[simp] theorem State.pushTurns_teams (s : State) (l : List Turn) : (pushTurns s l).teams = s.teams := rfl
@[simp] theorem State.pushTurns_mem (s : State) (l : List Turn) : (pushTurns s l).mem = s.mem := rfl
@[simp] theorem State.pushTurns_ldr (s : State) (l : List Turn) : (pushTurns s l).ldr = s.ldr := rfl
@[simp] theorem State.pushTurns_eng (s : State) (l : List Turn) : (pushTurns s l).eng = s.eng := rfl
@[simp] theorem State.takeId_clk (s : State) : ((takeId s).2).clk = s.clk := rfl
@[simp] theorem State.takeId_inbox (s : State) : ((takeId s).2).inbox = s.inbox := rfl
@[simp] theorem State.takeId_agenda (s : State) : ((takeId s).2).agenda = s.agenda := rfl
@[simp] theorem State.takeId_issuing (s : State) : ((takeId s).2).issuing = s.issuing := rfl
@[simp] theorem State.takeId_subject (s : State) : ((takeId s).2).subject = s.subject := rfl
@[simp] theorem State.takeId_curCmd (s : State) : ((takeId s).2).curCmd = s.curCmd := rfl
@[simp] theorem State.takeId_freeCtr (s : State) : ((takeId s).2).freeCtr = s.freeCtr := rfl
@[simp] theorem State.takeId_fairAt (s : State) : ((takeId s).2).fairAt = s.fairAt := rfl
@[simp] theorem State.takeId_cores (s : State) : ((takeId s).2).cores = s.cores := rfl
@[simp] theorem State.takeId_teams (s : State) : ((takeId s).2).teams = s.teams := rfl
@[simp] theorem State.takeId_mem (s : State) : ((takeId s).2).mem = s.mem := rfl
@[simp] theorem State.takeId_ldr (s : State) : ((takeId s).2).ldr = s.ldr := rfl
@[simp] theorem State.takeId_eng (s : State) : ((takeId s).2).eng = s.eng := rfl
@[simp] theorem State.setCore_cores (s : State) (c : Nat) (k : Core) : (s.setCore c k).cores = s.cores.insert c k := rfl
@[simp] theorem State.setTeam_teams (s : State) (t : Nat) (x : Team) : (s.setTeam t x).teams = s.teams.insert t x := rfl
@[simp] theorem State.modMem_mem (s : State) (f : Mem → Mem) : (s.modMem f).mem = f s.mem := rfl
@[simp] theorem State.modLdr_ldr (s : State) (f : Loader → Loader) : (s.modLdr f).ldr = f s.ldr := rfl
@[simp] theorem State.modEng_eng (s : State) (f : Engines → Engines) : (s.modEng f).eng = f s.eng := rfl
@[simp] theorem State.pushTurns_agenda (s : State) (l : List Turn) : (pushTurns s l).agenda = l ++ s.agenda := rfl
@[simp] theorem State.takeId_nextId (s : State) : (takeId s).2.nextId = s.nextId + 1 := rfl
@[simp] theorem State.takeId_fst (s : State) : (takeId s).1 = s.nextId := rfl

/-! ## Teams and warps -/

@[simp] theorem State.team?_setTeam_same (s : State) (t : Nat) (x : Team) : (s.setTeam t x).team? t = some x :=
  FMap.find?_insert_same s.teams t x

theorem State.team?_setTeam_other (s : State) {j t : Nat} (x : Team) (h : j ≠ t) : (s.setTeam t x).team? j = s.team? j :=
  FMap.find?_insert_other s.teams x h

theorem State.team?_modTeam (s : State) (j t : Nat) (f : Team → Team) :
    (s.modTeam t f).team? j = if j = t then (s.team? t).map f else s.team? j := by
  unfold State.modTeam
  by_cases h : j = t
  · subst h; cases e : s.team? j <;> simp [e]
  · cases e : s.team? t <;> simp [h, State.team?_setTeam_other]

theorem mapFrom_getElem? {α β : Type} (f : Nat → α → β) (l : List α) (k i : Nat) :
    (mapFrom f k l)[i]? = (l[i]?).map (f (k + i)) := by
  induction l generalizing k i with
  | nil => simp [mapFrom]
  | cons x r ih => cases i with
    | zero => simp [mapFrom]
    | succ i => simp [mapFrom, ih, Nat.add_assoc, Nat.add_comm 1 i]

theorem mapIdx_getElem? {α β : Type} (f : Nat → α → β) (l : List α) (i : Nat) : (mapIdx f l)[i]? = (l[i]?).map (f i) := by
  simp [mapIdx, mapFrom_getElem?]

theorem modifyAt_getElem? {α : Type} (f : α → α) (l : List α) (k i : Nat) :
    (modifyAt f k l)[i]? = if i = k then (l[i]?).map f else l[i]? := by
  induction l generalizing k i with
  | nil => cases k <;> simp [modifyAt]
  | cons x r ih =>
    cases k with
    | zero => cases i <;> simp [modifyAt]
    | succ k => cases i <;> simp [modifyAt, ih]

@[simp] theorem modifyAt_length {α : Type} (f : α → α) (k : Nat) (l : List α) : (modifyAt f k l).length = l.length := by
  induction l generalizing k with
  | nil => cases k <;> rfl
  | cons x r ih => cases k <;> simp [modifyAt, ih]

@[simp] theorem mapFrom_length {α β : Type} (f : Nat → α → β) (k : Nat) (l : List α) : (mapFrom f k l).length = l.length := by
  induction l generalizing k with
  | nil => rfl
  | cons x r ih => simp [mapFrom, ih]

@[simp] theorem mapIdx_length {α β : Type} (f : Nat → α → β) (l : List α) : (mapIdx f l).length = l.length := mapFrom_length f 0 l

theorem State.warp?_modWarp (s : State) (v w : WRef) (f : Warp → Warp) :
    (s.modWarp w f).warp? v = if v = w then (s.warp? w).map f else s.warp? v := by
  unfold State.warp? State.modWarp
  rw [State.team?_modTeam]
  by_cases h : v.team = w.team
  · rw [if_pos h, h]
    cases s.team? w.team with
    | none => simp
    | some t =>
      simp only [Option.map_some, modifyAt_getElem?]
      by_cases g : v.warp = w.warp
      · have e : v = w := by cases v; cases w; simp_all
        simp [e]
      · have e : v ≠ w := fun e => g (by rw [e])
        simp [e, g]
  · have e : v ≠ w := fun e => h (by rw [e])
    simp [h, e]

@[simp] theorem State.warp?_modWarp_same (s : State) (w : WRef) (f : Warp → Warp) :
    (s.modWarp w f).warp? w = (s.warp? w).map f := by simp [State.warp?_modWarp]

theorem State.warp?_modWarp_other (s : State) {v w : WRef} (f : Warp → Warp) (h : v ≠ w) :
    (s.modWarp w f).warp? v = s.warp? v := by simp [State.warp?_modWarp, h]

@[simp] theorem State.warp?_setWarp_same (s : State) (w : WRef) (x : Warp) :
    (s.setWarp w x).warp? w = (s.warp? w).map fun _ => x := by simp [State.setWarp]

/-- A change of cores alone leaves teams and warps. -/
@[simp] theorem State.team?_setCore (s : State) (c : Nat) (k : Core) (t : Nat) : (s.setCore c k).team? t = s.team? t := rfl
@[simp] theorem State.warp?_setCore (s : State) (c : Nat) (k : Core) (w : WRef) : (s.setCore c k).warp? w = s.warp? w := rfl
@[simp] theorem State.team?_modCore (s : State) (c t : Nat) (f : Core → Core) : (s.modCore c f).team? t = s.team? t := rfl
@[simp] theorem State.warp?_modCore (s : State) (c : Nat) (f : Core → Core) (w : WRef) : (s.modCore c f).warp? w = s.warp? w := rfl
@[simp] theorem State.warp?_modQuad (s : State) (c q : Nat) (f : Quad → Quad) (w : WRef) : (s.modQuad c q f).warp? w = s.warp? w := rfl
@[simp] theorem State.warp?_modMem (s : State) (f : Mem → Mem) (w : WRef) : (s.modMem f).warp? w = s.warp? w := rfl
@[simp] theorem State.warp?_modLdr (s : State) (f : Loader → Loader) (w : WRef) : (s.modLdr f).warp? w = s.warp? w := rfl
@[simp] theorem State.warp?_modEng (s : State) (f : Engines → Engines) (w : WRef) : (s.modEng f).warp? w = s.warp? w := rfl
@[simp] theorem State.warp?_takeId (s : State) (w : WRef) : (takeId s).2.warp? w = s.warp? w := rfl
@[simp] theorem State.team?_takeId (s : State) (t : Nat) : (takeId s).2.team? t = s.team? t := rfl
@[simp] theorem State.warp?_pushTurns (s : State) (l : List Turn) (w : WRef) : (pushTurns s l).warp? w = s.warp? w := rfl
@[simp] theorem State.team?_pushTurns (s : State) (l : List Turn) (t : Nat) : (pushTurns s l).team? t = s.team? t := rfl

/-! ## Cores -/

@[simp] theorem State.core_setCore_same (s : State) (c : Nat) (k : Core) : (s.setCore c k).core c = k := by
  simp [State.core]

theorem State.core_setCore_other (s : State) {b c : Nat} (k : Core) (h : b ≠ c) : (s.setCore c k).core b = s.core b := by
  simp [State.core, FMap.getD_insert_other s.cores k Core.start h]

/-! ## Lanes, registers, ports -/

theorem Warp.lane_modLane (w : Warp) (l j : Nat) (f : Lane → Lane) (h : j < w.lanes.length) :
    (w.modLane l f).lane j = if j = l then f (w.lane j) else w.lane j := by
  simp only [Warp.lane, Warp.modLane, List.getD_eq_getElem?_getD, modifyAt_getElem?, List.getElem?_eq_getElem h]
  by_cases e : j = l <;> simp [e]

theorem Lane.reg_setReg_same (x : Lane) (n : Nat) (v : W32) : (x.setReg n v).reg n = v := by simp [Lane.reg, Lane.setReg]

theorem Lane.reg_setReg_other (x : Lane) {j n : Nat} (v : W32) (h : j ≠ n) : (x.setReg n v).reg j = x.reg j :=
  FMap.getD_setD_other x.regs 0 v h

theorem Warp.unit_modUnit_same (w : Warp) (u : Nat) (f : UnitPorts → UnitPorts) : (w.modUnit u f).unit u = f (w.unit u) := by
  simp [Warp.unit, Warp.modUnit]

theorem Warp.unit_modUnit_other (w : Warp) {v u : Nat} (f : UnitPorts → UnitPorts) (h : v ≠ u) :
    (w.modUnit u f).unit v = w.unit v := by
  simp [Warp.unit, Warp.modUnit, FMap.getD_insert_other w.ports _ UnitPorts.start h]

/-- Operand port `off` of a unit after a write of port `o2` (R84, R87). -/
theorem UnitPorts.operand_setOperand_same (p : UnitPorts) {off : Nat} (l : Nat) (v : W64) (h : off < 4) :
    (p.setOperand off l v).operand off l = v := by
  have : off = 0 ∨ off = 1 ∨ off = 2 ∨ off = 3 := by omega
  rcases this with rfl | rfl | rfl | rfl <;> simp [UnitPorts.setOperand, UnitPorts.operand]

theorem UnitPorts.operand_setOperand_lane (p : UnitPorts) (off o2 : Nat) {l j : Nat} (v : W64) (h : j ≠ l) :
    (p.setOperand o2 l v).operand off j = p.operand off j := by
  unfold UnitPorts.setOperand UnitPorts.operand
  split_ifs <;> simp_all [FMap.getD_setD_other]

theorem UnitPorts.operand_setOperand_port (p : UnitPorts) {off o2 : Nat} (l j : Nat) (v : W64) (h : off ≠ o2) (a : off < 4)
    (b : o2 < 4) : (p.setOperand o2 l v).operand off j = p.operand off j := by
  have ha : off = 0 ∨ off = 1 ∨ off = 2 ∨ off = 3 := by omega
  have hb : o2 = 0 ∨ o2 = 1 ∨ o2 = 2 ∨ o2 = 3 := by omega
  rcases ha with rfl | rfl | rfl | rfl <;> rcases hb with rfl | rfl | rfl | rfl <;>
    first | exact absurd rfl h | simp [UnitPorts.setOperand, UnitPorts.operand]

/-- A result element after a fill of its lane's trigger (R35). -/
theorem UnitPorts.elem_fillIf_same (p : UnitPorts) (id l : Nat) (y y2 : Elem) (h : p.last.find? l = some id) :
    (p.fillIf id l y y2).elem 4 l = y ∧ (p.fillIf id l y y2).elem 5 l = y2 := by
  simp [UnitPorts.fillIf, h, UnitPorts.elem, UnitPorts.setElem]

/-- A fill of an earlier trigger changes nothing (R35). -/
theorem UnitPorts.fillIf_stale (p : UnitPorts) (id l : Nat) (y y2 : Elem) (h : p.last.find? l ≠ some id) :
    p.fillIf id l y y2 = p := by simp [UnitPorts.fillIf, h]

/-! ## Memory -/

theorem Mem.byte_writeList_nil (m : Mem) : m.writeList [] = m := rfl

/-- The canonical form of memory is that of a map whose unlisted bytes read 0. -/
theorem Memory.wf_eq (m : Memory) : Memory.wf m = m.wfD 0 := rfl

theorem foldOver_setD_wf {α : Type} (f : α → Nat × Byte) (l : List α) (m : Memory) (h : Memory.wf m = true) :
    Memory.wf (foldOver (fun (m : FMap Byte) (x : α) => m.setD (f x).1 0 (f x).2) m l) = true := by
  induction l generalizing m with
  | nil => simpa [foldOver] using h
  | cons x r ih => exact ih _ (by simpa [Memory.wf_eq] using FMap.wfD_setD m _ 0 _ (by simpa [Memory.wf_eq] using h))

theorem Mem.writeList_wf (m : Mem) (l : List (Nat × Byte)) (h : Memory.wf m.bytes = true) :
    Memory.wf (m.writeList l).bytes = true := foldOver_setD_wf id l m.bytes h

theorem Mem.writeAt_wf (m : Mem) (tgt dev : Nat) (l : List (Nat × Byte))
    (h : Memory.wf m.bytes = true ∧ Memory.wf m.host = true ∧ Memory.wf m.peer = true) :
    Memory.wf (m.writeAt tgt dev l).bytes = true ∧ Memory.wf (m.writeAt tgt dev l).host = true ∧
      Memory.wf (m.writeAt tgt dev l).peer = true := by
  obtain ⟨a, b, c⟩ := h
  unfold Mem.writeAt
  split_ifs
  · exact ⟨m.writeList_wf l a, b, c⟩
  · exact ⟨a, foldOver_setD_wf id l m.host b, c⟩
  · exact ⟨a, b, foldOver_setD_wf (fun x : Nat × Byte => (peerKey dev x.1, x.2)) l m.peer c⟩

theorem Mem.byte_writeList_other (m : Mem) (l : List (Nat × Byte)) (a : Nat) (h : ∀ e ∈ l, e.1 ≠ a) :
    (m.writeList l).byte a = m.byte a := by
  have key : ∀ (l : List (Nat × Byte)) (b : FMap Byte), (∀ e ∈ l, e.1 ≠ a) →
      (foldOver (fun (f : FMap Byte) (x : Nat × Byte) => f.setD x.1 0 x.2) b l).getD a 0 = b.getD a 0 := by
    intro l
    induction l with
    | nil => intros; rfl
    | cons e r ih =>
      intro b hb
      rw [foldOver, ih _ fun e he => hb e (List.mem_cons_of_mem _ he),
        FMap.getD_setD_other b 0 e.2 (Ne.symm (hb e List.mem_cons_self))]
  exact key l m.bytes h

theorem Mem.byte_write_same (m : Mem) (a : Nat) (v : Byte) : (m.writeList [(a, v)]).byte a = v := by
  simp [Mem.writeList, Mem.byte, foldOver]

end Sys2Proof.Machine
end

