-- ==== Sys2Proof/Laws/Issue.lean ====
section
/-! SUPPORT. What each part of an issue can do to its warp: one lemma for each operation, which says every field that it can change. -/

namespace Sys2Proof.Machine

/-- An induction over a fold: what every step keeps, the fold keeps. -/
theorem foldOver_keeps {α σ : Type} (p : σ → Prop) (f : σ → α → σ) (l : List α) (s : σ) (h : p s) (k : ∀ t a, p t → p (f t a)) :
    p (foldOver f s l) := by
  induction l generalizing s with
  | nil => exact h
  | cons a r ih => exact ih _ (k s a h)

/-! ## Writes -/

/-- A write of an operand port changes the ports of its unit alone. -/
theorem writeDst_operand (x : Warp) (u off l : Nat) (v : W64) :
    writeDst x (.operand u off) l v = { x with ports := x.ports.insert u ((x.unit u).setOperand off l v) } := rfl

/-- Ports that differ from others in one unit alone. -/
def PortsBut (u : Nat) (m m' : FMap UnitPorts) : Prop := ∀ v, v ≠ u → m'.getD v UnitPorts.start = m.getD v UnitPorts.start

theorem PortsBut.refl (u : Nat) (m : FMap UnitPorts) : PortsBut u m m := fun _ _ => rfl

theorem PortsBut.insert {u : Nat} {m m' : FMap UnitPorts} (h : PortsBut u m m') (p : UnitPorts) : PortsBut u m (m'.insert u p) :=
  fun v hv => (FMap.getD_insert_other m' p _ hv).trans (h v hv)

/-- Writes of operand ports of a unit change its ports alone. -/
theorem writeDsts_operand (u off : Nat) (vs : List (Nat × W64)) (x : Warp) :
    ∃ m, foldOver (fun w (v : Nat × W64) => writeDst w (.operand u off) v.1 v.2) x vs = { x with ports := m } ∧
      PortsBut u x.ports m := by
  refine foldOver_keeps (fun y => ∃ m, y = { x with ports := m } ∧ PortsBut u x.ports m) _ vs x ⟨x.ports, rfl, .refl u _⟩ ?_
  rintro t a ⟨m, rfl, h⟩
  exact ⟨_, rfl, h.insert _⟩

/-- A move to an operand port changes ports of its unit, and poison. -/
theorem writeMove_operand (clk u off : Nat) (vs : List (Nat × W64)) (x : Warp) :
    ∃ m p, writeMove clk (.operand u off) vs x = { x with ports := m, poison := p } ∧ PortsBut u x.ports m := by
  obtain ⟨m, e, h⟩ := writeDsts_operand u off vs x
  unfold writeMove
  simp only [e]
  split
  · exact ⟨m, x.poison, rfl, h⟩
  · exact ⟨m, _, rfl, h⟩

/-- The values of an operand port after a move to it: in a lane that the move writes, the value; a move has one value for a lane. -/
theorem writeDsts_port (u off l : Nat) (hoff : off < 4) (ls : List Nat) (f : Nat → W64) (x : Warp) :
    (foldOver (fun w (v : Nat × W64) => writeDst w (.operand u off) v.1 v.2) x (ls.map fun l => (l, f l))).port u off l =
      if l ∈ ls then f l else x.port u off l := by
  induction ls generalizing x with
  | nil => simp [foldOver]
  | cons j r ih =>
    rw [List.map_cons, foldOver, ih]
    by_cases h : l ∈ r
    · simp [h]
    · by_cases e : l = j
      · subst e
        simp [h, writeDst_operand, Warp.port, hoff, Warp.unit, UnitPorts.operand_setOperand_same]
      · simp [h, e, writeDst_operand, Warp.port, hoff, Warp.unit, UnitPorts.operand_setOperand_lane _ _ _ _ e]

/-- Other operand ports of the unit stay. -/
theorem writeDsts_port_other (u off o2 l : Nat) (ho : off < 4) (h2 : o2 < 4) (h : o2 ≠ off) (vs : List (Nat × W64)) (x : Warp) :
    (foldOver (fun w (v : Nat × W64) => writeDst w (.operand u off) v.1 v.2) x vs).port u o2 l = x.port u o2 l := by
  refine foldOver_keeps (fun y => y.port u o2 l = x.port u o2 l) _ vs x rfl ?_
  intro t a e
  rw [← e]
  simp [writeDst_operand, Warp.port, h2, Warp.unit, UnitPorts.operand_setOperand_port _ _ _ _ h h2 ho]

/-- The result elements of the unit stay. -/
theorem writeDsts_elem (u off o2 l : Nat) (vs : List (Nat × W64)) (x : Warp) :
    (foldOver (fun w (v : Nat × W64) => writeDst w (.operand u off) v.1 v.2) x vs).elem u o2 l = x.elem u o2 l := by
  refine foldOver_keeps (fun y => y.elem u o2 l = x.elem u o2 l) _ vs x rfl ?_
  intro t a e
  rw [← e]
  simp only [writeDst_operand, Warp.elem, Warp.unit, FMap.getD_insert_same, UnitPorts.setOperand]
  split_ifs <;> rfl

/-- A move to an operand port, and the ports of its unit. -/
theorem writeMove_ports (clk u off : Nat) (vs : List (Nat × W64)) (x : Warp) :
    (writeMove clk (.operand u off) vs x).ports =
      (foldOver (fun w (v : Nat × W64) => writeDst w (.operand u off) v.1 v.2) x vs).ports := by
  unfold writeMove
  dsimp only
  split <;> rfl

/-! ## Triggers -/

/-- A trigger changes the ports of its unit alone. -/
theorem trigger_eq (x : Warp) (u id l : Nat) : ∃ p, x.trigger u id l = { x with ports := x.ports.insert u p } := ⟨_, rfl⟩

/-- Triggers of lanes change the ports of their unit alone. -/
theorem triggers_eq (u id : Nat) (ls : List Nat) (x : Warp) :
    ∃ m, foldOver (fun x l => x.trigger u id l) x ls = { x with ports := m } ∧ PortsBut u x.ports m := by
  refine foldOver_keeps (fun y => ∃ m, y = { x with ports := m } ∧ PortsBut u x.ports m) _ ls x ⟨x.ports, rfl, .refl u _⟩ ?_
  rintro t a ⟨m, rfl, h⟩
  exact ⟨_, rfl, h.insert _⟩

/-- The operand ports stay at a trigger. -/
theorem triggers_port (u id off l : Nat) (h : off < 4) (ls : List Nat) (x : Warp) :
    (foldOver (fun x l => x.trigger u id l) x ls).port u off l = x.port u off l := by
  refine foldOver_keeps (fun y => y.port u off l = x.port u off l) _ ls x rfl ?_
  intro t a e
  rw [← e]
  simp [Warp.port, h, Warp.trigger, Warp.unit_modUnit_same, UnitPorts.operand, UnitPorts.setElem]

/-- The results of triggered lanes stand unfilled and untagged; the others stay; the trigger is the lanes' last (R33, R35). -/
theorem trigger_elem (x : Warp) (u id j l off : Nat) (h : off = 4 ∨ off = 5) :
    (x.trigger u id j).elem u off l =
      if l = j then { x.elem u off l with filled := false, tag := 0 } else x.elem u off l := by
  rcases h with rfl | rfl <;> by_cases e : l = j <;>
    simp [Warp.trigger, Warp.elem, Warp.unit_modUnit_same, UnitPorts.elem, UnitPorts.setElem, e, FMap.getD_setD_other]

theorem trigger_last (x : Warp) (u id j l : Nat) :
    ((x.trigger u id j).unit u).last.find? l = if l = j then some id else (x.unit u).last.find? l := by
  by_cases e : l = j
  · subst e; simp [Warp.trigger, Warp.unit_modUnit_same]
  · simp [Warp.trigger, Warp.unit_modUnit_same, e, FMap.find?_insert_other]

theorem triggers_elem (u id l off : Nat) (h : off = 4 ∨ off = 5) (ls : List Nat) (x : Warp) :
    (foldOver (fun x l => x.trigger u id l) x ls).elem u off l =
      if l ∈ ls then { x.elem u off l with filled := false, tag := 0 } else x.elem u off l := by
  induction ls generalizing x with
  | nil => simp [foldOver]
  | cons j r ih =>
    rw [foldOver, ih, trigger_elem _ _ _ _ _ _ h]
    by_cases a : l = j <;> by_cases b : l ∈ r <;> simp [a, b]

theorem triggers_last (u id l : Nat) (ls : List Nat) (x : Warp) :
    ((foldOver (fun x l => x.trigger u id l) x ls).unit u).last.find? l =
      if l ∈ ls then some id else (x.unit u).last.find? l := by
  induction ls generalizing x with
  | nil => simp [foldOver]
  | cons j r ih =>
    rw [foldOver, ih, trigger_last]
    by_cases a : l = j <;> by_cases b : l ∈ r <;> simp [a, b]

/-! ## Streams and counters -/

/-- Reads of streams change stream bindings alone (R85). -/
theorem advanceStreams_eq (x : Warp) (ls : List Nat) (ms : List RMove) (w : Warp) :
    ∃ m, advanceStreams x ls ms w = { w with streams := m } := by
  unfold advanceStreams
  refine foldOver_keeps (fun y => ∃ m, y = { w with streams := m }) _ _ w ⟨_, rfl⟩ ?_
  rintro t a ⟨m, rfl⟩
  exact ⟨_, rfl⟩

/-- Counting a bundle changes loop state alone (R135). -/
theorem countSlots_eq (pc : W32) (h : Nat) (insts : List Nat) (x w : Warp) :
    ∃ m, countSlots pc h insts x w = { w with halves := m } := by
  unfold countSlots
  dsimp only
  split
  · exact ⟨_, rfl⟩
  · exact ⟨_, rfl⟩

/-- Counting changes no level: where no loop is open, nothing at all. -/
theorem countSlots_noLoops (pc : W32) (h : Nat) (insts : List Nat) (x w : Warp) (n : (x.half h).levels = []) :
    countSlots pc h insts x w = w := by
  unfold countSlots
  simp [n]

/-! ## Steps of lanes -/

/-- What a step of lanes keeps of a lane: everything but its address, its wait, the iteration it owes. -/
structure LaneKept (a b : Lane) : Prop where
  age : b.age = a.age
  live : b.live = a.live
  regs : b.regs = a.regs
  nfr : b.nfr = a.nfr
  rstack : b.rstack = a.rstack

theorem LaneKept.refl (a : Lane) : LaneKept a a := ⟨rfl, rfl, rfl, rfl, rfl⟩

theorem LaneKept.trans {a b c : Lane} (h : LaneKept a b) (g : LaneKept b c) : LaneKept a c :=
  ⟨g.age.trans h.age, g.live.trans h.live, g.regs.trans h.regs, g.nfr.trans h.nfr, g.rstack.trans h.rstack⟩

/-- A warp after steps of its lanes: its lanes and its loop state may have changed, each lane keeping what `LaneKept` lists. -/
structure Stepped (x y : Warp) : Prop where
  eq : y = { x with lanes := y.lanes, halves := y.halves }
  length : y.lanes.length = x.lanes.length
  lane : ∀ l, LaneKept (x.lane l) (y.lane l)

theorem Stepped.refl (x : Warp) : Stepped x x := ⟨rfl, rfl, fun _ => .refl _⟩

theorem Stepped.trans {x y z : Warp} (h : Stepped x y) (g : Stepped y z) : Stepped x z := by
  refine ⟨?_, g.length.trans h.length, fun l => (h.lane l).trans (g.lane l)⟩
  have a := h.eq
  have b := g.eq
  rw [a] at b
  exact b

theorem Stepped.modHalf (x : Warp) (h : Nat) (f : Half → Half) : Stepped x (x.modHalf h f) := ⟨rfl, rfl, fun _ => .refl _⟩

theorem Stepped.modLane (x : Warp) (l : Nat) (f : Lane → Lane) (k : ∀ a, LaneKept a (f a)) : Stepped x (x.modLane l f) := by
  refine ⟨rfl, by simp [Warp.modLane], fun j => ?_⟩
  by_cases h : j < x.lanes.length
  · rw [Warp.lane_modLane x l j f h]
    split
    · exact k _
    · exact .refl _
  · have a : (x.modLane l f).lane j = x.lane j := by
      simp only [Warp.lane, Warp.modLane, List.getD_eq_getElem?_getD, modifyAt_getElem?]
      rw [List.getElem?_eq_none (Nat.le_of_not_lt h)]
      split <;> rfl
    rw [a]
    exact .refl _

theorem Stepped.mapLanes (x : Warp) (f : Nat → Lane → Lane) (k : ∀ i a, LaneKept a (f i a)) :
    Stepped x { x with lanes := mapIdx f x.lanes } := by
  refine ⟨rfl, by simp, fun j => ?_⟩
  simp only [Warp.lane, List.getD_eq_getElem?_getD, mapIdx_getElem?]
  cases e : x.lanes[j]? with
  | none => exact .refl _
  | some a => exact k j a

theorem Stepped.fold {α : Type} (f : Warp → α → Warp) (k : ∀ x a, Stepped x (f x a)) (l : List α) (x : Warp) :
    Stepped x (foldOver f x l) := by
  induction l generalizing x with
  | nil => exact .refl x
  | cons a r ih => exact (k x a).trans (ih _)

theorem tryAdvance_stepped (x : Warp) (h k : Nat) : Stepped x (x.tryAdvance h k) := by
  unfold Warp.tryAdvance
  split
  · exact .refl x
  · dsimp only
    split
    · refine (Stepped.modHalf x h _).trans (Stepped.mapLanes _ _ ?_)
      intro i a
      split
      · exact ⟨rfl, rfl, rfl, rfl, rfl⟩
      · exact .refl a
    · exact .refl x

theorem leaveLevel_stepped (x : Warp) (l k : Nat) : Stepped x (x.leaveLevel l k) := by
  unfold Warp.leaveLevel
  refine (Stepped.modHalf x _ _).trans (Stepped.modLane _ _ _ ?_)
  intro a
  split
  · exact ⟨rfl, rfl, rfl, rfl, rfl⟩
  · exact .refl a

theorem completeLane_stepped (n : Nat) (x : Warp) (l k : Nat) : Stepped x (x.completeLane n l k) := by
  induction n generalizing x k with
  | zero => exact .refl x
  | succ n ih =>
    unfold Warp.completeLane
    dsimp only
    cases (x.half (x.halfOf l)).levels[k]? with
    | none => exact .refl x
    | some lv =>
      dsimp only
      split
      · have a := (leaveLevel_stepped x l k).trans
          (Stepped.modLane (x.leaveLevel l k) l (fun y => { y with pc := lv.exit }) fun _ => ⟨rfl, rfl, rfl, rfl, rfl⟩)
        generalize (if k = 0 then none else (x.half (x.halfOf l)).levels[k - 1]?) = outer
        cases outer with
        | none => exact a
        | some o =>
          dsimp only
          split
          · exact a.trans (ih _ _)
          · exact a
      · exact Stepped.modLane x l _ fun _ => ⟨rfl, rfl, rfl, rfl, rfl⟩

theorem advanceAll_stepped (x : Warp) (h : Nat) : Stepped x (x.advanceAll h) :=
  Stepped.fold _ (fun x k => tryAdvance_stepped x h k) _ x

theorem advance_stepped (x : Warp) : Stepped x x.advance := (advanceAll_stepped x 0).trans (advanceAll_stepped _ 1)

theorem stepLane_stepped (x : Warp) (pc : W32) (l : Nat) : Stepped x (x.stepLane pc l) := by
  unfold Warp.stepLane
  split
  · exact .refl x
  · have a := Stepped.modLane x l (fun y => { y with pc := nextPc pc }) fun _ => ⟨rfl, rfl, rfl, rfl, rfl⟩
    dsimp only
    split
    · exact a
    · split
      · exact a.trans (Stepped.modLane _ l _ fun _ => ⟨rfl, rfl, rfl, rfl, rfl⟩)
      · exact a.trans (completeLane_stepped _ _ _ _)

/-- Lanes that step on change lanes and loop state alone, and of a lane only its address, wait and owed iteration. -/
theorem stepLanes_stepped (x : Warp) (pc : W32) (ls : List Nat) : Stepped x (x.stepLanes pc ls) :=
  (Stepped.fold _ (fun x l => stepLane_stepped x pc l) ls x).trans (advance_stepped _)

/-- Where no loop is open, lanes that step on only take the next address (R89). -/
theorem stepLane_noLoops (x : Warp) (pc : W32) (l : Nat) (h : ∀ n, (x.half n).levels = []) :
    x.stepLane pc l = if (x.lane l).live then x.modLane l fun y => { y with pc := nextPc pc } else x := by
  unfold Warp.stepLane
  have e : x.endLevel l pc = none := by simp [Warp.endLevel, h, firstWhere]
  cases a : (x.lane l).live <;> simp [e]

theorem advance_noLoops (x : Warp) (h : ∀ n, (x.half n).levels = []) : x.advance = x := by
  have t : ∀ h' k, x.tryAdvance h' k = x := by
    intro h' k
    unfold Warp.tryAdvance
    simp [h]
  have a : ∀ h', x.advanceAll h' = x := by
    intro h'
    simp [Warp.advanceAll, foldOver, t]
  simp [Warp.advance, a]

end Sys2Proof.Machine
end

