-- ==== Sys2Proof/Laws/PerInstr.lean ====
section
/-! SUPPORT. What holds of each instruction's encoding, one lemma for each constructor: the bundle of a well-formed instruction is well formed
and is classified as that instruction. -/

namespace Sys2Proof.Laws.Encoding
open Sys2Proof Sys2Proof.Machine

/-- A bundle of one move alone is well formed. -/
theorem loneBundle_wf (g : BitVec 4) (ng : Bool) (d : BitVec 13) (s : Src) : (loneBundle g ng d s).wf = true := by
  cases s <;> simp [loneBundle, Bundle.wf, Move.srcOk, collisions, collisionsFrom, collidersOf]

/-- It holds nothing but its move. -/
theorem loneBundle_plain (g : BitVec 4) (ng : Bool) (d : BitVec 13) (s : Src) : (loneBundle g ng d s).plain = true := by
  cases s <;> simp [loneBundle, Bundle.plain]

/-- Its move has the guard, the destination and the source that it is made of. -/
theorem loneBundle_move (g : BitVec 4) (ng : Bool) (d : BitVec 13) (s : Src) :
    ∃ m, (loneBundle g ng d s).moves = [m] ∧ m.g = g ∧ m.ng = ng ∧ m.dst = d ∧ loneSrc (loneBundle g ng d s).slot5 m.src = s := by
  cases s <;> exact ⟨_, rfl, rfl, rfl, rfl, rfl⟩

/-- A lone trigger of a defined opcode is classified as the row of its opcode. -/
theorem classify_trigger (t : Trig) (u n : Nat) (i : Instr)
    (hd : trigOf (BitVec.ofNat 13 (portCode u (64 + n))).toNat = some (u, n) ∧ definesOp u n = true) (hi : trigInstr u n t = some i) :
    classify (loneBundle t.g t.ng (BitVec.ofNat 13 (portCode u (64 + n))) t.src) = i := by
  obtain ⟨m, hm, hg, hng, hdst, hs⟩ := loneBundle_move t.g t.ng (BitVec.ofNat 13 (portCode u (64 + n))) t.src
  have hp := loneBundle_plain t.g t.ng (BitVec.ofNat 13 (portCode u (64 + n))) t.src
  have hsingle : (loneBundle t.g t.ng (BitVec.ofNat 13 (portCode u (64 + n))) t.src).single = true := by
    simp only [Bundle.single, hp, hm, hdst, isTrigger, hd.1, hd.2, Bool.true_or, Bool.and_self]
  simp only [classify, hsingle, hm, hg, hng, hs, hdst, hd.1, Option.bind_some, hi, if_true]

/-- No instruction is the trigger of an undefined opcode. -/
theorem trigInstr_none (u n : Nat) (t : Trig) (h : definesOp u n = false) : trigInstr u n t = none := by
  have hn : opCounts.getD u 0 ≤ n := by simpa [definesOp] using h
  have hl : (trigRow u).length ≤ opCounts.getD u 0 := by
    by_cases hu : u < 18
    · interval_cases u <;> decide
    · have : trigRow u = [] := by
        unfold trigRow
        split <;> first | omega | rfl
      simp [this]
  unfold trigInstr
  split
  · rename_i e
    obtain ⟨rfl, rfl, -⟩ := e
    exact absurd hn (by decide)
  · rw [List.getElem?_eq_none (hl.trans hn)]
    rfl

/-- The bundle of a well-formed instruction is well formed, and is that instruction. -/
def Statement (i : Instr) : Prop := ∀ b, toBundle i = some b → i.wf = true → b.wf = true ∧ classify b = i

/-- A trigger's instruction. -/
theorem of_trigger (i : Instr) (t : Trig) (u n : Nat) (hb : toBundle i = trigBundle u n t)
    (hd : trigOf (BitVec.ofNat 13 (portCode u (64 + n))).toNat = some (u, n) ∧ definesOp u n = true)
    (hi : i.wf = true → trigInstr u n t = some i) : Statement i := by
  intro b h hw
  rw [hb] at h
  cases h
  exact ⟨loneBundle_wf _ _ _ _, classify_trigger t u n i hd (hi hw)⟩

theorem bundleIssue (b : Bundle) : Statement (.bundleIssue b) := by
  rintro b ⟨⟩ hw
  simp only [Instr.wf, Bool.and_eq_true, Bool.not_eq_true'] at hw
  exact ⟨hw.1, by simp [classify, hw.2]⟩

theorem seqFlagsWrite (t : Trig) : Statement (.seqFlagsWrite t) := by
  rintro b ⟨⟩ -
  refine ⟨loneBundle_wf _ _ _ _, ?_⟩
  obtain ⟨m, hm, hg, hng, hdst, hs⟩ := loneBundle_move t.g t.ng (BitVec.ofNat 13 flagsCode) t.src
  have hp := loneBundle_plain t.g t.ng (BitVec.ofNat 13 flagsCode) t.src
  have ho : trigOf flagsCode = none := by decide
  have hc : (BitVec.ofNat 13 flagsCode).toNat = flagsCode := by decide
  simp only [classify, Bundle.single, hp, hm, hg, hng, hs, hdst, isTrigger, ho, hc, beq_self_eq_true, Bool.or_true, Bool.true_or,
    Bool.and_self, if_true, Option.bind_none]

/-- The code of a stream port is one, and names its port. -/
theorem streamCode_reads : ∀ k : Fin 8, isStreamCode (BitVec.ofNat 13 (streamCode k.val)).toNat = true ∧
    (⟨((BitVec.ofNat 13 (streamCode k.val)).toNat - 0x786) % 8, Nat.mod_lt _ (by decide)⟩ : Fin 8) = k := by decide

theorem streamPortRead (k : Fin 8) (g : BitVec 4) (ng : Bool) (d : BitVec 13) : Statement (.streamPortRead k g ng d) := by
  rintro b ⟨⟩ hw
  refine ⟨loneBundle_wf _ _ _ _, ?_⟩
  simp only [Instr.wf, Bool.and_eq_true, Bool.not_eq_true', bne_iff_ne] at hw
  have hp := loneBundle_plain g ng d (.port (BitVec.ofNat 13 (streamCode k.val)))
  have hk : isStreamCode (BitVec.ofNat 13 (streamCode k.val)).toNat = true := (streamCode_reads k).1
  have hf : (⟨((BitVec.ofNat 13 (streamCode k.val)).toNat - 0x786) % 8, Nat.mod_lt _ (by decide)⟩ : Fin 8) = k := (streamCode_reads k).2
  have hm : (loneBundle g ng d (.port (BitVec.ofNat 13 (streamCode k.val)))).moves =
      [{ g := g, ng := ng, dst := d, src := .port (BitVec.ofNat 13 (streamCode k.val)) }] := rfl
  have hn : ∀ t, (trigOf d.toNat).bind (fun x => trigInstr x.1 x.2 t) = none := by
    intro t
    have h := hw.1
    unfold isTrigger at h
    cases hx : trigOf d.toNat with
    | none => rfl
    | some x => rw [hx] at h; exact trigInstr_none _ _ _ h
  simp only [classify, Bundle.single, hp, hm, hw.1, hk, hn, hw.2, hf, Bool.or_true, Bool.and_self, if_true, if_false]

theorem intAdd (u : Fin 2) (t : Trig) : Statement (.intAdd u t) :=
  of_trigger _ t (0 + u.val) 0 rfl (by revert u; decide) fun _ => by fin_cases u <;> rfl

theorem intSub (u : Fin 2) (t : Trig) : Statement (.intSub u t) :=
  of_trigger _ t (0 + u.val) 1 rfl (by revert u; decide) fun _ => by fin_cases u <;> rfl

theorem intAdd64 (u : Fin 2) (t : Trig) : Statement (.intAdd64 u t) :=
  of_trigger _ t (0 + u.val) 2 rfl (by revert u; decide) fun _ => by fin_cases u <;> rfl

theorem intSub64 (u : Fin 2) (t : Trig) : Statement (.intSub64 u t) :=
  of_trigger _ t (0 + u.val) 3 rfl (by revert u; decide) fun _ => by fin_cases u <;> rfl

theorem intAnd (u : Fin 2) (t : Trig) : Statement (.intAnd u t) :=
  of_trigger _ t (0 + u.val) 4 rfl (by revert u; decide) fun _ => by fin_cases u <;> rfl

theorem intOr (u : Fin 2) (t : Trig) : Statement (.intOr u t) :=
  of_trigger _ t (0 + u.val) 5 rfl (by revert u; decide) fun _ => by fin_cases u <;> rfl

theorem intXor (u : Fin 2) (t : Trig) : Statement (.intXor u t) :=
  of_trigger _ t (0 + u.val) 6 rfl (by revert u; decide) fun _ => by fin_cases u <;> rfl

theorem intAndn (u : Fin 2) (t : Trig) : Statement (.intAndn u t) :=
  of_trigger _ t (0 + u.val) 7 rfl (by revert u; decide) fun _ => by fin_cases u <;> rfl

theorem intShl (u : Fin 2) (t : Trig) : Statement (.intShl u t) :=
  of_trigger _ t (0 + u.val) 8 rfl (by revert u; decide) fun _ => by fin_cases u <;> rfl

theorem intShr (u : Fin 2) (t : Trig) : Statement (.intShr u t) :=
  of_trigger _ t (0 + u.val) 9 rfl (by revert u; decide) fun _ => by fin_cases u <;> rfl

theorem intSar (u : Fin 2) (t : Trig) : Statement (.intSar u t) :=
  of_trigger _ t (0 + u.val) 10 rfl (by revert u; decide) fun _ => by fin_cases u <;> rfl

theorem intShl64 (u : Fin 2) (t : Trig) : Statement (.intShl64 u t) :=
  of_trigger _ t (0 + u.val) 11 rfl (by revert u; decide) fun _ => by fin_cases u <;> rfl

theorem intShr64 (u : Fin 2) (t : Trig) : Statement (.intShr64 u t) :=
  of_trigger _ t (0 + u.val) 12 rfl (by revert u; decide) fun _ => by fin_cases u <;> rfl

theorem intSar64 (u : Fin 2) (t : Trig) : Statement (.intSar64 u t) :=
  of_trigger _ t (0 + u.val) 13 rfl (by revert u; decide) fun _ => by fin_cases u <;> rfl

theorem intMinS32 (u : Fin 2) (t : Trig) : Statement (.intMinS32 u t) :=
  of_trigger _ t (0 + u.val) 14 rfl (by revert u; decide) fun _ => by fin_cases u <;> rfl

theorem intMaxS32 (u : Fin 2) (t : Trig) : Statement (.intMaxS32 u t) :=
  of_trigger _ t (0 + u.val) 15 rfl (by revert u; decide) fun _ => by fin_cases u <;> rfl

theorem intMinU32 (u : Fin 2) (t : Trig) : Statement (.intMinU32 u t) :=
  of_trigger _ t (0 + u.val) 16 rfl (by revert u; decide) fun _ => by fin_cases u <;> rfl

theorem intMaxU32 (u : Fin 2) (t : Trig) : Statement (.intMaxU32 u t) :=
  of_trigger _ t (0 + u.val) 17 rfl (by revert u; decide) fun _ => by fin_cases u <;> rfl

theorem intMinS64 (u : Fin 2) (t : Trig) : Statement (.intMinS64 u t) :=
  of_trigger _ t (0 + u.val) 18 rfl (by revert u; decide) fun _ => by fin_cases u <;> rfl

theorem intMaxS64 (u : Fin 2) (t : Trig) : Statement (.intMaxS64 u t) :=
  of_trigger _ t (0 + u.val) 19 rfl (by revert u; decide) fun _ => by fin_cases u <;> rfl

theorem intSel (u : Fin 2) (t : Trig) : Statement (.intSel u t) :=
  of_trigger _ t (0 + u.val) 20 rfl (by revert u; decide) fun _ => by fin_cases u <;> rfl

theorem intAbs (u : Fin 2) (t : Trig) : Statement (.intAbs u t) :=
  of_trigger _ t (0 + u.val) 21 rfl (by revert u; decide) fun _ => by fin_cases u <;> rfl

theorem intClz (u : Fin 2) (t : Trig) : Statement (.intClz u t) :=
  of_trigger _ t (0 + u.val) 22 rfl (by revert u; decide) fun _ => by fin_cases u <;> rfl

theorem intPopc (u : Fin 2) (t : Trig) : Statement (.intPopc u t) :=
  of_trigger _ t (0 + u.val) 23 rfl (by revert u; decide) fun _ => by fin_cases u <;> rfl

theorem intBrev (u : Fin 2) (t : Trig) : Statement (.intBrev u t) :=
  of_trigger _ t (0 + u.val) 24 rfl (by revert u; decide) fun _ => by fin_cases u <;> rfl

theorem intBfx (u : Fin 2) (t : Trig) : Statement (.intBfx u t) :=
  of_trigger _ t (0 + u.val) 25 rfl (by revert u; decide) fun _ => by fin_cases u <;> rfl

theorem intBfi (u : Fin 2) (t : Trig) : Statement (.intBfi u t) :=
  of_trigger _ t (0 + u.val) 26 rfl (by revert u; decide) fun _ => by fin_cases u <;> rfl

theorem intAddsatS32 (u : Fin 2) (t : Trig) : Statement (.intAddsatS32 u t) :=
  of_trigger _ t (0 + u.val) 27 rfl (by revert u; decide) fun _ => by fin_cases u <;> rfl

theorem intSubsatS32 (u : Fin 2) (t : Trig) : Statement (.intSubsatS32 u t) :=
  of_trigger _ t (0 + u.val) 28 rfl (by revert u; decide) fun _ => by fin_cases u <;> rfl

theorem intLea (u : Fin 2) (t : Trig) : Statement (.intLea u t) :=
  of_trigger _ t (0 + u.val) 29 rfl (by revert u; decide) fun _ => by fin_cases u <;> rfl

theorem intPass (u : Fin 2) (t : Trig) : Statement (.intPass u t) :=
  of_trigger _ t (0 + u.val) 30 rfl (by revert u; decide) fun _ => by fin_cases u <;> rfl

theorem mulLo (t : Trig) : Statement (.mulLo t) := of_trigger _ t 2 0 rfl (by decide) fun _ => rfl

theorem mulhiS32 (t : Trig) : Statement (.mulhiS32 t) := of_trigger _ t 2 1 rfl (by decide) fun _ => rfl

theorem mulhiU32 (t : Trig) : Statement (.mulhiU32 t) := of_trigger _ t 2 2 rfl (by decide) fun _ => rfl

theorem madLo (t : Trig) : Statement (.madLo t) := of_trigger _ t 2 3 rfl (by decide) fun _ => rfl

theorem mulwS32 (t : Trig) : Statement (.mulwS32 t) := of_trigger _ t 2 4 rfl (by decide) fun _ => rfl

theorem mulwU32 (t : Trig) : Statement (.mulwU32 t) := of_trigger _ t 2 5 rfl (by decide) fun _ => rfl

theorem mul64Lo (t : Trig) : Statement (.mul64Lo t) := of_trigger _ t 2 6 rfl (by decide) fun _ => rfl

theorem dot4S8 (t : Trig) : Statement (.dot4S8 t) := of_trigger _ t 2 7 rfl (by decide) fun _ => rfl

theorem dot2S16 (t : Trig) : Statement (.dot2S16 t) := of_trigger _ t 2 8 rfl (by decide) fun _ => rfl

theorem divU32 (t : Trig) : Statement (.divU32 t) := of_trigger _ t 2 9 rfl (by decide) fun _ => rfl

theorem divS32 (t : Trig) : Statement (.divS32 t) := of_trigger _ t 2 10 rfl (by decide) fun _ => rfl

theorem remU32 (t : Trig) : Statement (.remU32 t) := of_trigger _ t 2 11 rfl (by decide) fun _ => rfl

theorem remS32 (t : Trig) : Statement (.remS32 t) := of_trigger _ t 2 12 rfl (by decide) fun _ => rfl

theorem fmaF32 (u : Fin 2) (t : Trig) : Statement (.fmaF32 u t) :=
  of_trigger _ t (3 + u.val) 0 rfl (by revert u; decide) fun _ => by fin_cases u <;> rfl

theorem addF32 (u : Fin 2) (t : Trig) : Statement (.addF32 u t) :=
  of_trigger _ t (3 + u.val) 1 rfl (by revert u; decide) fun _ => by fin_cases u <;> rfl

theorem mulF32 (u : Fin 2) (t : Trig) : Statement (.mulF32 u t) :=
  of_trigger _ t (3 + u.val) 2 rfl (by revert u; decide) fun _ => by fin_cases u <;> rfl

theorem subF32 (u : Fin 2) (t : Trig) : Statement (.subF32 u t) :=
  of_trigger _ t (3 + u.val) 3 rfl (by revert u; decide) fun _ => by fin_cases u <;> rfl

theorem minF32 (u : Fin 2) (t : Trig) : Statement (.minF32 u t) :=
  of_trigger _ t (3 + u.val) 4 rfl (by revert u; decide) fun _ => by fin_cases u <;> rfl

theorem maxF32 (u : Fin 2) (t : Trig) : Statement (.maxF32 u t) :=
  of_trigger _ t (3 + u.val) 5 rfl (by revert u; decide) fun _ => by fin_cases u <;> rfl

theorem fmaF16x2 (u : Fin 2) (t : Trig) : Statement (.fmaF16x2 u t) :=
  of_trigger _ t (3 + u.val) 6 rfl (by revert u; decide) fun _ => by fin_cases u <;> rfl

theorem addF16x2 (u : Fin 2) (t : Trig) : Statement (.addF16x2 u t) :=
  of_trigger _ t (3 + u.val) 7 rfl (by revert u; decide) fun _ => by fin_cases u <;> rfl

theorem mulF16x2 (u : Fin 2) (t : Trig) : Statement (.mulF16x2 u t) :=
  of_trigger _ t (3 + u.val) 8 rfl (by revert u; decide) fun _ => by fin_cases u <;> rfl

theorem fmaBf16x2 (u : Fin 2) (t : Trig) : Statement (.fmaBf16x2 u t) :=
  of_trigger _ t (3 + u.val) 9 rfl (by revert u; decide) fun _ => by fin_cases u <;> rfl

theorem fmaF64 (u : Fin 2) (t : Trig) : Statement (.fmaF64 u t) :=
  of_trigger _ t (3 + u.val) 10 rfl (by revert u; decide) fun _ => by fin_cases u <;> rfl

theorem addF64 (u : Fin 2) (t : Trig) : Statement (.addF64 u t) :=
  of_trigger _ t (3 + u.val) 11 rfl (by revert u; decide) fun _ => by fin_cases u <;> rfl

theorem mulF64 (u : Fin 2) (t : Trig) : Statement (.mulF64 u t) :=
  of_trigger _ t (3 + u.val) 12 rfl (by revert u; decide) fun _ => by fin_cases u <;> rfl

theorem dot2F16F32 (u : Fin 2) (t : Trig) : Statement (.dot2F16F32 u t) :=
  of_trigger _ t (3 + u.val) 13 rfl (by revert u; decide) fun _ => by fin_cases u <;> rfl

theorem fmaSatF32 (u : Fin 2) (t : Trig) : Statement (.fmaSatF32 u t) :=
  of_trigger _ t (3 + u.val) 14 rfl (by revert u; decide) fun _ => by fin_cases u <;> rfl

theorem minF64 (u : Fin 2) (t : Trig) : Statement (.minF64 u t) :=
  of_trigger _ t (3 + u.val) 15 rfl (by revert u; decide) fun _ => by fin_cases u <;> rfl

theorem maxF64 (u : Fin 2) (t : Trig) : Statement (.maxF64 u t) :=
  of_trigger _ t (3 + u.val) 16 rfl (by revert u; decide) fun _ => by fin_cases u <;> rfl

theorem cmpEq (t : Trig) : Statement (.cmpEq t) := of_trigger _ t 5 0 rfl (by decide) fun _ => rfl

theorem cmpNe (t : Trig) : Statement (.cmpNe t) := of_trigger _ t 5 1 rfl (by decide) fun _ => rfl

theorem cmpLtS32 (t : Trig) : Statement (.cmpLtS32 t) := of_trigger _ t 5 2 rfl (by decide) fun _ => rfl

theorem cmpLeS32 (t : Trig) : Statement (.cmpLeS32 t) := of_trigger _ t 5 3 rfl (by decide) fun _ => rfl

theorem cmpLtU32 (t : Trig) : Statement (.cmpLtU32 t) := of_trigger _ t 5 4 rfl (by decide) fun _ => rfl

theorem cmpLeU32 (t : Trig) : Statement (.cmpLeU32 t) := of_trigger _ t 5 5 rfl (by decide) fun _ => rfl

theorem cmpEq64 (t : Trig) : Statement (.cmpEq64 t) := of_trigger _ t 5 6 rfl (by decide) fun _ => rfl

theorem cmpLtS64 (t : Trig) : Statement (.cmpLtS64 t) := of_trigger _ t 5 7 rfl (by decide) fun _ => rfl

theorem cmpLtU64 (t : Trig) : Statement (.cmpLtU64 t) := of_trigger _ t 5 8 rfl (by decide) fun _ => rfl

theorem cmpFeqF32 (t : Trig) : Statement (.cmpFeqF32 t) := of_trigger _ t 5 9 rfl (by decide) fun _ => rfl

theorem cmpFltF32 (t : Trig) : Statement (.cmpFltF32 t) := of_trigger _ t 5 10 rfl (by decide) fun _ => rfl

theorem cmpFleF32 (t : Trig) : Statement (.cmpFleF32 t) := of_trigger _ t 5 11 rfl (by decide) fun _ => rfl

theorem cmpFunF32 (t : Trig) : Statement (.cmpFunF32 t) := of_trigger _ t 5 12 rfl (by decide) fun _ => rfl

theorem cmpFltF64 (t : Trig) : Statement (.cmpFltF64 t) := of_trigger _ t 5 13 rfl (by decide) fun _ => rfl

theorem cmpFeqF64 (t : Trig) : Statement (.cmpFeqF64 t) := of_trigger _ t 5 14 rfl (by decide) fun _ => rfl

theorem cmpClassF32 (t : Trig) : Statement (.cmpClassF32 t) := of_trigger _ t 5 15 rfl (by decide) fun _ => rfl

theorem cmpTstz (t : Trig) : Statement (.cmpTstz t) := of_trigger _ t 5 16 rfl (by decide) fun _ => rfl

theorem cmpAny (t : Trig) : Statement (.cmpAny t) := of_trigger _ t 5 17 rfl (by decide) fun _ => rfl

theorem cmpAll (t : Trig) : Statement (.cmpAll t) := of_trigger _ t 5 18 rfl (by decide) fun _ => rfl

theorem cmpBallot (t : Trig) : Statement (.cmpBallot t) := of_trigger _ t 5 19 rfl (by decide) fun _ => rfl

theorem sfnRcp (t : Trig) : Statement (.sfnRcp t) := of_trigger _ t 6 0 rfl (by decide) fun _ => rfl

theorem sfnRsqrt (t : Trig) : Statement (.sfnRsqrt t) := of_trigger _ t 6 1 rfl (by decide) fun _ => rfl

theorem sfnSqrt (t : Trig) : Statement (.sfnSqrt t) := of_trigger _ t 6 2 rfl (by decide) fun _ => rfl

theorem sfnExp2 (t : Trig) : Statement (.sfnExp2 t) := of_trigger _ t 6 3 rfl (by decide) fun _ => rfl

theorem sfnLog2 (t : Trig) : Statement (.sfnLog2 t) := of_trigger _ t 6 4 rfl (by decide) fun _ => rfl

theorem sfnSin (t : Trig) : Statement (.sfnSin t) := of_trigger _ t 6 5 rfl (by decide) fun _ => rfl

theorem sfnCos (t : Trig) : Statement (.sfnCos t) := of_trigger _ t 6 6 rfl (by decide) fun _ => rfl

theorem sfnTanh (t : Trig) : Statement (.sfnTanh t) := of_trigger _ t 6 7 rfl (by decide) fun _ => rfl

theorem sfnDivF32 (t : Trig) : Statement (.sfnDivF32 t) := of_trigger _ t 6 8 rfl (by decide) fun _ => rfl

theorem sfnRcpF64 (t : Trig) : Statement (.sfnRcpF64 t) := of_trigger _ t 6 9 rfl (by decide) fun _ => rfl

theorem sfnSqrtF64 (t : Trig) : Statement (.sfnSqrtF64 t) := of_trigger _ t 6 10 rfl (by decide) fun _ => rfl

theorem cvtF32S32 (t : Trig) : Statement (.cvtF32S32 t) := of_trigger _ t 7 0 rfl (by decide) fun _ => rfl

theorem cvtF32U32 (t : Trig) : Statement (.cvtF32U32 t) := of_trigger _ t 7 1 rfl (by decide) fun _ => rfl

theorem cvtS32F32 (t : Trig) : Statement (.cvtS32F32 t) := of_trigger _ t 7 2 rfl (by decide) fun _ => rfl

theorem cvtU32F32 (t : Trig) : Statement (.cvtU32F32 t) := of_trigger _ t 7 3 rfl (by decide) fun _ => rfl

theorem cvtF16F32 (t : Trig) : Statement (.cvtF16F32 t) := of_trigger _ t 7 4 rfl (by decide) fun _ => rfl

theorem cvtF32F16 (t : Trig) : Statement (.cvtF32F16 t) := of_trigger _ t 7 5 rfl (by decide) fun _ => rfl

theorem cvtBf16F32 (t : Trig) : Statement (.cvtBf16F32 t) := of_trigger _ t 7 6 rfl (by decide) fun _ => rfl

theorem cvtF32Bf16 (t : Trig) : Statement (.cvtF32Bf16 t) := of_trigger _ t 7 7 rfl (by decide) fun _ => rfl

theorem cvtF64F32 (t : Trig) : Statement (.cvtF64F32 t) := of_trigger _ t 7 8 rfl (by decide) fun _ => rfl

theorem cvtF32F64 (t : Trig) : Statement (.cvtF32F64 t) := of_trigger _ t 7 9 rfl (by decide) fun _ => rfl

theorem cvtF64S64 (t : Trig) : Statement (.cvtF64S64 t) := of_trigger _ t 7 10 rfl (by decide) fun _ => rfl

theorem cvtS64F64 (t : Trig) : Statement (.cvtS64F64 t) := of_trigger _ t 7 11 rfl (by decide) fun _ => rfl

theorem cvtZbpack8 (t : Trig) : Statement (.cvtZbpack8 t) := of_trigger _ t 7 12 rfl (by decide) fun _ => rfl

theorem cvtZbunpack8 (t : Trig) : Statement (.cvtZbunpack8 t) := of_trigger _ t 7 13 rfl (by decide) fun _ => rfl

theorem cvtZbpack4 (t : Trig) : Statement (.cvtZbpack4 t) := of_trigger _ t 7 14 rfl (by decide) fun _ => rfl

theorem cvtZbunpack4 (t : Trig) : Statement (.cvtZbunpack4 t) := of_trigger _ t 7 15 rfl (by decide) fun _ => rfl

theorem cvtRoundF32 (t : Trig) : Statement (.cvtRoundF32 t) := of_trigger _ t 7 16 rfl (by decide) fun _ => rfl

theorem cvtXlaneIdx (t : Trig) : Statement (.cvtXlaneIdx t) := of_trigger _ t 7 17 rfl (by decide) fun _ => rfl

theorem cvtXlaneXor (t : Trig) : Statement (.cvtXlaneXor t) := of_trigger _ t 7 18 rfl (by decide) fun _ => rfl

theorem cvtBcast (t : Trig) : Statement (.cvtBcast t) := of_trigger _ t 7 19 rfl (by decide) fun _ => rfl

theorem cvtScanAdd (t : Trig) : Statement (.cvtScanAdd t) := of_trigger _ t 7 20 rfl (by decide) fun _ => rfl

theorem cvtRedAddF32 (t : Trig) : Statement (.cvtRedAddF32 t) := of_trigger _ t 7 21 rfl (by decide) fun _ => rfl

theorem memLdU8 (u : Fin 2) (t : Trig) : Statement (.memLdU8 u t) :=
  of_trigger _ t (8 + u.val) 0 rfl (by revert u; decide) fun _ => by fin_cases u <;> rfl

theorem memLdS8 (u : Fin 2) (t : Trig) : Statement (.memLdS8 u t) :=
  of_trigger _ t (8 + u.val) 1 rfl (by revert u; decide) fun _ => by fin_cases u <;> rfl

theorem memLdU16 (u : Fin 2) (t : Trig) : Statement (.memLdU16 u t) :=
  of_trigger _ t (8 + u.val) 2 rfl (by revert u; decide) fun _ => by fin_cases u <;> rfl

theorem memLdS16 (u : Fin 2) (t : Trig) : Statement (.memLdS16 u t) :=
  of_trigger _ t (8 + u.val) 3 rfl (by revert u; decide) fun _ => by fin_cases u <;> rfl

theorem memLd32 (u : Fin 2) (t : Trig) : Statement (.memLd32 u t) :=
  of_trigger _ t (8 + u.val) 4 rfl (by revert u; decide) fun _ => by fin_cases u <;> rfl

theorem memLd64 (u : Fin 2) (t : Trig) : Statement (.memLd64 u t) :=
  of_trigger _ t (8 + u.val) 5 rfl (by revert u; decide) fun _ => by fin_cases u <;> rfl

theorem memSt8 (u : Fin 2) (t : Trig) : Statement (.memSt8 u t) :=
  of_trigger _ t (8 + u.val) 6 rfl (by revert u; decide) fun _ => by fin_cases u <;> rfl

theorem memSt16 (u : Fin 2) (t : Trig) : Statement (.memSt16 u t) :=
  of_trigger _ t (8 + u.val) 7 rfl (by revert u; decide) fun _ => by fin_cases u <;> rfl

theorem memSt32 (u : Fin 2) (t : Trig) : Statement (.memSt32 u t) :=
  of_trigger _ t (8 + u.val) 8 rfl (by revert u; decide) fun _ => by fin_cases u <;> rfl

theorem memSt64 (u : Fin 2) (t : Trig) : Statement (.memSt64 u t) :=
  of_trigger _ t (8 + u.val) 9 rfl (by revert u; decide) fun _ => by fin_cases u <;> rfl

theorem memLdTs (u : Fin 2) (t : Trig) : Statement (.memLdTs u t) :=
  of_trigger _ t (8 + u.val) 10 rfl (by revert u; decide) fun _ => by fin_cases u <;> rfl

theorem memStTs (u : Fin 2) (t : Trig) : Statement (.memStTs u t) :=
  of_trigger _ t (8 + u.val) 11 rfl (by revert u; decide) fun _ => by fin_cases u <;> rfl

theorem memAtomAdd (u : Fin 2) (t : Trig) : Statement (.memAtomAdd u t) :=
  of_trigger _ t (8 + u.val) 12 rfl (by revert u; decide) fun _ => by fin_cases u <;> rfl

theorem memAtomAdd64 (u : Fin 2) (t : Trig) : Statement (.memAtomAdd64 u t) :=
  of_trigger _ t (8 + u.val) 13 rfl (by revert u; decide) fun _ => by fin_cases u <;> rfl

theorem memAtomMinS32 (u : Fin 2) (t : Trig) : Statement (.memAtomMinS32 u t) :=
  of_trigger _ t (8 + u.val) 14 rfl (by revert u; decide) fun _ => by fin_cases u <;> rfl

theorem memAtomMaxS32 (u : Fin 2) (t : Trig) : Statement (.memAtomMaxS32 u t) :=
  of_trigger _ t (8 + u.val) 15 rfl (by revert u; decide) fun _ => by fin_cases u <;> rfl

theorem memAtomMinU64 (u : Fin 2) (t : Trig) : Statement (.memAtomMinU64 u t) :=
  of_trigger _ t (8 + u.val) 16 rfl (by revert u; decide) fun _ => by fin_cases u <;> rfl

theorem memAtomAnd (u : Fin 2) (t : Trig) : Statement (.memAtomAnd u t) :=
  of_trigger _ t (8 + u.val) 17 rfl (by revert u; decide) fun _ => by fin_cases u <;> rfl

theorem memAtomOr (u : Fin 2) (t : Trig) : Statement (.memAtomOr u t) :=
  of_trigger _ t (8 + u.val) 18 rfl (by revert u; decide) fun _ => by fin_cases u <;> rfl

theorem memAtomXor (u : Fin 2) (t : Trig) : Statement (.memAtomXor u t) :=
  of_trigger _ t (8 + u.val) 19 rfl (by revert u; decide) fun _ => by fin_cases u <;> rfl

theorem memAtomExch (u : Fin 2) (t : Trig) : Statement (.memAtomExch u t) :=
  of_trigger _ t (8 + u.val) 20 rfl (by revert u; decide) fun _ => by fin_cases u <;> rfl

theorem memAtomExch64 (u : Fin 2) (t : Trig) : Statement (.memAtomExch64 u t) :=
  of_trigger _ t (8 + u.val) 21 rfl (by revert u; decide) fun _ => by fin_cases u <;> rfl

theorem memAtomCas (u : Fin 2) (t : Trig) : Statement (.memAtomCas u t) :=
  of_trigger _ t (8 + u.val) 22 rfl (by revert u; decide) fun _ => by fin_cases u <;> rfl

theorem memAtomCas64 (u : Fin 2) (t : Trig) : Statement (.memAtomCas64 u t) :=
  of_trigger _ t (8 + u.val) 23 rfl (by revert u; decide) fun _ => by fin_cases u <;> rfl

theorem memAtomAddF32 (u : Fin 2) (t : Trig) : Statement (.memAtomAddF32 u t) :=
  of_trigger _ t (8 + u.val) 24 rfl (by revert u; decide) fun _ => by fin_cases u <;> rfl

theorem memFence (u : Fin 2) (t : Trig) : Statement (.memFence u t) :=
  of_trigger _ t (8 + u.val) 25 rfl (by revert u; decide) fun _ => by fin_cases u <;> rfl

theorem memWaitcmp (u : Fin 2) (t : Trig) : Statement (.memWaitcmp u t) :=
  of_trigger _ t (8 + u.val) 26 rfl (by revert u; decide) fun _ => by fin_cases u <;> rfl

theorem memPrefetch (u : Fin 2) (t : Trig) : Statement (.memPrefetch u t) :=
  of_trigger _ t (8 + u.val) 27 rfl (by revert u; decide) fun _ => by fin_cases u <;> rfl

theorem memPin (u : Fin 2) (t : Trig) : Statement (.memPin u t) :=
  of_trigger _ t (8 + u.val) 28 rfl (by revert u; decide) fun _ => by fin_cases u <;> rfl

theorem memUnpin (u : Fin 2) (t : Trig) : Statement (.memUnpin u t) :=
  of_trigger _ t (8 + u.val) 29 rfl (by revert u; decide) fun _ => by fin_cases u <;> rfl

theorem memLdAcq (u : Fin 2) (t : Trig) : Statement (.memLdAcq u t) :=
  of_trigger _ t (8 + u.val) 30 rfl (by revert u; decide) fun _ => by fin_cases u <;> rfl

theorem memStRel (u : Fin 2) (t : Trig) : Statement (.memStRel u t) :=
  of_trigger _ t (8 + u.val) 31 rfl (by revert u; decide) fun _ => by fin_cases u <;> rfl

theorem memLdAcq64 (u : Fin 2) (t : Trig) : Statement (.memLdAcq64 u t) :=
  of_trigger _ t (8 + u.val) 32 rfl (by revert u; decide) fun _ => by fin_cases u <;> rfl

theorem memStRel64 (u : Fin 2) (t : Trig) : Statement (.memStRel64 u t) :=
  of_trigger _ t (8 + u.val) 33 rfl (by revert u; decide) fun _ => by fin_cases u <;> rfl

theorem memFlush (u : Fin 2) (t : Trig) : Statement (.memFlush u t) :=
  of_trigger _ t (8 + u.val) 34 rfl (by revert u; decide) fun _ => by fin_cases u <;> rfl

theorem memLdNc (u : Fin 2) (t : Trig) : Statement (.memLdNc u t) :=
  of_trigger _ t (8 + u.val) 35 rfl (by revert u; decide) fun _ => by fin_cases u <;> rfl

theorem cpCopy (t : Trig) : Statement (.cpCopy t) := of_trigger _ t 11 0 rfl (by decide) fun _ => rfl

theorem cpCopy2d (t : Trig) : Statement (.cpCopy2d t) := of_trigger _ t 11 1 rfl (by decide) fun _ => rfl

theorem cpGather (t : Trig) : Statement (.cpGather t) := of_trigger _ t 11 2 rfl (by decide) fun _ => rfl

theorem cpScatter (t : Trig) : Statement (.cpScatter t) := of_trigger _ t 11 3 rfl (by decide) fun _ => rfl

theorem cpFill (t : Trig) : Statement (.cpFill t) := of_trigger _ t 11 4 rfl (by decide) fun _ => rfl

theorem cpQuantZb8 (t : Trig) : Statement (.cpQuantZb8 t) := of_trigger _ t 11 5 rfl (by decide) fun _ => rfl

theorem cpZrlPack (t : Trig) : Statement (.cpZrlPack t) := of_trigger _ t 11 6 rfl (by decide) fun _ => rfl

theorem cpZrlUnpack (t : Trig) : Statement (.cpZrlUnpack t) := of_trigger _ t 11 7 rfl (by decide) fun _ => rfl

theorem cpStreamOpen (t : Trig) : Statement (.cpStreamOpen t) := of_trigger _ t 11 8 rfl (by decide) fun _ => rfl

theorem cpStreamClose (t : Trig) : Statement (.cpStreamClose t) := of_trigger _ t 11 9 rfl (by decide) fun _ => rfl

theorem cpBarInit (t : Trig) : Statement (.cpBarInit t) := of_trigger _ t 11 10 rfl (by decide) fun _ => rfl

theorem cpBarExpect (t : Trig) : Statement (.cpBarExpect t) := of_trigger _ t 11 11 rfl (by decide) fun _ => rfl

theorem cpBarWait (t : Trig) : Statement (.cpBarWait t) := of_trigger _ t 11 12 rfl (by decide) fun _ => rfl

theorem cpChanSend (t : Trig) : Statement (.cpChanSend t) := of_trigger _ t 11 13 rfl (by decide) fun _ => rfl

theorem cpChanRecv (t : Trig) : Statement (.cpChanRecv t) := of_trigger _ t 11 14 rfl (by decide) fun _ => rfl

theorem cpCancel (t : Trig) : Statement (.cpCancel t) := of_trigger _ t 11 15 rfl (by decide) fun _ => rfl

theorem cpPoll (t : Trig) : Statement (.cpPoll t) := of_trigger _ t 11 16 rfl (by decide) fun _ => rfl

theorem mxLdw (t : Trig) : Statement (.mxLdw t) := of_trigger _ t 10 0 rfl (by decide) fun _ => rfl

theorem mxSwap (t : Trig) : Statement (.mxSwap t) := of_trigger _ t 10 1 rfl (by decide) fun _ => rfl

theorem mxMma (t : Trig) : Statement (.mxMma t) := of_trigger _ t 10 2 rfl (by decide) fun _ => rfl

theorem mxMmaSwap (t : Trig) : Statement (.mxMmaSwap t) := of_trigger _ t 10 3 rfl (by decide) fun _ => rfl

theorem mxZero (t : Trig) : Statement (.mxZero t) := of_trigger _ t 10 4 rfl (by decide) fun _ => rfl

theorem mxDrain (t : Trig) : Statement (.mxDrain t) := of_trigger _ t 10 5 rfl (by decide) fun _ => rfl

theorem mxDrainAdd (t : Trig) : Statement (.mxDrainAdd t) := of_trigger _ t 10 6 rfl (by decide) fun _ => rfl

theorem mxDrainMax (t : Trig) : Statement (.mxDrainMax t) := of_trigger _ t 10 7 rfl (by decide) fun _ => rfl

theorem mxLdacc (t : Trig) : Statement (.mxLdacc t) := of_trigger _ t 10 8 rfl (by decide) fun _ => rfl

theorem mxScaleSet (t : Trig) : Statement (.mxScaleSet t) := of_trigger _ t 10 9 rfl (by decide) fun _ => rfl

theorem mxWait (t : Trig) : Statement (.mxWait t) := of_trigger _ t 10 10 rfl (by decide) fun _ => rfl

theorem mxRdacc (t : Trig) : Statement (.mxRdacc t) := of_trigger _ t 10 11 rfl (by decide) fun _ => rfl

theorem mxWracc (t : Trig) : Statement (.mxWracc t) := of_trigger _ t 10 12 rfl (by decide) fun _ => rfl

theorem mxMmaT (t : Trig) : Statement (.mxMmaT t) := of_trigger _ t 10 13 rfl (by decide) fun _ => rfl

theorem snapBegin (t : Trig) : Statement (.snapBegin t) := of_trigger _ t 12 0 rfl (by decide) fun _ => rfl

theorem snapBeginRo (t : Trig) : Statement (.snapBeginRo t) := of_trigger _ t 12 1 rfl (by decide) fun _ => rfl

theorem snapCommit (t : Trig) : Statement (.snapCommit t) := of_trigger _ t 12 2 rfl (by decide) fun _ => rfl

theorem snapAbort (t : Trig) : Statement (.snapAbort t) := of_trigger _ t 12 3 rfl (by decide) fun _ => rfl

theorem snapNow (t : Trig) : Statement (.snapNow t) := of_trigger _ t 12 4 rfl (by decide) fun _ => rfl

theorem snapHold (t : Trig) : Statement (.snapHold t) := of_trigger _ t 12 5 rfl (by decide) fun _ => rfl

theorem snapRelease (t : Trig) : Statement (.snapRelease t) := of_trigger _ t 12 6 rfl (by decide) fun _ => rfl

theorem snapStatus (t : Trig) : Statement (.snapStatus t) := of_trigger _ t 12 7 rfl (by decide) fun _ => rfl

theorem snapLdAt (t : Trig) : Statement (.snapLdAt t) := of_trigger _ t 12 8 rfl (by decide) fun _ => rfl

theorem tellCommit (t : Trig) : Statement (.tellCommit t) :=
  of_trigger _ t 13 0 rfl (by decide) fun h => by
    have h : t.src.isDraft = false := by simpa [Instr.wf] using h
    simp [trigInstr, h, trigRow, tellRow]

theorem tellCommitDraft (t : Trig) : Statement (.tellCommitDraft t) :=
  of_trigger _ t 13 0 rfl (by decide) fun h => by
    have h : t.src.isDraft = true := by simpa [Instr.wf] using h
    simp [trigInstr, h]

theorem tellConfirm (t : Trig) : Statement (.tellConfirm t) := of_trigger _ t 13 1 rfl (by decide) fun _ => rfl

theorem tellNext (t : Trig) : Statement (.tellNext t) := of_trigger _ t 13 2 rfl (by decide) fun _ => rfl

theorem tellArm (t : Trig) : Statement (.tellArm t) := of_trigger _ t 13 3 rfl (by decide) fun _ => rfl

theorem tellDisarm (t : Trig) : Statement (.tellDisarm t) := of_trigger _ t 13 4 rfl (by decide) fun _ => rfl

theorem tellFork (t : Trig) : Statement (.tellFork t) := of_trigger _ t 13 5 rfl (by decide) fun _ => rfl

theorem tellReset (t : Trig) : Statement (.tellReset t) := of_trigger _ t 13 6 rfl (by decide) fun _ => rfl

theorem tellNotify (t : Trig) : Statement (.tellNotify t) := of_trigger _ t 13 7 rfl (by decide) fun _ => rfl

theorem tellCount (t : Trig) : Statement (.tellCount t) := of_trigger _ t 13 8 rfl (by decide) fun _ => rfl

theorem tqPush (t : Trig) : Statement (.tqPush t) := of_trigger _ t 14 0 rfl (by decide) fun _ => rfl

theorem tqPop (t : Trig) : Statement (.tqPop t) := of_trigger _ t 14 1 rfl (by decide) fun _ => rfl

theorem tqSteal (t : Trig) : Statement (.tqSteal t) := of_trigger _ t 14 2 rfl (by decide) fun _ => rfl

theorem tqStealAny (t : Trig) : Statement (.tqStealAny t) := of_trigger _ t 14 3 rfl (by decide) fun _ => rfl

theorem tqSize (t : Trig) : Statement (.tqSize t) := of_trigger _ t 14 4 rfl (by decide) fun _ => rfl

theorem tqInit (t : Trig) : Statement (.tqInit t) := of_trigger _ t 14 5 rfl (by decide) fun _ => rfl

theorem aceMin (t : Trig) : Statement (.aceMin t) := of_trigger _ t 15 0 rfl (by decide) fun _ => rfl

theorem aceMax (t : Trig) : Statement (.aceMax t) := of_trigger _ t 15 1 rfl (by decide) fun _ => rfl

theorem aceRd (t : Trig) : Statement (.aceRd t) := of_trigger _ t 15 2 rfl (by decide) fun _ => rfl

theorem aceSet (t : Trig) : Statement (.aceSet t) := of_trigger _ t 15 3 rfl (by decide) fun _ => rfl

theorem aceWaitlt (t : Trig) : Statement (.aceWaitlt t) := of_trigger _ t 15 4 rfl (by decide) fun _ => rfl

theorem seqBr (t : Trig) : Statement (.seqBr t) := of_trigger _ t 16 0 rfl (by decide) fun _ => rfl

theorem seqBrr (t : Trig) : Statement (.seqBrr t) := of_trigger _ t 16 1 rfl (by decide) fun _ => rfl

theorem seqCall (t : Trig) : Statement (.seqCall t) := of_trigger _ t 16 2 rfl (by decide) fun _ => rfl

theorem seqCallr (t : Trig) : Statement (.seqCallr t) := of_trigger _ t 16 3 rfl (by decide) fun _ => rfl

theorem seqRet (t : Trig) : Statement (.seqRet t) := of_trigger _ t 16 4 rfl (by decide) fun _ => rfl

theorem seqLoop (t : Trig) : Statement (.seqLoop t) := of_trigger _ t 16 5 rfl (by decide) fun _ => rfl

theorem seqBrk (t : Trig) : Statement (.seqBrk t) := of_trigger _ t 16 6 rfl (by decide) fun _ => rfl

theorem seqCont (t : Trig) : Statement (.seqCont t) := of_trigger _ t 16 7 rfl (by decide) fun _ => rfl

theorem seqEnd (t : Trig) : Statement (.seqEnd t) := of_trigger _ t 16 8 rfl (by decide) fun _ => rfl

theorem seqYield (t : Trig) : Statement (.seqYield t) := of_trigger _ t 16 9 rfl (by decide) fun _ => rfl

theorem seqBar (t : Trig) : Statement (.seqBar t) := of_trigger _ t 16 10 rfl (by decide) fun _ => rfl

theorem seqBarArrive (t : Trig) : Statement (.seqBarArrive t) := of_trigger _ t 16 11 rfl (by decide) fun _ => rfl

theorem seqSetfmt (t : Trig) : Statement (.seqSetfmt t) := of_trigger _ t 16 12 rfl (by decide) fun _ => rfl

theorem seqTrap (t : Trig) : Statement (.seqTrap t) := of_trigger _ t 16 13 rfl (by decide) fun _ => rfl

theorem seqRspush (t : Trig) : Statement (.seqRspush t) := of_trigger _ t 16 14 rfl (by decide) fun _ => rfl

theorem seqRspop (t : Trig) : Statement (.seqRspop t) := of_trigger _ t 16 15 rfl (by decide) fun _ => rfl

theorem supCsrRd (t : Trig) : Statement (.supCsrRd t) := of_trigger _ t 17 0 rfl (by decide) fun _ => rfl

theorem supCsrWr (t : Trig) : Statement (.supCsrWr t) := of_trigger _ t 17 1 rfl (by decide) fun _ => rfl

theorem supTret (t : Trig) : Statement (.supTret t) := of_trigger _ t 17 2 rfl (by decide) fun _ => rfl

theorem supMark (t : Trig) : Statement (.supMark t) := of_trigger _ t 17 3 rfl (by decide) fun _ => rfl

theorem supCntRd (t : Trig) : Statement (.supCntRd t) := of_trigger _ t 17 4 rfl (by decide) fun _ => rfl

theorem supHalt (t : Trig) : Statement (.supHalt t) := of_trigger _ t 17 5 rfl (by decide) fun _ => rfl

theorem supFaultRd (t : Trig) : Statement (.supFaultRd t) := of_trigger _ t 17 6 rfl (by decide) fun _ => rfl

theorem supIcinval (t : Trig) : Statement (.supIcinval t) := of_trigger _ t 17 7 rfl (by decide) fun _ => rfl

theorem supSync (t : Trig) : Statement (.supSync t) := of_trigger _ t 17 8 rfl (by decide) fun _ => rfl

theorem barrierPhaseComplete : Statement .barrierPhaseComplete := by rintro b ⟨⟩

theorem delayExpiry : Statement .delayExpiry := by rintro b ⟨⟩

theorem yieldExpiry : Statement .yieldExpiry := by rintro b ⟨⟩

theorem progressBoost : Statement .progressBoost := by rintro b ⟨⟩

theorem laneResultFill : Statement .laneResultFill := by rintro b ⟨⟩

theorem divisionComplete : Statement .divisionComplete := by rintro b ⟨⟩

theorem sfnComplete : Statement .sfnComplete := by rintro b ⟨⟩

theorem teamRetire : Statement .teamRetire := by rintro b ⟨⟩

theorem storeQueueLeave : Statement .storeQueueLeave := by rintro b ⟨⟩

theorem writeAcknowledge : Statement .writeAcknowledge := by rintro b ⟨⟩

theorem updateApply : Statement .updateApply := by rintro b ⟨⟩

theorem loadFill : Statement .loadFill := by rintro b ⟨⟩

theorem atomicPerform : Statement .atomicPerform := by rintro b ⟨⟩

theorem fenceComplete : Statement .fenceComplete := by rintro b ⟨⟩

theorem monitorRetest : Statement .monitorRetest := by rintro b ⟨⟩

theorem monitorPoll : Statement .monitorPoll := by rintro b ⟨⟩

theorem monitorSwapOut : Statement .monitorSwapOut := by rintro b ⟨⟩

theorem tstoreArbiterPass : Statement .tstoreArbiterPass := by rintro b ⟨⟩

theorem l1Eviction : Statement .l1Eviction := by rintro b ⟨⟩

theorem l2Eviction : Statement .l2Eviction := by rintro b ⟨⟩

theorem tableWalk : Statement .tableWalk := by rintro b ⟨⟩

theorem translationFault : Statement .translationFault := by rintro b ⟨⟩

theorem faultQueueRetry : Statement .faultQueueRetry := by rintro b ⟨⟩

theorem pageRequestTimeout : Statement .pageRequestTimeout := by rintro b ⟨⟩

theorem quarantineRelease : Statement .quarantineRelease := by rintro b ⟨⟩

theorem eccError : Statement .eccError := by rintro b ⟨⟩

theorem jobBegin : Statement .jobBegin := by rintro b ⟨⟩

theorem copyCursorAdvance : Statement .copyCursorAdvance := by rintro b ⟨⟩

theorem copyJobComplete : Statement .copyJobComplete := by rintro b ⟨⟩

theorem barDecrement : Statement .barDecrement := by rintro b ⟨⟩

theorem streamRowWrite : Statement .streamRowWrite := by rintro b ⟨⟩

theorem chanMessageDelivery : Statement .chanMessageDelivery := by rintro b ⟨⟩

theorem chanPoolRetry : Statement .chanPoolRetry := by rintro b ⟨⟩

theorem mxRowApply : Statement .mxRowApply := by rintro b ⟨⟩

theorem mxJobComplete : Statement .mxJobComplete := by rintro b ⟨⟩

theorem drainUpdatePerform : Statement .drainUpdatePerform := by rintro b ⟨⟩

theorem arrayWaitExpiry : Statement .arrayWaitExpiry := by rintro b ⟨⟩

theorem fmaPairIdle : Statement .fmaPairIdle := by rintro b ⟨⟩

theorem commitTurn : Statement .commitTurn := by rintro b ⟨⟩

theorem commitPublish : Statement .commitPublish := by rintro b ⟨⟩

theorem autoCommit : Statement .autoCommit := by rintro b ⟨⟩

theorem heapWaitExpiry : Statement .heapWaitExpiry := by rintro b ⟨⟩

theorem lichenReclaim : Statement .lichenReclaim := by rintro b ⟨⟩

theorem homeOperationPerform : Statement .homeOperationPerform := by rintro b ⟨⟩

theorem teamPlacement : Statement .teamPlacement := by rintro b ⟨⟩

theorem aceBroadcastApply : Statement .aceBroadcastApply := by rintro b ⟨⟩

theorem flitArrival : Statement .flitArrival := by rintro b ⟨⟩

theorem flitInjection : Statement .flitInjection := by rintro b ⟨⟩

theorem overflowMove : Statement .overflowMove := by rintro b ⟨⟩

theorem creditReturn : Statement .creditReturn := by rintro b ⟨⟩

theorem ageTick : Statement .ageTick := by rintro b ⟨⟩

theorem throttleUpdate : Statement .throttleUpdate := by rintro b ⟨⟩

theorem goldenEpoch : Statement .goldenEpoch := by rintro b ⟨⟩

theorem reassemblyTimeout : Statement .reassemblyTimeout := by rintro b ⟨⟩

theorem linkFrameReceive : Statement .linkFrameReceive := by rintro b ⟨⟩

theorem systemTimeStep : Statement .systemTimeStep := by rintro b ⟨⟩

theorem systemTimeSlew : Statement .systemTimeSlew := by rintro b ⟨⟩

theorem peerAccess : Statement .peerAccess := by rintro b ⟨⟩

theorem hostWrite : Statement .hostWrite := by rintro b ⟨⟩

theorem hostRead : Statement .hostRead := by rintro b ⟨⟩

theorem hostAtomic : Statement .hostAtomic := by rintro b ⟨⟩

theorem doorbellWrite : Statement .doorbellWrite := by rintro b ⟨⟩

theorem commandComplete : Statement .commandComplete := by rintro b ⟨⟩

theorem launchProgressUpdate : Statement .launchProgressUpdate := by rintro b ⟨⟩

theorem exportTimeout : Statement .exportTimeout := by rintro b ⟨⟩

theorem permitBackoffExpiry : Statement .permitBackoffExpiry := by rintro b ⟨⟩

theorem serviceTimeout : Statement .serviceTimeout := by rintro b ⟨⟩

theorem teamWatchdog : Statement .teamWatchdog := by rintro b ⟨⟩

theorem waitGraphScan : Statement .waitGraphScan := by rintro b ⟨⟩

theorem preemptionRequest : Statement .preemptionRequest := by rintro b ⟨⟩

theorem haltEdge : Statement .haltEdge := by rintro b ⟨⟩

theorem deviceReset : Statement .deviceReset := by rintro b ⟨⟩

theorem firmwareBoot : Statement .firmwareBoot := by rintro b ⟨⟩

theorem loadImage : Statement .loadImage := by rintro b ⟨⟩

theorem unloadImage : Statement .unloadImage := by rintro b ⟨⟩

theorem launch : Statement .launch := by rintro b ⟨⟩

theorem kill : Statement .kill := by rintro b ⟨⟩

theorem ctxCreate : Statement .ctxCreate := by rintro b ⟨⟩

theorem ctxDestroy : Statement .ctxDestroy := by rintro b ⟨⟩

theorem ctxConfig : Statement .ctxConfig := by rintro b ⟨⟩

theorem inval : Statement .inval := by rintro b ⟨⟩

theorem pageReply : Statement .pageReply := by rintro b ⟨⟩

theorem pageMove : Statement .pageMove := by rintro b ⟨⟩

theorem grant : Statement .grant := by rintro b ⟨⟩

theorem grantRevoke : Statement .grantRevoke := by rintro b ⟨⟩

theorem switchPreempt : Statement .switchPreempt := by rintro b ⟨⟩

theorem switchResume : Statement .switchResume := by rintro b ⟨⟩

theorem debugTake : Statement .debugTake := by rintro b ⟨⟩

theorem debugGive : Statement .debugGive := by rintro b ⟨⟩

theorem debugRevoke : Statement .debugRevoke := by rintro b ⟨⟩

theorem debugHalt : Statement .debugHalt := by rintro b ⟨⟩

theorem debugResume : Statement .debugResume := by rintro b ⟨⟩

theorem debugRead : Statement .debugRead := by rintro b ⟨⟩

theorem debugWrite : Statement .debugWrite := by rintro b ⟨⟩

theorem debugLog : Statement .debugLog := by rintro b ⟨⟩

theorem attest : Statement .attest := by rintro b ⟨⟩

theorem attestCertificate : Statement .attestCertificate := by rintro b ⟨⟩

theorem reinstall : Statement .reinstall := by rintro b ⟨⟩

theorem ctxExport : Statement .ctxExport := by rintro b ⟨⟩

theorem ctxImport : Statement .ctxImport := by rintro b ⟨⟩

theorem devConfigDevice : Statement .devConfigDevice := by rintro b ⟨⟩

theorem devConfigPartition : Statement .devConfigPartition := by rintro b ⟨⟩

theorem devConfigHostWindow : Statement .devConfigHostWindow := by rintro b ⟨⟩

theorem devConfigPeerWindow : Statement .devConfigPeerWindow := by rintro b ⟨⟩

theorem verOpen : Statement .verOpen := by rintro b ⟨⟩

theorem queryDeviceMap : Statement .queryDeviceMap := by rintro b ⟨⟩

theorem queryConfig : Statement .queryConfig := by rintro b ⟨⟩

theorem queryPartition : Statement .queryPartition := by rintro b ⟨⟩

theorem queryEvsel : Statement .queryEvsel := by rintro b ⟨⟩

theorem pmcSet : Statement .pmcSet := by rintro b ⟨⟩

theorem handlerEntryDelayExpiry : Statement .handlerEntryDelayExpiry := by rintro b ⟨⟩

theorem saveEnd : Statement .saveEnd := by rintro b ⟨⟩

theorem lossOfPower : Statement .lossOfPower := by rintro b ⟨⟩


end Sys2Proof.Laws.Encoding
end

