-- ==== Sys2Proof/Tests/Scenes.lean ====
section
/-! SUPPORT. Small states for the tests and for the witnesses of the statements: a device with one team of one warp in clk 10,
and the ways to change it. -/

namespace Sys2Proof.Tests
open Sys2Proof Sys2Proof.Machine

/-- The only warp. -/
def w0 : WRef := { team := 1, warp := 0 }

/-- A device whose team 1 has one warp, at the entry of image 1, in context 1. -/
def base : State := { State.reset.placeBundle [] with clk := 10, nextId := 5, agenda := [] }

/-- A trigger that every active lane performs, which reads register 1. -/
def trig : Trig := { g := 15, ng := false, src := .port 1 }

/-- The warp of `base` issues, changed. -/
def issueOf (f : Warp → Warp) : State := { base.modWarp w0 f with issuing := some w0 }

def theTeam (s : State) (n : Nat) : Team := (s.team? n).getD (wordTeam s)
def theWarp (s : State) : Warp := (s.warp? w0).getD (startWarp s wordLaunch wordImage 0 0 0 0 (0, 0, 64))
def theCtx (s : State) (n : Nat) : Context := (s.context? n).getD wordContext

/-- What a warp chooses, and the scene of the issue of a trigger. -/
def choiceOf (s : State) (x : Warp) : Choice := (x.chooseAt s.clk).getD { pc := 0, active := [], cand := [], half := 0 }
def scene (s : State) (t : Trig) : Scene :=
  let x := theWarp s
  { w := w0, tm := theTeam s 1, x := x, c := choiceOf s x, r := (loneSource s (theTeam s 1) x t.src).getD (.imm 0),
    ls := (choiceOf s x).active.filter (takesPart x t.g t.ng) }

/-- Can the scene of a trigger be made: what it names is there, its lanes can read, and no port is poisoned? -/
def ready (s : State) (t : Trig) : Bool :=
  let k := scene s t
  decide (s.issuing = some w0) && (s.team? 1).isSome && (s.warp? w0).isSome && (k.x.chooseAt s.clk).isSome &&
    (loneSource s k.tm k.x t.src).isSome && !k.ls.isEmpty && k.ls.all (readable k.x k.r) && decide (k.x.poison = [])

theorem some_getD {α : Type} {o : Option α} (d : α) (h : o.isSome = true) : o = some (o.getD d) := by
  cases o with
  | none => cases h
  | some v => rfl

theorem scene_of {s : State} {t : Trig} {u n : Nat} (h : ready s t = true) : (scene s t).Of s t u n := by
  simp only [ready, Bool.and_eq_true, decide_eq_true_eq, Bool.not_eq_true', List.isEmpty_eq_false_iff, List.all_eq_true] at h
  obtain ⟨⟨⟨⟨⟨⟨⟨h1, h2⟩, h3⟩, h4⟩, h5⟩, h6⟩, h7⟩, h8⟩ := h
  exact ⟨h1, some_getD _ h2, some_getD _ h3, some_getD _ h4, some_getD _ h5, rfl, h6, h7, fun _ _ _ _ _ => by rw [h8]; rfl⟩

/-- Words by lane. -/
def by32 (l : List Nat) (n : Nat) : W32 := BitVec.ofNat 32 (l.getD n 0)
def by64 (l : List Nat) (n : Nat) : W64 := BitVec.ofNat 64 (l.getD n 0)
def n64 (n : Nat) : W64 := BitVec.ofNat 64 n

/-- Register 1 of each lane; lanes 0 to 2 stand at address 0x20, the others at 0x40. -/
def withRegs (v : List Nat) (x : Warp) : Warp :=
  { x with lanes := mapIdx (fun l (y : Lane) => { y with regs := y.regs.insert 1 (by32 v l), pc := if l < 3 then 0x20 else 0x40 }) x.lanes }

/-- Operands of a unit, by offset, for lanes 0 to 3. -/
def withPorts (u : Nat) (ps : List (Nat × List Nat)) (x : Warp) : Warp :=
  foldOver (fun x l => foldOver (fun (x : Warp) (p : Nat × List Nat) => x.modUnit u fun q => q.setOperand p.1 l (by64 p.2 l)) x ps) x
    (List.range 4)

/-- A scene of a trigger of unit `u`, from register 1 and the operands. -/
def trigState (u : Nat) (v : List Nat) (ps : List (Nat × List Nat)) (f : Warp → Warp := id) : State :=
  issueOf fun x => f (withPorts u ps (withRegs v x))

/-! ## Operations in flight -/

def unfilled : Elem := { val := 0, filled := false, tag := 0 }
def placeAt (pa : Nat) : Place := { tgt := 0, dev := 0, pa := pa, grain := 32, ver := false, wr := true, wr1 := true }
def anItem (l a b : Nat) (st : Stage) (pl : Option Place) (trip : Nat) : Item :=
  { lane := l, a := n64 a, b := n64 b, c := 0, m := 0, stage := st, place := pl, epoch := 0, trip := trip, filled := false, extra := [],
    lost := false, spoiled := false }
def anOp (u n : Nat) (items : List Item) : Op :=
  { id := 3, unit := u, opc := n, mode := 0, pc := 0x20, clk := 3, items := items, info := [] }

/-- Operation `o` of the warp is in flight, its lanes' results unfilled. -/
def withOp (o : Op) (x : Warp) : Warp :=
  { x with ops := [o] }.modUnit o.unit fun q =>
    { q with
      last := foldOver (fun (m : FMap Nat) (i : Item) => m.insert i.lane o.id) q.last o.items
      y := foldOver (fun (m : FMap Elem) (i : Item) => m.insert i.lane unfilled) q.y o.items }

/-- A step acts on lane `l` of operation `o`, which is in flight in a state. -/
def laneOn (s : State) (o : Op) (l : Nat) : State := { s.modWarp w0 (withOp o) with subject := .op w0 o.id l }

/-- The lane of an operation that a step acts on. -/
def lanePick (s : State) (o : Op) (i : Item) : Pick := { w := w0, warp := theWarp s, op := o, item := i }

/-- Can a step act on the lane? -/
def laneReady (s : State) (o : Op) (i : Item) : Bool :=
  let x := theWarp s
  decide (s.subject = .op w0 o.id i.lane) && (s.warp? w0).isSome && decide (x.op? o.id = some o) && decide (o.item? i.lane = some i) &&
    ((lanePick s o i).goesOn s && (decide (x.ops.map Op.id).Nodup && (decide (o.items.map Item.lane).Nodup &&
      (decide (i.lost = false) && decide (x.halted = none)))))

/-! Conjunctions whose first clauses are decided together. -/

theorem also3 {a b c u : Prop} (h : a ∧ b ∧ c) (hu : u) : a ∧ b ∧ c ∧ u := by
  simpa only [and_assoc] using And.intro h hu
theorem also4 {a b c d u : Prop} (h : a ∧ b ∧ c ∧ d) (hu : u) : a ∧ b ∧ c ∧ d ∧ u := by
  simpa only [and_assoc] using And.intro h hu
theorem also5 {a b c d e u : Prop} (h : a ∧ b ∧ c ∧ d ∧ e) (hu : u) : a ∧ b ∧ c ∧ d ∧ e ∧ u := by
  simpa only [and_assoc] using And.intro h hu
theorem also6 {a b c d e f u : Prop} (h : a ∧ b ∧ c ∧ d ∧ e ∧ f) (hu : u) : a ∧ b ∧ c ∧ d ∧ e ∧ f ∧ u := by
  simpa only [and_assoc] using And.intro h hu

theorem on_lane {s : State} {o : Op} {i : Item} (h : laneReady s o i = true) : OnLane s (lanePick s o i) := by
  simp only [laneReady, Bool.and_eq_true, decide_eq_true_eq] at h
  obtain ⟨⟨⟨⟨h1, h2⟩, h3⟩, h4⟩, h5, h6, h7, h8, h9⟩ := h
  refine ⟨?_, h5, h6, h7, h8, h9⟩
  have e : s.warp? w0 = some (theWarp s) := some_getD _ h2
  simp [pickItem, h1, e, h3, h4, lanePick]

/-- A job of the team. -/
def aJob (u n : Nat) : Job :=
  { id := 3, trig := 2, warp := 0, unit := u, opc := n, lane := 0, lanes := 1, a := 0, b := 0, c := 0, mode := 0, data := .empty,
    core := 0, regions := [], wregions := [], begun := false, cursor := 0, acc := 0, written := 0, counted := 0, total := 0, bar := 0,
    final := false, stage := .go, epoch := 0, status := 0, tag := 0, ending := false, cancel := false, pos := 0, pos2 := 0, held := [],
    old := .empty, rows := [], at_ := 0, fetch := .empty }
def jobState (b : Job) (f : State → State := id) : State :=
  { f (base.modTeam 1 fun t => { t with jobs := [b] }) with subject := .pair 1 b.id }

/-- A stream binding of job 9: three elements of 4 bytes, none written. -/
def aStream : Stream := { job := 9, off := 0, rows := 1, esz := 4, count := 3, written := 0, failed := none, reads := .empty, given := .empty }

/-- A store on its way, its update for another core, a sector in an L1, a load of 8 bytes. -/
def anUpdate : Update := { core := 0, line := 0x48, seqno := 6, bytes := [(0x9008, 0xAA)], write := 9, arrived := true }
def aWrite : MemWrite :=
  { core := 0, warp := none, op := 0, bytes := [(0x9008, 1)], tgt := 0, dev := 0, arrived := true, performed := true, seqno := 9, epoch := 0,
    line := 0x48, lost := false, ack := 0, bad := [], also := [] }
def withSector (s : State) : State :=
  s.modCore 0 fun k => { k with l1 := k.l1.insert 0x480 { bytes := List.replicate 32 5, grain := 32, nc := false, remote := false } }
def ldItem (trip : Nat) : Item := anItem 1 0x9018 0 .go (some (placeAt 0x9018)) trip

/-! ## Lookups -/

/-- Is a result an error? -/
def failed {ε α : Type} (r : Except ε α) : Bool :=
  match r with
  | .ok _ => false
  | .error _ => true

theorem never_ok {ε α : Type} {r : Except ε α} (h : failed r = true) : ∀ v, r ≠ .ok v := by
  intro v e
  rw [e] at h
  cases h

theorem of_none {α : Type} {o : Option α} {P : α → Prop} (h : o = none) : ∀ v, o = some v → P v := by
  intro v e
  rw [h] at e
  cases e

theorem of_some {α : Type} {o : Option α} {P : α → Prop} {v : α} (h : o = some v) (p : P v) : ∀ v, o = some v → P v := by
  intro x e
  rw [h] at e
  cases e
  exact p

theorem of_one {α : Type} {l : List α} {x : α} {P : Nat → α → Prop} (h : l = [x]) (p : P 0 x) : ∀ i v, l[i]? = some v → P i v := by
  intro i v e
  rw [h] at e
  cases i with
  | zero => cases e; exact p
  | succ n => cases e

/-- What holds of a lane without state and of every lane of a warp holds of all lane numbers. -/
theorem all_lanes {x : Warp} {p : Lane → Bool} (h : (p Lane.none && x.lanes.all p) = true) : ∀ l, p (x.lane l) = true := by
  intro l
  rw [Bool.and_eq_true, List.all_eq_true] at h
  rw [Warp.lane, List.getD_eq_getElem?_getD]
  cases e : x.lanes[l]? with
  | none => exact h.1
  | some y => exact h.2 y (List.mem_of_getElem? e)

/-- A wait for a value of 8 bytes that differs from `b` (spec/05_memory_ports.md R212). -/
theorem wait_ne {c v b : Nat} : (c % 8 = 5 ∧ v ≠ b → waitHolds c v b) ∧ (c % 8 = 5 ∧ v = b → ¬ waitHolds c v b) := by
  have e : c % 8 = 5 → (waitHolds c v b ↔ v ≠ b) := by
    intro h
    have h4 : c % 4 = 1 := by omega
    have h2 : c / 4 % 2 = 1 := by omega
    simp [waitHolds, h4, h2]
  exact ⟨fun h => (e h.1).mpr h.2, fun h k => (e h.1).mp k h.2⟩

/-! ## Memory and translation -/

/-- Words of memory, by address. -/
def withWords (l : List (Nat × Nat)) (s : State) : State :=
  s.modMem fun m => foldOver (fun (m : Mem) (e : Nat × Nat) => m.writeList (atAddr e.1 (wordBytes 8 (n64 e.2)))) m l
def wordsFrom (a : Nat) (ws : List Nat) : State → State := withWords (mapIdx (fun i w => (a + 8 * i, w)) ws)
def modCtx1 (f : Context → Context) (s : State) : State := s.modLdr fun l => { l with contexts := l.contexts.modify 1 f }
def withCfg (k v : Nat) : State → State := modCtx1 fun c => { c with cfg := c.cfg.set k (n64 v) }

/-- The context's tables map pages below 2 MiB, by page and leaf entry. -/
def withPages (l : List (Nat × Nat)) (s : State) : State :=
  withCfg 7 0x100000
    (withWords
      ([(0x100000, 0x101001), (0x101000, 0x102001), (0x102000, 0x103001), (0x103000, 0x104001)] ++
        l.map fun e => (0x104000 + 8 * e.1, e.2)) s)

/-- A leaf entry of a plain page that may be read and written. -/
def leafOf (frame : Nat) : Nat := frame * 4096 + 7

/-! ## Commands -/

def aCmd (ctx : Nat) (w : List Nat) : Cmd :=
  let f := fun k => n64 (w.getD k 0)
  { fence := false, irq := false, ctx := BitVec.ofNat 16 ctx, tag := 7, w1 := f 0, w2 := f 1, w3 := f 2, w4 := f 3, w5 := f 4, w6 := f 5,
    w7 := f 6 }
def aRun (i : Instr) (c : Cmd) (func : Nat) (st : CmdState) (info : List Nat) : CmdRun :=
  { queue := 4, func := func, entry := encodeCommand ((commandCode i).getD 0) c, state := st, cur0 := 9, cur1 := 0, clkIn := 3,
    clkOut := 0, info := info }

/-- Command 5 acts in a state. -/
def acts (s : State) (i : Instr) (c : Cmd) (func : Nat) (st : CmdState) (info : List Nat) : State :=
  { s with curCmd := some 5, ldr := { s.ldr with journal := s.ldr.journal.insert 5 (aRun i c func st info) } }
def acting (i : Instr) (c : Cmd) (func : Nat) (st : CmdState) (info : List Nat) : Acting :=
  { j := 5, run := aRun i c func st info, cmd := c }

/-- A command for context 1, and the launch has ended. -/
def cmdAct (i : Instr) (w : List Nat) (st : CmdState) (info : List Nat) (s : State) : State := acts s i (aCmd 1 w) 64 st info
def cmdRun (i : Instr) (w : List Nat) (st : CmdState) (info : List Nat) : Acting := acting i (aCmd 1 w) 64 st info
def launchDone (s : State) : State := s.modLdr fun l => { l with launches := l.launches.modify 1 fun x => { x with state := .ended 0 } }

/-- A second context, of function 3. -/
def withCtx2 (s : State) : State :=
  s.modLdr fun l => { l with contexts := l.contexts.insert 2 (newContext 3 [8, 0, 0, 7, 0x52903000, 0, 0, 0]) }

/-! ## Engines -/

def modSnap (f : SnapState → SnapState) (s : State) : State := { s with eng := { s.eng with snap := f s.eng.snap } }
def modFab (f : Fabric → Fabric) (s : State) : State := { s with eng := { s.eng with fab := f s.eng.fab } }

/-- 2^12 lines of heap. -/
def withHeap (s : State) : State := s.modLdr fun l => { l with device := l.device.set 2 (n64 (1 + 12 * 2 ^ 32)) }
def someBytes : FMap Byte := FMap.empty.insert 0 4 |>.insert 511 8
def aTxn (ro : Bool) (doom : Option Nat) (lines : List Nat) : Txn :=
  { id := 2, time := 5, held := none, ro := ro, doom := doom,
    lines := foldOver (fun (m : FMap TxnLine) n => m.insert n { va := n * 512, pa := n * 512, bytes := someBytes }) .empty lines }

/-! ## What a command needs -/

def cmdReady (s : State) (a : Acting) : Bool :=
  decide (s.curCmd = some a.j) && (decide (s.ldr.journal.find? a.j = some a.run) && (decide (a.cmd = cmdOfBytes a.run.entry) &&
    (decide (a.run.state = .accepted ∨ a.run.state = .running) && mayAct s a.j a.run)))

theorem on_command {s : State} {a : Acting} (h : cmdReady s a = true) : OnCommand s a := by
  simp only [cmdReady, Bool.and_eq_true, decide_eq_true_eq] at h
  exact ⟨h.1, h.2.1, h.2.2.1, h.2.2.2.1, h.2.2.2.2⟩

theorem on_context {s : State} {a : Acting} {c : Context}
    (h : cmdReady s a = true ∧ s.context? (ctxNamed a) = some c ∧ c.func = a.run.func) : OnContext s a c :=
  ⟨on_command h.1, h.2.1, h.2.2⟩

theorem on_function {s : State} {a : Acting} (h : cmdReady s a = true ∧ a.cmd.ctx = 0) : OnFunction s a := ⟨on_command h.1, h.2⟩

theorem owns {s : State} {a : Acting} (h : (s.context? (ctxNamed a)).any (fun c => decide (c.func = a.run.func)) = true) : Owns s a := by
  cases e : s.context? (ctxNamed a) with
  | none => rw [e] at h; cases h
  | some c => rw [e] at h; exact ⟨c, e, of_decide_eq_true h⟩

theorem not_owns {s : State} {a : Acting} (h : (s.context? (ctxNamed a)).all (fun c => decide (c.func ≠ a.run.func)) = true) :
    ¬ Owns s a := by
  rintro ⟨c, e, f⟩
  rw [e] at h
  exact (of_decide_eq_true h : c.func ≠ a.run.func) f

/-! ## Flits, handlers, rungs -/

def aFlit (r : Nat) : Flit := { msg := 7, seqno := 1, age := 3, router := r, input := 2, own := true }
def aMsg (dst nflit : Nat) : Message :=
  { src := 9, srcEp := 1, dst := dst, dstEp := 1, cls := 0, ctx := 0, msgid := 5, nflit := nflit, purpose := .transit, xd := false, sdev := 0,
    ddev := 0, toSend := [1, 2], arrived := [], overflow := [], inbound := false, core := none, firstAt := none, lost := false, bad := [],
    outAt := 0 }
def withRouter (r : Nat) (x : Router) : State → State := modFab fun b => { b with routers := FMap.empty.insert r x }
/-- A flit of message 7 arrives in a router. -/
def flitState (r : Nat) (m : Message) (taken : List Nat) : State :=
  { withRouter r { Router.start with taken := taken, own := 3 }
      (modFab (fun b => { b with flits := [aFlit 40, aFlit r], messages := FMap.empty.insert 7 m }) base) with
    subject := .num r }
def aTrapOf (r : Nat) : TrapRec :=
  { code := 1, rung := r, cls := 0, faultMask := 0, laneMask := 0, clk := 3, detail := .empty, timeoutRung := 0 }
def aHandler (r served : Nat) : Handler :=
  { rung := r, lanes := 0xF, held := 0, tpc := .empty, guards := [], ports := .empty, poison := [], trap := aTrapOf r, reads := [], served := served }

def fitsAt (s : State) (t : Team) (x : Warp) (q : TrapReq) (r : Nat) : Bool :=
  decide (q.from_ ≤ r) && (decide (q.code ≠ 0x3F → entryRung s t.ctx q.code ≤ r) && ((x.handlers.head?).all (fun h => decide (h.rung < r)) &&
    decide (r ≤ 1 → tvec s t.ctx q.pc r ≠ 0)))

theorem fits_iff {s : State} {t : Team} {x : Warp} {q : TrapReq} {r : Nat} : fitsAt s t x q r = true ↔ RungFits s t x q r := by
  have e : (x.handlers.head?).all (fun h => decide (h.rung < r)) = true ↔ ∀ h rest, x.handlers = h :: rest → h.rung < r := by
    cases x.handlers with
    | nil => simp
    | cons a l => simp
  simp only [fitsAt, RungFits, Bool.and_eq_true, decide_eq_true_eq, e]

theorem enters_at {s : State} {t : Team} {x : Warp} {q : TrapReq} {r : Nat}
    (h : (fitsAt s t x q r && (List.range r).all fun j => !fitsAt s t x q j) = true) : EntersAt s t x q r := by
  simp only [Bool.and_eq_true, List.all_eq_true, List.mem_range, Bool.not_eq_true', ← Bool.not_eq_true, fits_iff] at h
  exact h

/-! ## Results of a step -/

/-- The state after, where there is one. -/
def nextOf (o : Host.Outcome State Fault Refusal) (d : State) : State :=
  match o with
  | .next s => s
  | _ => d
def goesOn (o : Host.Outcome State Fault Refusal) : Bool :=
  match o with
  | .next _ => true
  | _ => false
theorem next_of {o : Host.Outcome State Fault Refusal} {d : State} (h : goesOn o = true) : o = .next (nextOf o d) := by
  cases o with
  | next s => rfl
  | fault r => cases h
  | refused r => cases h
theorem pair_of {α β : Type} {p : α × β} {a : α} (h : p.1 = a) : p = (a, p.2) := by rw [← h]

def after (i : Instr) (s : State) : State := nextOf (exec i s) s

/-- A warp that may be picked. -/
def noCand : Cand :=
  { w := w0, slot := 0, prio := 0, boost := false, readyWait := 0, act := .run .haltEdge, issuable := false, picks := false, needs := false }
def aCand (team slot prio : Nat) (boost : Bool) (wait : Nat) : Cand :=
  { noCand with w := { team := team, warp := 0 }, slot := slot, prio := prio, boost := boost, readyWait := wait }

end Sys2Proof.Tests
end

