-- ==== Sys2Proof/Tests/Slice0.lean ====
section
/-! SUPPORT. Tests: what well-formedness refuses, words written out from the spec's encodings with the instructions they stand for, and
single steps whose results the spec's examples and rules give. -/

namespace Sys2Proof.Tests
open Sys2Proof Sys2Proof.Machine

set_option Elab.async false

/-! ## What well-formedness refuses -/

/-- A move of immediate 3 to a port. -/
def mv (dst : BitVec 13) : Move := { g := 15, ng := false, dst := dst, src := .imm 3 }
/-- A bundle of moves to v1, v2, … that is well formed as it stands. -/
def okBundle (n : Nat) : Bundle :=
  { sw := false, d := 0, lv := 0, im := 0, moves := (List.range n).map fun k => mv (BitVec.ofNat 13 (k + 1)), slot5 := .none }
def reads (s : MSrc) : Bundle := { okBundle 0 with moves := [{ mv 1 with src := s }, mv 2] }

theorem test_wf_plain_bundle : (Instr.bundleIssue (okBundle 6)).wf = true := by decide
theorem test_wf_loop_level : (Instr.bundleIssue { okBundle 2 with lv := 6, im := 1 }).wf = false := by decide
theorem test_wf_level_without_mode : (Instr.bundleIssue { okBundle 2 with lv := 1, im := 0 }).wf = false := by decide
theorem test_wf_seven_moves : (Instr.bundleIssue (okBundle 7)).wf = false := by decide
theorem test_wf_six_moves_beside_constant : (Instr.bundleIssue { okBundle 6 with slot5 := .const 9 }).wf = false := by decide
theorem test_wf_constant_without_slot : (Instr.bundleIssue (reads .const)).wf = false := by decide
theorem test_wf_constant_beside_configuration : (Instr.bundleIssue { reads .const with slot5 := .cfg 0 0 0 }).wf = false := by decide
theorem test_wf_same_port_twice : (Instr.bundleIssue { okBundle 0 with moves := [mv 4, mv 4] }).wf = false := by decide
theorem test_wf_pair_and_its_register : (Instr.bundleIssue { okBundle 0 with moves := [mv 0x1004, mv 5] }).wf = false := by decide
theorem test_wf_unit_triggered_twice : (Instr.bundleIssue { okBundle 0 with moves := [mv 0x240, mv 0x241] }).wf = false := by decide
theorem test_wf_lone_trigger_is_its_own_row : (Instr.bundleIssue { okBundle 0 with moves := [mv 0x240] }).wf = false := by decide
theorem test_wf_stream_read_to_trigger : (Instr.streamPortRead 0 15 false 0x240).wf = false := by decide
theorem test_wf_stream_read_to_flags : (Instr.streamPortRead 7 15 false 0x18E).wf = false := by decide
theorem test_wf_draft_without_its_bit : (Instr.tellCommitDraft { g := 15, ng := false, src := .const 0 }).wf = false := by decide
theorem test_wf_commit_with_draft_bit : (Instr.tellCommit { g := 15, ng := false, src := .const 0x1000000 }).wf = false := by decide
theorem test_wf_command_with_unused_word : Instr.kill.operandsOk (aCmd 1 [1, 2]) = false := by decide
theorem test_wf_command_with_odd_record : Instr.kill.operandsOk (aCmd 1 [1, 0, 0, 0, 0, 0, 8]) = false := by decide
theorem test_wf_command_of_another_kind : Instr.grant.operandsOk (aCmd 1 [0, 0, 1, 1]) = false := by decide

/-! ## Words of the spec's encodings (spec/02_bundles_and_ports.md R73 to R77, R79, R86)

A lone trigger is the header 0x0010 and one slot: G = 15, DST = the unit's block + 0x40 + opcode, K = 0b00, SRC = v1. -/

def atV1 : Trig := { g := 15, ng := false, src := .port 1 }
/-- Does every slot word, alone in its bundle, decode to its instruction? -/
def slotsDecode (l : List (Nat × Instr)) : Bool := l.all fun e => decide (decodeTableWord 256 (0x0010 + e.1 * 2 ^ 16) = some e.2)
/-- Does every command decode, from its code and its operand words, with CTX = 1 and the record at 0x2000 (spec/13_loader.md R470, R471)? -/
def commandsDecode (l : List (Nat × List Nat × Instr)) : Bool :=
  l.all fun e =>
    let operands := foldOver (fun n (p : Nat × Nat) => n + p.2 * 2 ^ (64 * (p.1 + 1))) 0 (mapIdx (fun k w => (k, w)) e.2.1)
    decide (decodeTableWord 512 (e.1 * 2 ^ 56 + 2 ^ 32 + 0x55 + operands + 0x2000 * 2 ^ 448) = some e.2.2)

theorem test_decode_int0 :
    slotsDecode
      [(0xF090000001, .intAdd 0 atV1), (0xF090400001, .intSub 0 atV1), (0xF090800001, .intAdd64 0 atV1), (0xF090C00001, .intSub64 0 atV1),
        (0xF091000001, .intAnd 0 atV1), (0xF091400001, .intOr 0 atV1), (0xF091800001, .intXor 0 atV1), (0xF091C00001, .intAndn 0 atV1),
        (0xF092000001, .intShl 0 atV1), (0xF092400001, .intShr 0 atV1), (0xF092800001, .intSar 0 atV1), (0xF092C00001, .intShl64 0 atV1),
        (0xF093000001, .intShr64 0 atV1), (0xF093400001, .intSar64 0 atV1), (0xF093800001, .intMinS32 0 atV1), (0xF093C00001, .intMaxS32 0 atV1),
        (0xF094000001, .intMinU32 0 atV1), (0xF094400001, .intMaxU32 0 atV1), (0xF094800001, .intMinS64 0 atV1), (0xF094C00001, .intMaxS64 0 atV1),
        (0xF095000001, .intSel 0 atV1), (0xF095400001, .intAbs 0 atV1), (0xF095800001, .intClz 0 atV1), (0xF095C00001, .intPopc 0 atV1),
        (0xF096000001, .intBrev 0 atV1), (0xF096400001, .intBfx 0 atV1), (0xF096800001, .intBfi 0 atV1), (0xF096C00001, .intAddsatS32 0 atV1),
        (0xF097000001, .intSubsatS32 0 atV1), (0xF097400001, .intLea 0 atV1), (0xF097800001, .intPass 0 atV1)] = true := by
  decide +kernel

theorem test_decode_int1 :
    slotsDecode
      [(0xF0B0000001, .intAdd 1 atV1), (0xF0B0400001, .intSub 1 atV1), (0xF0B0800001, .intAdd64 1 atV1), (0xF0B0C00001, .intSub64 1 atV1),
        (0xF0B1000001, .intAnd 1 atV1), (0xF0B1400001, .intOr 1 atV1), (0xF0B1800001, .intXor 1 atV1), (0xF0B1C00001, .intAndn 1 atV1),
        (0xF0B2000001, .intShl 1 atV1), (0xF0B2400001, .intShr 1 atV1), (0xF0B2800001, .intSar 1 atV1), (0xF0B2C00001, .intShl64 1 atV1),
        (0xF0B3000001, .intShr64 1 atV1), (0xF0B3400001, .intSar64 1 atV1), (0xF0B3800001, .intMinS32 1 atV1), (0xF0B3C00001, .intMaxS32 1 atV1),
        (0xF0B4000001, .intMinU32 1 atV1), (0xF0B4400001, .intMaxU32 1 atV1), (0xF0B4800001, .intMinS64 1 atV1), (0xF0B4C00001, .intMaxS64 1 atV1),
        (0xF0B5000001, .intSel 1 atV1), (0xF0B5400001, .intAbs 1 atV1), (0xF0B5800001, .intClz 1 atV1), (0xF0B5C00001, .intPopc 1 atV1),
        (0xF0B6000001, .intBrev 1 atV1), (0xF0B6400001, .intBfx 1 atV1), (0xF0B6800001, .intBfi 1 atV1), (0xF0B6C00001, .intAddsatS32 1 atV1),
        (0xF0B7000001, .intSubsatS32 1 atV1), (0xF0B7400001, .intLea 1 atV1), (0xF0B7800001, .intPass 1 atV1)] = true := by
  decide +kernel

theorem test_decode_mul0 :
    slotsDecode
      [(0xF0D0000001, .mulLo atV1), (0xF0D0400001, .mulhiS32 atV1), (0xF0D0800001, .mulhiU32 atV1), (0xF0D0C00001, .madLo atV1),
        (0xF0D1000001, .mulwS32 atV1), (0xF0D1400001, .mulwU32 atV1), (0xF0D1800001, .mul64Lo atV1), (0xF0D1C00001, .dot4S8 atV1),
        (0xF0D2000001, .dot2S16 atV1), (0xF0D2400001, .divU32 atV1), (0xF0D2800001, .divS32 atV1), (0xF0D2C00001, .remU32 atV1),
        (0xF0D3000001, .remS32 atV1)] = true := by
  decide +kernel

theorem test_decode_fma0 :
    slotsDecode
      [(0xF0F0000001, .fmaF32 0 atV1), (0xF0F0400001, .addF32 0 atV1), (0xF0F0800001, .mulF32 0 atV1), (0xF0F0C00001, .subF32 0 atV1),
        (0xF0F1000001, .minF32 0 atV1), (0xF0F1400001, .maxF32 0 atV1), (0xF0F1800001, .fmaF16x2 0 atV1), (0xF0F1C00001, .addF16x2 0 atV1),
        (0xF0F2000001, .mulF16x2 0 atV1), (0xF0F2400001, .fmaBf16x2 0 atV1), (0xF0F2800001, .fmaF64 0 atV1), (0xF0F2C00001, .addF64 0 atV1),
        (0xF0F3000001, .mulF64 0 atV1), (0xF0F3400001, .dot2F16F32 0 atV1), (0xF0F3800001, .fmaSatF32 0 atV1), (0xF0F3C00001, .minF64 0 atV1),
        (0xF0F4000001, .maxF64 0 atV1)] = true := by
  decide +kernel

theorem test_decode_fma1 :
    slotsDecode
      [(0xF110000001, .fmaF32 1 atV1), (0xF110400001, .addF32 1 atV1), (0xF110800001, .mulF32 1 atV1), (0xF110C00001, .subF32 1 atV1),
        (0xF111000001, .minF32 1 atV1), (0xF111400001, .maxF32 1 atV1), (0xF111800001, .fmaF16x2 1 atV1), (0xF111C00001, .addF16x2 1 atV1),
        (0xF112000001, .mulF16x2 1 atV1), (0xF112400001, .fmaBf16x2 1 atV1), (0xF112800001, .fmaF64 1 atV1), (0xF112C00001, .addF64 1 atV1),
        (0xF113000001, .mulF64 1 atV1), (0xF113400001, .dot2F16F32 1 atV1), (0xF113800001, .fmaSatF32 1 atV1), (0xF113C00001, .minF64 1 atV1),
        (0xF114000001, .maxF64 1 atV1)] = true := by
  decide +kernel

theorem test_decode_cmp0 :
    slotsDecode
      [(0xF130000001, .cmpEq atV1), (0xF130400001, .cmpNe atV1), (0xF130800001, .cmpLtS32 atV1), (0xF130C00001, .cmpLeS32 atV1),
        (0xF131000001, .cmpLtU32 atV1), (0xF131400001, .cmpLeU32 atV1), (0xF131800001, .cmpEq64 atV1), (0xF131C00001, .cmpLtS64 atV1),
        (0xF132000001, .cmpLtU64 atV1), (0xF132400001, .cmpFeqF32 atV1), (0xF132800001, .cmpFltF32 atV1), (0xF132C00001, .cmpFleF32 atV1),
        (0xF133000001, .cmpFunF32 atV1), (0xF133400001, .cmpFltF64 atV1), (0xF133800001, .cmpFeqF64 atV1), (0xF133C00001, .cmpClassF32 atV1),
        (0xF134000001, .cmpTstz atV1), (0xF134400001, .cmpAny atV1), (0xF134800001, .cmpAll atV1), (0xF134C00001, .cmpBallot atV1)] = true := by
  decide +kernel

theorem test_decode_sfn0 :
    slotsDecode
      [(0xF150000001, .sfnRcp atV1), (0xF150400001, .sfnRsqrt atV1), (0xF150800001, .sfnSqrt atV1), (0xF150C00001, .sfnExp2 atV1),
        (0xF151000001, .sfnLog2 atV1), (0xF151400001, .sfnSin atV1), (0xF151800001, .sfnCos atV1), (0xF151C00001, .sfnTanh atV1),
        (0xF152000001, .sfnDivF32 atV1), (0xF152400001, .sfnRcpF64 atV1), (0xF152800001, .sfnSqrtF64 atV1)] = true := by
  decide +kernel

theorem test_decode_cvt0 :
    slotsDecode
      [(0xF170000001, .cvtF32S32 atV1), (0xF170400001, .cvtF32U32 atV1), (0xF170800001, .cvtS32F32 atV1), (0xF170C00001, .cvtU32F32 atV1),
        (0xF171000001, .cvtF16F32 atV1), (0xF171400001, .cvtF32F16 atV1), (0xF171800001, .cvtBf16F32 atV1), (0xF171C00001, .cvtF32Bf16 atV1),
        (0xF172000001, .cvtF64F32 atV1), (0xF172400001, .cvtF32F64 atV1), (0xF172800001, .cvtF64S64 atV1), (0xF172C00001, .cvtS64F64 atV1),
        (0xF173000001, .cvtZbpack8 atV1), (0xF173400001, .cvtZbunpack8 atV1), (0xF173800001, .cvtZbpack4 atV1), (0xF173C00001, .cvtZbunpack4 atV1),
        (0xF174000001, .cvtRoundF32 atV1), (0xF174400001, .cvtXlaneIdx atV1), (0xF174800001, .cvtXlaneXor atV1), (0xF174C00001, .cvtBcast atV1),
        (0xF175000001, .cvtScanAdd atV1), (0xF175400001, .cvtRedAddF32 atV1)] = true := by
  decide +kernel

theorem test_decode_mem0 :
    slotsDecode
      [(0xF190000001, .memLdU8 0 atV1), (0xF190400001, .memLdS8 0 atV1), (0xF190800001, .memLdU16 0 atV1), (0xF190C00001, .memLdS16 0 atV1),
        (0xF191000001, .memLd32 0 atV1), (0xF191400001, .memLd64 0 atV1), (0xF191800001, .memSt8 0 atV1), (0xF191C00001, .memSt16 0 atV1),
        (0xF192000001, .memSt32 0 atV1), (0xF192400001, .memSt64 0 atV1), (0xF192800001, .memLdTs 0 atV1), (0xF192C00001, .memStTs 0 atV1),
        (0xF193000001, .memAtomAdd 0 atV1), (0xF193400001, .memAtomAdd64 0 atV1), (0xF193800001, .memAtomMinS32 0 atV1),
        (0xF193C00001, .memAtomMaxS32 0 atV1), (0xF194000001, .memAtomMinU64 0 atV1), (0xF194400001, .memAtomAnd 0 atV1),
        (0xF194800001, .memAtomOr 0 atV1), (0xF194C00001, .memAtomXor 0 atV1), (0xF195000001, .memAtomExch 0 atV1),
        (0xF195400001, .memAtomExch64 0 atV1), (0xF195800001, .memAtomCas 0 atV1), (0xF195C00001, .memAtomCas64 0 atV1),
        (0xF196000001, .memAtomAddF32 0 atV1), (0xF196400001, .memFence 0 atV1), (0xF196800001, .memWaitcmp 0 atV1),
        (0xF196C00001, .memPrefetch 0 atV1), (0xF197000001, .memPin 0 atV1), (0xF197400001, .memUnpin 0 atV1), (0xF197800001, .memLdAcq 0 atV1),
        (0xF197C00001, .memStRel 0 atV1), (0xF198000001, .memLdAcq64 0 atV1), (0xF198400001, .memStRel64 0 atV1), (0xF198800001, .memFlush 0 atV1),
        (0xF198C00001, .memLdNc 0 atV1)] = true := by
  decide +kernel

theorem test_decode_mem1 :
    slotsDecode
      [(0xF1B0000001, .memLdU8 1 atV1), (0xF1B0400001, .memLdS8 1 atV1), (0xF1B0800001, .memLdU16 1 atV1), (0xF1B0C00001, .memLdS16 1 atV1),
        (0xF1B1000001, .memLd32 1 atV1), (0xF1B1400001, .memLd64 1 atV1), (0xF1B1800001, .memSt8 1 atV1), (0xF1B1C00001, .memSt16 1 atV1),
        (0xF1B2000001, .memSt32 1 atV1), (0xF1B2400001, .memSt64 1 atV1), (0xF1B2800001, .memLdTs 1 atV1), (0xF1B2C00001, .memStTs 1 atV1),
        (0xF1B3000001, .memAtomAdd 1 atV1), (0xF1B3400001, .memAtomAdd64 1 atV1), (0xF1B3800001, .memAtomMinS32 1 atV1),
        (0xF1B3C00001, .memAtomMaxS32 1 atV1), (0xF1B4000001, .memAtomMinU64 1 atV1), (0xF1B4400001, .memAtomAnd 1 atV1),
        (0xF1B4800001, .memAtomOr 1 atV1), (0xF1B4C00001, .memAtomXor 1 atV1), (0xF1B5000001, .memAtomExch 1 atV1),
        (0xF1B5400001, .memAtomExch64 1 atV1), (0xF1B5800001, .memAtomCas 1 atV1), (0xF1B5C00001, .memAtomCas64 1 atV1),
        (0xF1B6000001, .memAtomAddF32 1 atV1), (0xF1B6400001, .memFence 1 atV1), (0xF1B6800001, .memWaitcmp 1 atV1),
        (0xF1B6C00001, .memPrefetch 1 atV1), (0xF1B7000001, .memPin 1 atV1), (0xF1B7400001, .memUnpin 1 atV1), (0xF1B7800001, .memLdAcq 1 atV1),
        (0xF1B7C00001, .memStRel 1 atV1), (0xF1B8000001, .memLdAcq64 1 atV1), (0xF1B8400001, .memStRel64 1 atV1), (0xF1B8800001, .memFlush 1 atV1),
        (0xF1B8C00001, .memLdNc 1 atV1)] = true := by
  decide +kernel

theorem test_decode_cp :
    slotsDecode
      [(0xF1F0000001, .cpCopy atV1), (0xF1F0400001, .cpCopy2d atV1), (0xF1F0800001, .cpGather atV1), (0xF1F0C00001, .cpScatter atV1),
        (0xF1F1000001, .cpFill atV1), (0xF1F1400001, .cpQuantZb8 atV1), (0xF1F1800001, .cpZrlPack atV1), (0xF1F1C00001, .cpZrlUnpack atV1),
        (0xF1F2000001, .cpStreamOpen atV1), (0xF1F2400001, .cpStreamClose atV1), (0xF1F2800001, .cpBarInit atV1), (0xF1F2C00001, .cpBarExpect atV1),
        (0xF1F3000001, .cpBarWait atV1), (0xF1F3400001, .cpChanSend atV1), (0xF1F3800001, .cpChanRecv atV1), (0xF1F3C00001, .cpCancel atV1),
        (0xF1F4000001, .cpPoll atV1)] = true := by
  decide +kernel

theorem test_decode_mx :
    slotsDecode
      [(0xF1D0000001, .mxLdw atV1), (0xF1D0400001, .mxSwap atV1), (0xF1D0800001, .mxMma atV1), (0xF1D0C00001, .mxMmaSwap atV1),
        (0xF1D1000001, .mxZero atV1), (0xF1D1400001, .mxDrain atV1), (0xF1D1800001, .mxDrainAdd atV1), (0xF1D1C00001, .mxDrainMax atV1),
        (0xF1D2000001, .mxLdacc atV1), (0xF1D2400001, .mxScaleSet atV1), (0xF1D2800001, .mxWait atV1), (0xF1D2C00001, .mxRdacc atV1),
        (0xF1D3000001, .mxWracc atV1), (0xF1D3400001, .mxMmaT atV1)] = true := by
  decide +kernel

theorem test_decode_snap :
    slotsDecode
      [(0xF210000001, .snapBegin atV1), (0xF210400001, .snapBeginRo atV1), (0xF210800001, .snapCommit atV1), (0xF210C00001, .snapAbort atV1),
        (0xF211000001, .snapNow atV1), (0xF211400001, .snapHold atV1), (0xF211800001, .snapRelease atV1), (0xF211C00001, .snapStatus atV1),
        (0xF212000001, .snapLdAt atV1)] = true := by
  decide +kernel

theorem test_decode_tell :
    slotsDecode
      [(0xF230000001, .tellCommit atV1), (0xF230400001, .tellConfirm atV1), (0xF230800001, .tellNext atV1), (0xF230C00001, .tellArm atV1),
        (0xF231000001, .tellDisarm atV1), (0xF231400001, .tellFork atV1), (0xF231800001, .tellReset atV1), (0xF231C00001, .tellNotify atV1),
        (0xF232000001, .tellCount atV1)] = true := by
  decide +kernel

theorem test_decode_tq :
    slotsDecode
      [(0xF250000001, .tqPush atV1), (0xF250400001, .tqPop atV1), (0xF250800001, .tqSteal atV1), (0xF250C00001, .tqStealAny atV1),
        (0xF251000001, .tqSize atV1), (0xF251400001, .tqInit atV1)] = true := by
  decide +kernel

theorem test_decode_ace :
    slotsDecode
      [(0xF270000001, .aceMin atV1), (0xF270400001, .aceMax atV1), (0xF270800001, .aceRd atV1), (0xF270C00001, .aceSet atV1),
        (0xF271000001, .aceWaitlt atV1)] = true := by
  decide +kernel

theorem test_decode_seq :
    slotsDecode
      [(0xF290000001, .seqBr atV1), (0xF290400001, .seqBrr atV1), (0xF290800001, .seqCall atV1), (0xF290C00001, .seqCallr atV1),
        (0xF291000001, .seqRet atV1), (0xF291400001, .seqLoop atV1), (0xF291800001, .seqBrk atV1), (0xF291C00001, .seqCont atV1),
        (0xF292000001, .seqEnd atV1), (0xF292400001, .seqYield atV1), (0xF292800001, .seqBar atV1), (0xF292C00001, .seqBarArrive atV1),
        (0xF293000001, .seqSetfmt atV1), (0xF293400001, .seqTrap atV1), (0xF293800001, .seqRspush atV1), (0xF293C00001, .seqRspop atV1)] = true := by
  decide +kernel

theorem test_decode_sup :
    slotsDecode
      [(0xF2B0000001, .supCsrRd atV1), (0xF2B0400001, .supCsrWr atV1), (0xF2B0800001, .supTret atV1), (0xF2B0C00001, .supMark atV1),
        (0xF2B1000001, .supCntRd atV1), (0xF2B1400001, .supHalt atV1), (0xF2B1800001, .supFaultRd atV1), (0xF2B1C00001, .supIcinval atV1),
        (0xF2B2000001, .supSync atV1)] = true := by
  decide +kernel

theorem test_decode_commands :
    commandsDecode
      [(0x01, [0x9000, 0x200], .loadImage), (0x02, [1], .unloadImage), (0x03, [0x9000], .launch), (0x04, [5], .kill), (0x05, [0x9000], .ctxCreate),
       (0x06, [], .ctxDestroy), (0x07, [0x9000], .ctxConfig), (0x08, [0x5000, 0x1000, 1], .inval), (0x09, [7, 1], .pageReply),
       (0x0A, [0x5000, 0x6000], .pageMove), (0x0B, [1, 2, 3, 0], .grant), (0x0B, [1, 2, 3, 1], .grantRevoke), (0x0C, [0], .switchPreempt),
       (0x0C, [7, 0x9000], .switchResume), (0x0D, [0], .debugTake), (0x0D, [1], .debugGive), (0x0D, [2], .debugRevoke),
       (0x0D, [3, 0, 1, 2, 3], .debugHalt), (0x0D, [4, 3], .debugResume), (0x0D, [5, 3, 0, 0x9000, 4], .debugRead),
       (0x0D, [6, 3, 0, 0x9000, 4], .debugWrite), (0x0D, [7, 3, 0x9000, 0x100, 1], .debugLog), (0x0E, [0x9000, 0xa000, 1], .attest),
       (0x0E, [0, 0xa000], .attestCertificate), (0x0F, [1, 2], .reinstall), (0x10, [0x9000, 0x100], .ctxExport), (0x11, [0x9000], .ctxImport),
       (0x12, [0x9000, 0], .devConfigDevice), (0x12, [0x9000, 1], .devConfigPartition), (0x12, [0x9000, 2], .devConfigHostWindow),
       (0x12, [0x9000, 3], .devConfigPeerWindow), (0x13, [0x5000, 0x1000], .verOpen), (0x14, [0, 0x9000], .queryDeviceMap),
       (0x14, [1, 0x9000], .queryConfig), (0x14, [2, 0x9000, 0x40], .queryPartition), (0x14, [3, 0x9000], .queryEvsel),
       (0x15, [0x9000, 1], .pmcSet)] = true := by
  decide +kernel

/-- The lone rows beside triggers: a write of seq.flags, a stream read, and a `tell.commit` whose constant has bit 24. -/
theorem test_decode_other_rows :
    decodeTableWord 256 (0x0010 + 0xF063900000 * 2 ^ 16) = some (.seqFlagsWrite { g := 15, ng := false, src := .imm 0 }) ∧
      decodeTableWord 256 (0x0010 + 0x380140078D * 2 ^ 16) = some (.streamPortRead 7 3 true 5) ∧
      decodeTableWord 256 (0x0014 + 0xF230200000 * 2 ^ 16 + 0x1000007 * 2 ^ 216) =
        some (.tellCommitDraft { g := 15, ng := false, src := .const 0x1000007 }) ∧
      decodeTableWord 256 (0x0014 + 0xF230200000 * 2 ^ 16 + 7 * 2 ^ 216) = some (.tellCommit { g := 15, ng := false, src := .const 7 }) := by
  decide +kernel

/-- A move from a port. -/
def mvp (dst code : BitVec 13) : Move := { g := 15, ng := false, dst := dst, src := .port code }
def bundleOf (d : BitVec 3) (ms : List Move) : Instr := .bundleIssue { sw := false, d := d, lv := 0, im := 0, moves := ms, slot5 := .none }
/-- The bytes, filled up with zero bytes, decode to an instruction. -/
def bytesDecode (l : List Byte) (i : Instr) : Bool :=
  match decode (l ++ List.replicate (32 - l.length) 0) with
  | .ok k => decide (k = i)
  | .error _ => false

/-- The example of spec/02_bundles_and_ports.md: `+d2  v3 > fma0.a | int0.y > fma0.fma.f32 | !g2? #-5 > v7 | #0x1234_5678 > int1.add`. -/
def exampleBytes : List Byte :=
  [0x44, 0x20, 0x03, 0x00, 0x00, 0xE0, 0xF0, 0x04, 0x02, 0x00, 0xF0, 0xF0, 0xFB, 0xFF, 0xDF, 0x01, 0x28, 0x00, 0x00, 0x20, 0xB0, 0xF0, 0x00, 0x00,
    0x00, 0x00, 0x00, 0x78, 0x56, 0x34, 0x12, 0x00]

theorem test_decode_example_02 :
    bytesDecode exampleBytes
      (.bundleIssue
        { sw := false, d := 2, lv := 0, im := 0, slot5 := .const 0x12345678,
          moves := [mvp 0x380 3, mvp 0x3C0 0x204, { g := 2, ng := true, dst := 7, src := .imm 0xFFFFB }, { mv 0x2C0 with src := .const }] }) = true := by
  decide +kernel
theorem test_decode_example_04 :
    bytesDecode [0x20, 0x30, 0x84, 0x03, 0x00, 0xF0, 0xF0, 0x04, 0x04, 0x00, 0x10, 0xF1] (bundleOf 3 [mvp 0x3C0 0x384, mvp 0x440 0x404]) = true := by
  decide +kernel
theorem test_decode_example_05 :
    bytesDecode [0x30, 0x00, 0x0A, 0x10, 0x00, 0x80, 0xF0, 0x08, 0x00, 0x90, 0x90, 0xF0, 0x0A, 0x10, 0x40, 0x91, 0xF1]
      (bundleOf 0 [mvp 0x200 0x100A, { mv 0x242 with src := .imm 8 }, mvp 0x645 0x100A]) = true := by
  decide +kernel
theorem test_decode_example_08 :
    bytesDecode [0x20, 0x00, 0x84, 0x06, 0xC0, 0x00, 0xF0, 0x07, 0x10, 0x50, 0x10, 0xF2]
      (bundleOf 0 [mvp 3 0x684, { mv 0x841 with src := .imm 0x1007 }]) = true := by
  decide +kernel
theorem test_decode_example_09 :
    bytesDecode
      [0x40, 0x00, 0x04, 0x06, 0x00, 0x30, 0xF2, 0x04, 0x02, 0x00, 0xB1, 0xF1, 0x04, 0x02, 0x00, 0x80, 0xF0, 0x00, 0x01, 0x10, 0x90, 0xF0]
      (bundleOf 0 [mvp 0x8C0 0x604, mvp 0x6C4 0x204, mvp 0x200 0x204, { mv 0x240 with src := .imm 0x100 }]) = true := by
  decide +kernel
theorem test_decode_example_10 : bytesDecode [0x10, 0x00, 0x01, 0x00, 0x40, 0x50, 0xF2] (.tqPop atV1) = true := by decide +kernel
theorem test_decode_example_13 :
    bytesDecode [0x20, 0x00, 0x84, 0x06, 0x80, 0x02, 0xF4, 0x04, 0x02, 0x80, 0xB0, 0xF1] (bundleOf 0 [mvp 0x100A 0x684, mvp 0x6C2 0x204]) = true := by
  decide +kernel

/-! ## Words that are refused (R92, R470) -/

theorem test_refuse_headers :
    ([0x0001, 0x0070, 0x001C, 0x0C10, 0x0210, 0x0064].all fun h => decide (decodeTableWord 256 h = none)) = true := by
  decide +kernel
/-- The slots that a refused bundle's mask marks. -/
def refused (w : Nat) : Option Nat :=
  match decode (bytesOfNat 32 w) with
  | .error (.illegalBundle m) => some m.toNat
  | _ => none
/-- A nonzero unused slot; K = 0b11; K = 0b10 without a constant; SRC over 13 bits; two moves to v4. -/
theorem test_refuse_slots :
    [0x0000 + 2 ^ 216, 0x0010 + 0xF000700000 * 2 ^ 16, 0x0010 + 0xF000600000 * 2 ^ 16, 0x0010 + 0xF000402000 * 2 ^ 16,
        0x0020 + 0xF001000001 * 2 ^ 16 + 0xF001000002 * 2 ^ 56].map refused = [some 32, some 1, some 1, some 1, some 3] := by
  decide +kernel
theorem test_refuse_commands :
    [0x16 * 2 ^ 56, 0x03 * 2 ^ 56 + 2 ^ 51, 0x03 * 2 ^ 56 + 2 ^ 48, 0x06 * 2 ^ 56 + 2 ^ 64, 0x03 * 2 ^ 56 + 2 ^ 448].all
        (fun w => decide (decodeTableWord 512 w = none)) = true := by
  decide +kernel

/-! ## Steps -/

/-- The state after one step. -/
def stepped (s : State) : State := nextOf (step s) s

/-- The example of spec/02_bundles_and_ports.md as the first instruction: `int1.b` gets the constant, v7 the immediate where g2 is false, and the
delay of two clk holds the next bundle until clk 3. -/
theorem test_step_example_02 :
    let x := theWarp (stepped (State.reset.withFetchWord 256 (natOfBytes exampleBytes)))
    (x.port 1 offB 5, (x.lane 63).regs.find? 7, x.delayTo, (x.lane 0).pc) = (0x12345678, some 0xFFFFFFFB, 3, 0x20) := by
  decide +kernel

/-- The first 64 bits of the result of lane `l` that a trigger's unit has in flight. -/
def resultOf (i : Instr) (s : State) (l : Nat) : Option Nat :=
  (((theWarp (after i s)).fills.flatMap Fill.res).find? fun r => r.lane == l).map fun r => r.y.toNat

/-- Lane 0 performs a trigger with the value `v` in v1 and `.a` and `.b` as given. -/
def laneResult (i : Trig → Instr) (u v a b : Nat) : Option Nat := resultOf (i atV1) (trigState u [v] [(offA, [a]), (offB, [b])]) 0

theorem test_add_wraps : laneResult (.intAdd 0) 0 1 0xFFFFFFFF 0 = some 0 := by decide +kernel
theorem test_sub_borrows : laneResult (.intSub 1) 1 1 0 0 = some 0xFFFFFFFF := by decide +kernel
theorem test_addsat_saturates : laneResult (.intAddsatS32 0) 0 1 0x7FFFFFFF 0 = some 0x7FFFFFFF := by decide +kernel
theorem test_andn_order : laneResult (.intAndn 0) 0 0x0F 0x3C 0 = some 0x30 := by decide +kernel
theorem test_mulhi_unsigned : laneResult .mulhiU32 2 0xFFFFFFFF 0xFFFFFFFF 0 = some 0xFFFFFFFE := by decide +kernel
theorem test_mulhi_signed : laneResult .mulhiS32 2 0xFFFFFFFF 0xFFFFFFFF 0 = some 0 := by decide +kernel
/-- 1.5 × 2.0 + 0.25 = 3.25, and the largest f32 doubled overflows. -/
theorem test_fma_exact : laneResult (.fmaF32 0) 3 0x3E800000 0x3FC00000 0x40000000 = some 0x40500000 := by decide +kernel
theorem test_add_overflows : laneResult (.addF32 1) 4 0x7F7FFFFF 0x7F7FFFFF 0 = some 0x7F800000 := by decide +kernel
theorem test_compare_signed : laneResult .cmpLtS32 5 1 0xFFFFFFFF 0 = some 1 := by decide +kernel
theorem test_compare_unsigned : laneResult .cmpLtU32 5 1 0xFFFFFFFF 0 = some 0 := by decide +kernel

/-- Set 1 of the team's scale table, and NFR = 0x0100 in every lane (spec/04_lane_units.md, the example of packing). -/
def packState (v : List Nat) : State :=
  let t := foldOver (fun (m : FMap (BitVec 8)) (e : Nat × Int) => m.insert (16 + e.1) (BitVec.ofInt 8 e.2)) .empty
    ([(0, 0), (1, -3), (2, 4), (3, 2)] ++ (List.range 12).map fun k => (k + 4, 10))
  let s := issueOf fun x =>
    let y := withRegs v x
    { y with guards := y.guards.set 1 0xF, lanes := y.lanes.map fun z => { z with nfr := 0x0100, pc := 0x20 } }
  s.modTeam 1 fun m => { m with scale := t }
/-- Lanes 0 to 3 perform it. -/
def inFour : Trig := { g := 1, ng := false, src := .port 1 }
/-- 20.0, 0.3, −6.1 and 7.9 are packed, and come back as 20.0, 0.3125, −6.0 and 8.0. -/
theorem test_pack_example :
    (List.range 5).map (resultOf (.cvtZbpack8 inFour) (packState [0x41A00000, 0x3E99999A, 0xC0C33333, 0x40FCCCCD])) =
      [some 0x0334, some 0x0385, some 0x03F8, some 0x0320, none] := by
  decide +kernel
theorem test_unpack_example :
    (List.range 4).map (resultOf (.cvtZbunpack8 inFour) (packState [0x0334, 0x0385, 0x03F8, 0x0320])) =
      [some 0x41A00000, some 0x3EA00000, some 0xC0C00000, some 0x41000000] := by
  decide +kernel

/-- All lanes stand at addresses given by lane. -/
def lanesAt (f : Nat → W32) (x : Warp) : Warp := { x with lanes := mapIdx (fun l (y : Lane) => { y with pc := f l }) x.lanes }
/-- A branch to an address, under g1. -/
def branchTo (g : BitVec 4) (a : BitVec 32) : Trig := { g := g, ng := false, src := .const a }
/-- The if-else example of spec/01_engines_together.md: lanes 0 to 15 branch to 0x1080, the others step on. -/
theorem test_if_else_example :
    let x := theWarp (after (.seqBr (branchTo 1 0x1080)) (issueOf fun x => { lanesAt (fun _ => 0x1020) x with guards := x.guards.set 1 0xFFFF }))
    [0, 15, 16, 63].map (fun l => (x.lane l).pc) = [0x1080, 0x1080, 0x1040, 0x1040] := by
  decide +kernel
/-- The call example of spec/03_warp_sequencer.md: lanes 0 to 31 call from 0x0400. -/
theorem test_call_example :
    let x := theWarp (after (.seqCall (branchTo 15 0x2000)) (issueOf (lanesAt fun l => if l < 32 then 0x0400 else 0x0600)))
    [0, 31, 32].map (fun l => ((x.lane l).pc, (x.lane l).rstack.length)) = [(0x2000, 1), (0x2000, 1), (0x0600, 0)] := by
  decide +kernel

/-- The example of three warps on one quad (spec/03_warp_sequencer.md), clk 0 to 3, and the tie at 512. -/
theorem test_pick_example :
    let p := fun (l : List Cand) => (pickOf l).map fun c => c.slot
    [p [aCand 1 0 2 false 0, aCand 2 1 2 false 0, aCand 3 2 5 false 0], p [aCand 1 0 2 false 1, aCand 2 1 2 false 1],
        p [aCand 1 0 2 false 0, aCand 2 1 2 false 2, aCand 3 2 5 false 0], p [aCand 1 0 2 false 1, aCand 2 1 2 false 3],
        p [aCand 1 0 2 false 512, aCand 2 1 2 false 512, aCand 3 2 5 false 0], p [aCand 1 0 2 false 0, aCand 2 1 2 false 513, aCand 3 2 5 false 1]] =
      [some 2, some 0, some 2, some 1, some 0, some 1] := by
  decide +kernel

/-- The twelve teams of spec/10_team_scheduler.md in four orders, E0 = 3 and E1 = 4. -/
theorem test_team_orders :
    (List.range 4).map (fun o => (List.range 12).map fun n => (nestIndex o n [3, 4]).take 2) =
      [[[0, 0], [0, 1], [0, 2], [0, 3], [1, 0], [1, 1], [1, 2], [1, 3], [2, 0], [2, 1], [2, 2], [2, 3]],
        [[0, 0], [1, 0], [2, 0], [0, 1], [1, 1], [2, 1], [0, 2], [1, 2], [2, 2], [0, 3], [1, 3], [2, 3]],
        [[0, 0], [0, 1], [0, 2], [0, 3], [1, 3], [1, 2], [1, 1], [1, 0], [2, 0], [2, 1], [2, 2], [2, 3]],
        [[0, 0], [0, 1], [1, 0], [1, 1], [0, 2], [0, 3], [1, 2], [1, 3], [2, 0], [2, 1], [2, 2], [2, 3]]] := by
  decide +kernel

/-- The example of router 27 (spec/11_fabric.md): flits C, D, B and A arrive, and I is offered. -/
def router27 : State :=
  let m := fun src dst ep => { aMsg dst 9 with src := src, dstEp := ep }
  let f := fun n age inp => { aFlit 27 with msg := n, age := age, input := inp }
  let ms := FMap.empty.insert 1 (m 35 27 5) |>.insert 2 (m 12 11 1) |>.insert 3 (m 24 31 1) |>.insert 4 (m 19 29 1) |>.insert 5 { m 27 26 1 with srcEp := 1 }
  { withRouter 27 { Router.start with cand := FMap.empty.insert 1 (5, 0) }
      (modFab (fun b => { b with golden := 35, messages := ms, flits := [f 4 10 0, f 3 40 3, f 2 40 1, f 1 3 2] }) base) with
    subject := .num 27, clk := 1000 }
/-- C is delivered, D goes to (3, 2), B to (4, 3), A is deflected to (3, 4), and I is injected toward (2, 3). -/
theorem test_router_example :
    let s := after .flitArrival router27
    let t := after .flitInjection s
    (s.eng.fab.moved.map fun f => (f.msg, f.router), (s.message? 1).map fun m => m.arrived, (s.router 27).defl,
        (t.eng.fab.moved.drop 3).map fun f => (f.msg, f.router)) =
      ([(2, 19), (3, 28), (4, 35)], some [1], 1, [(5, 26)]) := by
  decide +kernel

/-- The trap of the example of spec/12_supervisor.md. -/
def trapExample : State :=
  takeTrap ((base.modLdr fun l => { l with images := l.images.modify 1 fun i => { i with tvec0 := 0x0800 } }).modWarp w0 (lanesAt fun _ => 0x0300)) w0
    (TrapReq.pre 0x20 6 1 [4, 9] 0x0300)
/-- Lanes 4 and 9 go to the handler at the warp rung, and one of four permits is taken. -/
theorem test_trap_example :
    ([4, 9, 5].map fun l => ((theWarp trapExample).lane l).pc) = [0x0800, 0x0800, 0x0300] ∧ (trapExample.core 0).permits = 3 := by
  decide +kernel
theorem test_trap_record :
    ((theWarp trapExample).handlers.map fun h => (h.rung, h.lanes, h.tpc.find? 4, h.trap.code, h.trap.cls)) = [(0, 0x210, some 0x0300, 0x20, 6)] := by
  decide +kernel

/-- The product of two f16 values by the expansion of `fmulw.f16` (R499), under an NFR: here 0x3C01 is 1 + 2^−10. -/
def fmulwOf (nfr : BitVec 16) (a b : Nat) : Nat :=
  let wide := fun x => (convert f32 (envOf nfr) (unpack f16 false x)).bits
  (mulBits f32 (envOf nfr) (wide a) (wide b)).bits
/-- Its square is 1 + 2^−9 + 2^−20 in every rounding mode. -/
theorem test_fmulw_exact : ([0, 1, 2, 3].map fun m => fmulwOf m 0x3C01 0x3C01) = List.replicate 4 0x3F804008 := by decide +kernel

/-- The Osmin section of the worked program of spec/13_loader.md: one function of 12 operations and budget 16. -/
def dotSection : List Byte :=
  [1, 16, 0x100000000C, 0x0100000000000000, 0x0300000000000000, 0x1200801000000001, 0x2000400000000000, 0x2000800000000080,
    0x3800801000000000, 0x4000400000000000, 0x1201C06000000002, 0x2100400000000100, 0x3000C01000000000, 0x2800C01000000200,
    0x2801005000000300].flatMap (bytesOfNat 8)
/-- The destinations of the moves of its native code, bundle by bundle. -/
def dotCode : List (List Nat) :=
  [[0x300, 0x345, 0xAC0, 0x2DE, 0x200, 0x248], [0x1008, 0x100A, 0x280, 0x2C2], [0x280, 0x2C2, 0x200, 0x201, 0x25D],
    [0x1004, 0x600, 0x649, 0x1008, 0x280, 0x2C2], [0x600, 0x649, 0x6C2, 0x200, 0x242], [0x100A, 0x6C2], [0x5C5], [0x380, 0x5C5],
    [0x3C2], [0x5D5], [0x1008, 0x645, 0x6C5], [0x100C, 0x100E], [0x200, 0x201, 0x25D], [0x100A, 0x280, 0x2C2], [0x644],
    [0x380, 0x3C1, 0x280, 0x2C2], [0x680, 0x6C8, 0x200, 0x242], [0x600, 0x648], [0xA48]]
/-- Bundles of moves of v1 to given destinations. -/
def codeTo (l : List (List Nat)) : List Byte :=
  l.flatMap fun b => encodeBundle
    { sw := false, d := 0, lv := 0, im := 0, slot5 := .none, moves := b.map fun d => { g := 15, ng := false, dst := BitVec.ofNat 13 d, src := .port 1 } }
/-- The worked program spills two values and is a translation; without its second `cvt0.f32.f16` it is none. -/
theorem test_dot_product_spills : cellCount dotSection 16 16 = 2 := by decide +kernel
theorem test_dot_product_translates :
    (translates dotSection (codeTo dotCode) 256, translates dotSection (codeTo (dotCode.set 7 [0x380])) 256) = (true, false) := by decide +kernel

theorem test_reset_memory_canonical : State.reset.mem.canonical = true := by decide

end Sys2Proof.Tests
end

