-- ==== Sys2Proof/Tests/Witness1.lean ====
section
/-! SUPPORT. Witnesses: states and operands that meet the hypotheses of each statement together (issue, results and memory). -/

namespace Sys2Proof.Tests
open Sys2Proof Sys2Proof.Machine

set_option Elab.async false
set_option linter.unusedVariables false

/-! ## Witnesses: the lane function units -/

/-- An integer unit's operands in three lanes, a moderate last one. -/
def intState : State := trigState 0 [3, 2, 0] [(offA, [7, 0xFFFFFFFF]), (offB, [5, 1]), (offC, [1])]
def leaState : State := trigState 1 [4, 3, 0] []

theorem witness_IntegerOperationsFillAfterOneClk : ∃ (s : State) (u : Fin 2) (t : Trig) (n : Nat) (i : Instr) (f : W64 → W64 → W64 → W64 × W64) (k :
    Scene), (intRows u t)[n]? = some (i, f) ∧ k.Of s t u n ∧ (∀ l ∈ k.ls, k.x.port u offM l = 0) ∧ (n = 29 → ∀ l ∈ k.ls, (k.val s l).toNat ≤ 3) :=
  ⟨intState, 0, trig, 29, _, _, scene intState trig, rfl, scene_of (by decide +kernel), by constructorm* _ ∧ _ <;> decide +kernel⟩

theorem witness_OperandChecksTrapPrecisely_0 : ∃ (s : State) (u : Fin 2) (t : Trig) (k : Scene), k.Of s t u 29 ∧ (∀ l ∈ k.ls, k.x.port u offM l = 0) ∧
    (∃ l ∈ k.ls, 3 < (k.val s l).toNat) :=
  ⟨leaState, 1, trig, scene leaState trig, scene_of (by decide +kernel), by constructorm* _ ∧ _ <;> decide +kernel⟩

def memState : State := trigState 8 [0x1001, 0x1004, 0x1008] [(offB, [5, 6, 7])]
def jumpState : State := trigState 16 [0x21, 0x40, 0x60] []
def fullStack : State :=
  trigState 16 [0x40, 0x40, 0x60] [] fun x => { x with lanes := x.lanes.map fun y => { y with rstack := List.replicate 8 (retEntry 0x60) } }

theorem witness_OperandChecksTrapPrecisely_1 : ∃ (s : State) (u : Fin 2) (t : Trig) (n wd : Nat) (i : Instr) (kind : MemKind) (k : Scene), (memRows u
    t)[n]? = some (i, wd, kind) ∧ k.Of s t (8 + u) n ∧ (∀ l ∈ k.ls, memModeOk n kind (k.x.port (8 + u) offM l) = true ∧ (n = 26 → (k.arg s (8 + u) n
    offC l).toNat < 8)) ∧ (∀ l ∈ k.ls, (k.x.unit (8 + u)).must.getLsbD l = false) ∧ (∃ l ∈ k.ls, (k.arg s (8 + u) n offA l).toNat % memBytes n wd
    (k.arg s (8 + u) n offC l) ≠ 0) :=
  ⟨memState, 0, trig, 4, _, _, _, scene memState trig, rfl, scene_of (by decide +kernel), by constructorm* _ ∧ _ <;> decide +kernel⟩

theorem witness_OperandChecksTrapPrecisely_2_0 : ∃ (s : State) (t : Trig) (k : Scene), k.Of s t 16 0 ∧ (∀ l ∈ k.ls, k.x.port 16 offM l = 0) ∧
    let off := fun rel l => decide ((seqTarget rel k.c.pc (k.val s l)).toNat % 32 ≠ 0)
    ∃ rel, (∃ l ∈ k.ls, off rel l = true) :=
  ⟨jumpState, trig, scene jumpState trig, scene_of (by decide +kernel), by decide +kernel, false, by decide +kernel⟩

theorem witness_OperandChecksTrapPrecisely_2_1 : ∃ (s : State) (t : Trig) (k : Scene), k.Of s t 16 0 ∧ (∀ l ∈ k.ls, k.x.port 16 offM l = 0) ∧
    let off := fun rel l => decide ((seqTarget rel k.c.pc (k.val s l)).toNat % 32 ≠ 0)
    let full := fun l => decide ((k.x.lane l).rstack.length = 8)
    ∃ rel, (∀ l ∈ k.ls, off rel l = false) ∧ (∃ l ∈ k.ls, full l = true) :=
  ⟨fullStack, trig, scene fullStack trig, scene_of (by decide +kernel), by decide +kernel, false, by constructorm* _ ∧ _ <;> decide +kernel⟩

theorem witness_OperandChecksTrapPrecisely_2_2 : ∃ (s : State) (t : Trig) (k : Scene), k.Of s t 16 0 ∧ (∀ l ∈ k.ls, k.x.port 16 offM l = 0) ∧
    let bare := fun l => decide ((k.x.lane l).rstack = [])
    (∃ l ∈ k.ls, bare l = true) :=
  ⟨jumpState, trig, scene jumpState trig, scene_of (by decide +kernel), by constructorm* _ ∧ _ <;> decide +kernel⟩

def mulState : State := trigState 2 [3, 0, 9] [(offA, [7, 8, 0x80000000])]
def fmaState : State := trigState 3 [0x3F800000, 0x40000000, 0x7F800000] [(offA, [0x3F800000, 0x40400000]), (offB, [0x3F800000])]
def cmpState : State := trigState 5 [3, 0, 0x7FC00000] [(offA, [3, 1, 0])]
def cvtState : State := trigState 7 [2, 0, 70] [(offA, [1, 2, 3]), (offB, [0, 1, 2])]
def sfnState : State := trigState 6 [0x3F800000, 0, 0x80000000] []

theorem witness_MultiplicationsAndDivisions_0 : ∃ (s : State) (t : Trig) (n : Nat) (i : Instr) (f : W64 → W64 → W64 → W64) (k : Scene), (mulRows
    t)[n]? = some (i, f) ∧ k.Of s t 2 n ∧ (∀ l ∈ k.ls, k.x.port 2 offM l = 0) ∧ (∀ g ∈ k.x.fills, g.unit = 2 → g.opc ≤ 8) :=
  ⟨mulState, trig, 8, _, _, scene mulState trig, rfl, scene_of (by decide +kernel), by constructorm* _ ∧ _ <;> decide +kernel⟩

theorem witness_MultiplicationsAndDivisions_1 : ∃ (s : State) (t : Trig) (n : Nat) (i : Instr) (f : W64 → W64 → W64 × W64) (k : Scene), (divRows
    t)[n]? = some (i, f) ∧ k.Of s t 2 (n + 9) ∧ (∀ l ∈ k.ls, k.x.port 2 offM l = 0) ∧ (∀ g ∈ k.x.fills, g.unit = 2 → g.opc ≤ 8) ∧ ((s.core
    k.tm.core).quad k.x.quad).divFree ≤ s.clk :=
  ⟨mulState, trig, 0, _, _, scene mulState trig, rfl, scene_of (by decide +kernel), by constructorm* _ ∧ _ <;> decide +kernel⟩

theorem witness_FmaOperationsRoundOnce : ∃ (s : State) (u : Fin 2) (t : Trig) (n L : Nat) (i : Instr) (f : FEnv → W64 → W64 → W64 → FRes) (k : Scene),
    (fmaRows u t)[n]? = some (i, L, f) ∧ k.Of s t (3 + u) n ∧ (∀ l ∈ k.ls, k.x.port (3 + u) offM l = 0) ∧ (∀ g ∈ k.x.fills, g.unit = 3 + u → g.due <
    s.clk + L) ∧ (L = 8 → ((s.core k.tm.core).quad k.x.quad).f64Free.getD u 0 ≤ s.clk) ∧ grantOk s k.tm.core k.x.quad = true :=
  ⟨fmaState, 0, trig, 0, _, _, _, scene fmaState trig, rfl, scene_of (by decide +kernel), by constructorm* _ ∧ _ <;> decide +kernel⟩

theorem witness_ComparesFillOneOrZero_0 : ∃ (s : State) (t : Trig) (n : Nat) (i : Instr) (p : W64 → W64 → Bool) (k : Scene), (n, i, p) ∈ cmpRows t ∧
    k.Of s t 5 n ∧ (∀ l ∈ k.ls, k.x.port 5 offM l = 0) :=
  ⟨cmpState, trig, _, _, _, scene cmpState trig, List.mem_of_getElem? (i := 10) rfl, scene_of (by decide +kernel), by decide +kernel⟩

theorem witness_ComparesFillOneOrZero_1 : ∃ (s : State) (t : Trig) (n : Nat) (i : Instr) (f : FEnv → W64 → W64 → FRes) (k : Scene), (n, i, f) ∈
    fcmpRows t ∧ k.Of s t 5 n ∧ (∀ l ∈ k.ls, k.x.port 5 offM l = 0) :=
  ⟨cmpState, trig, _, _, _, scene cmpState trig, List.mem_of_getElem? (i := 5) rfl, scene_of (by decide +kernel), by decide +kernel⟩

theorem witness_VotesMovesAndSumsAcrossLanes_0 : ∃ (s : State) (t : Trig) (n : Nat) (i : Instr) (f : List (Nat × Bool) → W64) (k : Scene), (n, i, f) ∈
    voteRows t ∧ k.Of s t 5 n ∧ (∀ l ∈ k.ls, k.x.port 5 offM l = 0) :=
  ⟨cmpState, trig, _, _, _, scene cmpState trig, List.mem_of_getElem? (i := 2) rfl, scene_of (by decide +kernel), by decide +kernel⟩

theorem witness_VotesMovesAndSumsAcrossLanes_1 : ∃ (s : State) (t : Trig) (n : Nat) (i : Instr) (src : Warp → (Nat → W64) → List Nat → Nat → Nat) (k :
    Scene), (n, i, src) ∈ crossRows t ∧ k.Of s t 7 n ∧ (∀ l ∈ k.ls, k.x.port 7 offM l = 0) :=
  ⟨cvtState, trig, _, _, _, scene cvtState trig, List.mem_of_getElem? (i := 2) rfl, scene_of (by decide +kernel), by decide +kernel⟩

theorem witness_VotesMovesAndSumsAcrossLanes_2 : ∃ (s : State) (t : Trig) (k : Scene), k.Of s t 7 20 ∧ (∀ l ∈ k.ls, k.x.port 7 offM l = 0) :=
  ⟨cvtState, trig, scene cvtState trig, scene_of (by decide +kernel), by decide +kernel⟩

theorem witness_VotesMovesAndSumsAcrossLanes_3 : ∃ (s : State) (t : Trig) (k : Scene), k.Of s t 7 21 ∧ (∀ l ∈ k.ls, k.x.port 7 offM l = 0) :=
  ⟨cvtState, trig, scene cvtState trig, scene_of (by decide +kernel), by decide +kernel⟩

theorem witness_SpecialFunctionsFillInOrder : ∃ (s : State) (t : Trig) (n L : Nat) (i : Instr) (f : FEnv → W64 → W64 → FRes) (k : Scene), (sfnRows
    t)[n]? = some (i, L, f) ∧ k.Of s t 6 n ∧ (∀ l ∈ k.ls, k.x.port 6 offM l = 0) ∧ ((s.core k.tm.core).quad k.x.quad).sfnFree ≤ s.clk :=
  ⟨sfnState, trig, 10, _, _, _, scene sfnState trig, rfl, scene_of (by decide +kernel), by constructorm* _ ∧ _ <;> decide +kernel⟩

theorem witness_ConversionsFillAfterTwoClk : ∃ (s : State) (t : Trig) (n : Nat) (i : Instr) (f : FEnv → W64 → FRes) (k : Scene), (n, i, f) ∈ convRows
    t ∧ k.Of s t 7 n ∧ (∀ l ∈ k.ls, k.x.port 7 offM l = 0) :=
  ⟨cvtState, trig, _, _, _, scene cvtState trig, List.mem_of_getElem? (i := 12) rfl, scene_of (by decide +kernel), by decide +kernel⟩

theorem witness_BlockPackAndUnpack_0 : ∃ (s : State) (t : Trig) (k : Scene) (zb8 : Bool), k.Of s t 7 (if zb8 then 12 else 14) ∧ (∀ l ∈ k.ls, k.x.port
    7 offM l = 0) ∧ (∀ l ∈ k.ls, (k.x.lane l).nfr.toNat / 32 % 8 ≤ 1) :=
  ⟨cvtState, trig, scene cvtState trig, true, scene_of (by decide +kernel), by constructorm* _ ∧ _ <;> decide +kernel⟩

theorem witness_BlockPackAndUnpack_1 : ∃ (s : State) (t : Trig) (k : Scene) (zb8 : Bool), k.Of s t 7 (if zb8 then 13 else 15) ∧ (∀ l ∈ k.ls, k.x.port
    7 offM l = 0) :=
  ⟨cvtState, trig, scene cvtState trig, false, scene_of (by decide +kernel), by decide +kernel⟩

/-! ## Witnesses: memory units and engines -/

def loadState : State := trigState 8 [0x1000, 0x1004, 0x1FFC] []
def copyState : State := trigState 11 [128, 64, 0] [(offA, [0x1000, 0x2000, 0x3000]), (offB, [0x4000, 0x5000, 0x6000])]
def waitState : State := trigState 11 [127, 0, 64] []
def oneLane (x : Warp) : Warp := { x with lanes := mapIdx (fun l (y : Lane) => { y with pc := if l = 1 then 0x20 else 0x40 }) x.lanes }
def closeState : State :=
  (trigState 11 [0, 7, 0] [] fun x => { oneLane x with streams := x.streams.insert 7 aStream }).modTeam 1 fun t =>
    { t with jobs := [{ aJob 11 8 with id := 9 }] }
def oneWaitState : State := trigState 11 [0, 127, 0] [] oneLane

theorem witness_MemoryTriggersStartOneOperation : ∃ (s : State) (u : Fin 2) (t : Trig) (n wd : Nat) (i : Instr) (kind : MemKind) (k : Scene), (memRows
    u t)[n]? = some (i, wd, kind) ∧ k.Of s t (8 + u) n ∧ (∀ l ∈ k.ls, memLaneOk n wd kind k.tm.tsSize (k.arg s (8 + u) n offA l) (k.arg s (8 + u) n
    offC l) (k.x.port (8 + u) offM l) = true) ∧ (∀ l ∈ k.ls, (k.x.unit (8 + u)).must.getLsbD l = true → (k.x.elem (8 + u) offY2 l).filled = true ∧
    (k.x.elem (8 + u) offY2 l).tag = 0 ∧ k.x.poison.contains (portCode (8 + u) offY2, l) = false) ∧ (kind = .store ∨ kind = .atomic → k.x.sq.length <
    32) ∧ (∀ o ∈ k.x.ops, o.holdsLater = false ∧ o.snapHolds = false ∧ o.isSync = false) :=
  ⟨loadState, 0, trig, 4, _, _, _, scene loadState trig, rfl, scene_of (by decide +kernel), by constructorm* _ ∧ _ <;> decide +kernel⟩

theorem witness_MemoryTriggersStartOneOperation_b : ∃ (s : State) (u : Fin 2) (t : Trig) (n wd : Nat) (i : Instr) (kind : MemKind) (k : Scene),
    (memRows u t)[n]? = some (i, wd, kind) ∧ k.Of s t (8 + u) n ∧ (∀ l ∈ k.ls, memLaneOk n wd kind k.tm.tsSize (k.arg s (8 + u) n offA l) (k.arg s (8
    + u) n offC l) (k.x.port (8 + u) offM l) = true) ∧ (∀ l ∈ k.ls, (k.x.unit (8 + u)).must.getLsbD l = true → (k.x.elem (8 + u) offY2 l).filled =
    true ∧ (k.x.elem (8 + u) offY2 l).tag = 0 ∧ k.x.poison.contains (portCode (8 + u) offY2, l) = false) ∧ (kind = .store ∨ kind = .atomic →
    k.x.sq.length < 32) ∧ (∀ o ∈ k.x.ops, o.holdsLater = false ∧ o.snapHolds = false ∧ o.isSync = false) :=
  ⟨loadState, 1, trig, 8, _, _, _, scene loadState trig, rfl, scene_of (by decide +kernel), by constructorm* _ ∧ _ <;> decide +kernel⟩

theorem witness_CopyTriggersSubmitWaitAndStop_0 : ∃ (s : State) (t : Trig) (n : Nat) (i : Instr) (k : Scene), (n, i) ∈ copyJobRows t ∧ k.Of s t 11 n ∧
    engineOpen k.x ∧
    let a := k.arg s 11 n offA
    let b := k.arg s 11 n offB
    let c := k.arg s 11 n offC
    let m := k.x.port 11 offM
    (∀ l ∈ k.ls, copyIllegal n (a l) (b l) (c l) (m l) = false ∧ copyMisaligned n (a l) (b l) (c l) (m l) = false ∧ ∀ r ∈ copyReads n (a l) (c l) (m
      l) ++ copyWrites n (a l) (b l) (c l) (m l), r.outside k.tm = false) ∧ (n = 8 → ∀ l ∈ k.ls, k.x.streams.find? (streamNo (c l)) = none ∧ ∀ j ∈
      k.ls, j ≠ l → streamNo (c j) ≠ streamNo (c l)) ∧ (s.core k.tm.core).cpAt ≤ s.clk ∧ copyJobs s k.tm.core + k.ls.length ≤ 1024 :=
  ⟨copyState, trig, _, _, scene copyState trig, List.mem_of_getElem? (i := 0) rfl, scene_of (by decide +kernel), by unfold engineOpen; decide +kernel,
   by constructorm* _ ∧ _ <;> decide +kernel⟩

theorem witness_CopyTriggersSubmitWaitAndStop_1 : ∃ (s : State) (t : Trig) (k : Scene), k.Of s t 11 12 ∧ engineOpen k.x ∧ (s.core k.tm.core).cpAt ≤
    s.clk ∧ (∀ l ∈ k.ls, (k.val s l).toNat % 64 = 0) :=
  ⟨copyState, trig, scene copyState trig, scene_of (by decide +kernel), by unfold engineOpen; decide +kernel,
   by constructorm* _ ∧ _ <;> decide +kernel⟩

theorem witness_CopyTriggersSubmitWaitAndStop_2 : ∃ (s : State) (t : Trig) (k : Scene), k.Of s t 11 16 ∧ engineOpen k.x ∧ (s.core k.tm.core).cpAt ≤
    s.clk ∧ (∀ l ∈ k.ls, (k.val s l).toNat < 128) :=
  ⟨waitState, trig, scene waitState trig, scene_of (by decide +kernel), by unfold engineOpen; decide +kernel,
   by constructorm* _ ∧ _ <;> decide +kernel⟩

theorem witness_CopyTriggersSubmitWaitAndStop_3 : ∃ (s : State) (t : Trig) (k : Scene) (l : Nat) (st : Stream) (j : Job), k.Of s t 11 9 ∧ engineOpen
    k.x ∧ (s.core k.tm.core).cpAt ≤ s.clk ∧ k.ls = [l] ∧ (k.val s l).toNat < 8 ∧ k.x.streams.find? (k.val s l).toNat = some st ∧ k.tm.job? st.job =
    some j ∧ j.ending = false ∧ (j.begun = false ∨ j.acc = 0) ∧ (∀ o ∈ k.x.ops, o.id ≠ s.nextId ∧ o.items ≠ []) :=
  ⟨closeState, trig, scene closeState trig, 1, aStream, { aJob 11 8 with id := 9 }, scene_of (by decide +kernel),
   by unfold engineOpen; decide +kernel, by constructorm* _ ∧ _ <;> decide +kernel⟩

theorem witness_CopyTriggersSubmitWaitAndStop_4 : ∃ (s : State) (t : Trig) (k : Scene) (l : Nat), k.Of s t 11 15 ∧ engineOpen k.x ∧ (s.core
    k.tm.core).cpAt ≤ s.clk ∧ k.ls = [l] ∧ (k.val s l).toNat < 128 :=
  ⟨oneWaitState, trig, scene oneWaitState trig, 1, scene_of (by decide +kernel), by unfold engineOpen; decide +kernel,
   by constructorm* _ ∧ _ <;> decide +kernel⟩

def mxState : State := trigState 10 [0, 0, 0] [(offA, [0x1000]), (offB, [0x100])]
def selState (v : Nat) : State := trigState 10 [v, 0, 0] []
def snapState : State := trigState 12 [0, 0, 0] [(offA, [0x1000])]
def homeState (u : Nat) (v : List Nat) (ps : List (Nat × List Nat)) : State := trigState u v ps

theorem witness_MatrixTriggersSubmitOrWait_0 : ∃ (s : State) (t : Trig) (n : Nat) (i : Instr) (k : Scene), (n, i) ∈ mxJobRows t ∧ k.Of s t 10 n ∧
    engineOpen k.x ∧ k.tm.owner = true ∧ s.ldr.grade.mxp = true ∧
    let l0 := minOf k.ls 0
    let a := k.arg s 10 n offA l0
    let b := k.arg s 10 n offB l0
    let c := k.arg s 10 n offC l0
    let m := k.x.port 10 offM l0
    mxModeBad m = false ∧ mxIllegal n a b c = false ∧ mxMisaligned n a b c m = false ∧ (∀ r ∈ mxReads n a b c m ++ mxWrites n a b c m, r.beyond k.tm =
      false) ∧ (s.core k.tm.core).mxAt ≤ s.clk ∧ (n ≠ 11 → mxQueued s k.tm.core < 32) :=
  ⟨mxState, trig, _, _, scene mxState trig, List.mem_of_getElem? (i := 4) rfl, scene_of (by decide +kernel), by unfold engineOpen; decide +kernel,
   by constructorm* _ ∧ _ <;> decide +kernel⟩

theorem witness_MatrixTriggersSubmitOrWait_1 : ∃ (s : State) (t : Trig) (k : Scene), k.Of s t 10 9 ∧ engineOpen k.x ∧ k.tm.owner = true ∧
    s.ldr.grade.mxp = true ∧
    let l0 := minOf k.ls 0
    let set := (k.arg s 10 9 offC l0).toNat
    mxModeBad (k.x.port 10 offM l0) = false ∧ set < 4 ∧ (s.core k.tm.core).mxAt ≤ s.clk ∧ k.tm.scaleClk ≤ s.clk :=
  ⟨selState 3, trig, scene (selState 3) trig, scene_of (by decide +kernel), by unfold engineOpen; decide +kernel,
   by constructorm* _ ∧ _ <;> decide +kernel⟩

theorem witness_MatrixTriggersSubmitOrWait_2 : ∃ (s : State) (t : Trig) (k : Scene), k.Of s t 10 10 ∧ engineOpen k.x ∧ k.tm.owner = true ∧
    s.ldr.grade.mxp = true ∧
    let sel := (k.val s (minOf k.ls 0)).toNat
    mxModeBad (k.x.port 10 offM (minOf k.ls 0)) = false ∧ sel ≤ 9 ∧ (s.core k.tm.core).mxAt ≤ s.clk :=
  ⟨selState 9, trig, scene (selState 9) trig, scene_of (by decide +kernel), by unfold engineOpen; decide +kernel,
   by constructorm* _ ∧ _ <;> decide +kernel⟩

theorem witness_SnapshotTriggersStartOneOperation_0 : ∃ (s : State) (t : Trig) (n : Nat) (i : Instr) (ok : Warp → Nat → Bool) (k : Scene), (n, i, ok)
    ∈ snapRows t ∧ k.Of s t 12 n ∧ engineOpen k.x ∧ (∀ o ∈ k.x.ops, o.unit = 12 → 4 ≤ o.opc) ∧ (∀ l ∈ k.ls, (k.x.port 12 offM l).toNat < 2) ∧ ok k.x
    (k.val s (minOf k.ls 0)).toNat = true :=
  ⟨snapState, trig, _, _, _, scene snapState trig, List.mem_of_getElem? (i := 2) rfl, scene_of (by decide +kernel),
   by unfold engineOpen; decide +kernel, by constructorm* _ ∧ _ <;> decide +kernel⟩

theorem witness_SnapshotTriggersStartOneOperation_1 : ∃ (s : State) (t : Trig) (k : Scene), k.Of s t 12 8 ∧ engineOpen k.x ∧ (∀ o ∈ k.x.ops, o.unit =
    12 → 4 ≤ o.opc) ∧ (∀ l ∈ k.ls, (k.x.port 12 offM l).toNat < 2 ∧ (k.val s l).toNat < 2 ^ 56 ∧ (k.x.port 12 offA l).toNat % (if k.x.port 12 offM l =
    1 then 8 else 4) = 0) :=
  ⟨snapState, trig, scene snapState trig, scene_of (by decide +kernel), by unfold engineOpen; decide +kernel,
   by constructorm* _ ∧ _ <;> decide +kernel⟩

theorem witness_HomeTriggersStartOneOperation_0 : ∃ (s : State) (t : Trig) (n : Nat) (i : Instr) (ok : Nat → Nat → Nat → Bool) (k : Scene), (n, i, ok)
    ∈ tellRows t ∧ k.Of s t 13 n ∧ engineOpen k.x ∧ (∀ l ∈ k.ls, k.x.port 13 offM l = 0 ∧ (k.x.elem 13 offY l).filled = true ∧ ok (k.arg s 13 n offA
    l).toNat (k.arg s 13 n offB l).toNat (k.arg s 13 n offC l).toNat = true) :=
  ⟨homeState 13 [1, 2, 9] [], trig, _, _, _, scene (homeState 13 [1, 2, 9] []) trig, List.mem_of_getElem? (i := 9) rfl, scene_of (by decide +kernel),
   by unfold engineOpen; decide +kernel, by decide +kernel⟩

theorem witness_HomeTriggersStartOneOperation_1 : ∃ (s : State) (t : Trig) (n : Nat) (i : Instr) (ok : Nat → Nat → Nat → Bool) (k : Scene), (n, i, ok)
    ∈ tqRows t ∧ k.Of s t 14 n ∧ engineOpen k.x ∧ (∀ l ∈ k.ls, k.x.port 14 offM l = 0 ∧ (k.x.elem 14 offY l).filled = true ∧ ok (k.arg s 14 n offA
    l).toNat (k.arg s 14 n offB l).toNat (k.arg s 14 n offC l).toNat = true) :=
  ⟨homeState 14 [1, 2, 4095] [], trig, _, _, _, scene (homeState 14 [1, 2, 4095] []) trig, List.mem_of_getElem? (i := 1) rfl,
   scene_of (by decide +kernel), by unfold engineOpen; decide +kernel, by decide +kernel⟩

theorem witness_HomeTriggersStartOneOperation_2 : ∃ (s : State) (t : Trig) (n : Nat) (i : Instr) (k : Scene), (n, i) ∈ aceRows t ∧ k.Of s t 15 n ∧ (∀
    o ∈ k.x.ops, ¬ (o.unit = 17 ∧ o.opc = 8)) ∧ (∀ l ∈ k.ls, k.x.port 15 offM l = 0 ∧ selectorOk (k.arg s 15 n offA l).toNat = true) :=
  ⟨homeState 15 [1, 15, 0x7F] [], trig, _, _, scene (homeState 15 [1, 15, 0x7F] []) trig, List.mem_of_getElem? (i := 2) rfl,
   scene_of (by decide +kernel), by constructorm* _ ∧ _ <;> decide +kernel⟩

theorem witness_HomeTriggersStartOneOperation_3 : ∃ (s : State) (t : Trig) (n : Nat) (i : Instr) (ok : Warp → Nat → Bool) (k : Scene), (n, i, ok) ∈
    supWaitRows t ∧ k.Of s t 17 n ∧ (∀ o ∈ k.x.ops, ¬ (o.unit = 17 ∧ o.opc = 8)) ∧ (∀ l ∈ k.ls, k.x.port 17 offM l = 0 ∧ ok k.x (k.arg s 17 n offA
    l).toNat = true) :=
  ⟨homeState 17 [0, 0x20, 0xFFFFFFE0] [], trig, _, _, _, scene (homeState 17 [0, 0x20, 0xFFFFFFE0] []) trig, List.mem_of_getElem? (i := 1) rfl,
   scene_of (by decide +kernel), by constructorm* _ ∧ _ <;> decide +kernel⟩

/-! ## Witnesses: the sequencer, the supervisor's unit, moves -/

def callState : State := trigState 16 [0x40, 0xFFFFFE0, 0x60] []
def fmtState : State := trigState 16 [0x7FFF, 0, 0x100] []
def deepState : State :=
  trigState 16 [0x40, 0x60, 0x80] [] fun x => { x with lanes := x.lanes.map fun y => { y with rstack := List.replicate 7 (retEntry 0x60) } }
def loopState : State := trigState 16 [5, 5, 5] [(offA, [1, 1, 1]), (offB, [0x400000003, 0x400000003, 0x400000003])]
def aLevel (trip : Nat) : LoopLevel :=
  { members := 7, ix := 0, trip := BitVec.ofNat 32 trip, trip0 := 5, stride := 1, start := 0x20, stop := 0x80, exit := 0xA0 }
def inLoop (n : Nat) (x : Warp) : Warp :=
  { x with halves := [{ levels := List.replicate n (aLevel 2), counters := .empty }, { levels := [], counters := .empty }] }
def breakState : State := trigState 16 [5, 0, 3] [] (inLoop 6)
def goOnState : State := trigState 16 [5, 5, 5] [] (inLoop 6)
def barState : State := trigState 16 [0x1F, 0x1F, 0x1F] []

theorem witness_TransfersAndTheReturnStack_0 : ∃ (s : State) (t : Trig) (k : Scene) (rel call : Bool), k.Of s t 16 (if call then (if rel then 3 else
    2) else if rel then 1 else 0) ∧ (∀ l ∈ k.ls, k.x.port 16 offM l = 0) ∧ k.x.halted = none ∧ (∀ l ∈ k.ls, (seqTarget rel k.c.pc (k.val s l)).toNat %
    32 = 0 ∧ (call = true → (k.x.lane l).rstack.length < 8)) :=
  ⟨callState, trig, scene (callState) trig, false, true, scene_of (by decide +kernel), by constructorm* _ ∧ _ <;> decide +kernel⟩

theorem witness_TransfersAndTheReturnStack_1 : ∃ (s : State) (t : Trig) (k : Scene) (jump : Bool) (e : Nat → RetEntry) (r : Nat → List RetEntry), k.Of
    s t 16 (if jump then 4 else 15) ∧ (∀ l ∈ k.ls, k.x.port 16 offM l = 0) ∧ k.x.halted = none ∧ (∀ l ∈ k.ls, (k.x.lane l).rstack = e l :: r l) :=
  ⟨deepState, trig, scene (deepState) trig, true, fun _ => retEntry 0x60, fun _ => List.replicate 6 (retEntry 0x60), scene_of (by decide +kernel),
   by constructorm* _ ∧ _ <;> decide +kernel⟩

theorem witness_TransfersAndTheReturnStack_2 : ∃ (s : State) (t : Trig) (k : Scene), k.Of s t 16 14 ∧ (∀ l ∈ k.ls, k.x.port 16 offM l = 0) ∧
    k.x.halted = none ∧ (∀ l ∈ k.ls, (k.val s l).toNat % 32 = 0 ∧ (k.x.lane l).rstack.length < 8) :=
  ⟨deepState, trig, scene (deepState) trig, scene_of (by decide +kernel), by constructorm* _ ∧ _ <;> decide +kernel⟩

theorem witness_LoopsOpenBreakAndContinue_0 : ∃ (s : State) (t : Trig) (k : Scene), k.Of s t 16 5 ∧ (∀ l ∈ k.ls, k.x.port 16 offM l = 0) ∧ k.x.halted
    = none ∧ LoopLegal k s ∧ k.x.halves.length = 2 :=
  ⟨loopState, trig, scene (loopState) trig, scene_of (by decide +kernel), by decide +kernel, by decide +kernel, by constructor <;> decide +kernel,
   by decide +kernel⟩

theorem witness_LoopsOpenBreakAndContinue_1 : ∃ (s : State) (t : Trig) (k : Scene), k.Of s t 16 6 ∧ (∀ l ∈ k.ls, k.x.port 16 offM l = 0) ∧ k.x.halted
    = none ∧ (∀ l ∈ k.ls, (k.val s l).toNat < 8 ∧ membersTo k.x (k.val s l).toNat l) :=
  ⟨breakState, trig, scene (breakState) trig, scene_of (by decide +kernel), by decide +kernel, by decide +kernel, by unfold membersTo; decide +kernel⟩

theorem witness_LoopsOpenBreakAndContinue_2 : ∃ (s : State) (t : Trig) (k : Scene) (n : Nat) (v : LoopLevel), k.Of s t 16 7 ∧ (∀ l ∈ k.ls, k.x.port 16
    offM l = 0) ∧ k.x.halted = none ∧ k.x.w32 = false ∧ (k.x.half 0).levels[n]? = some v ∧ n < 6 ∧ (∀ l ∈ k.ls, (k.val s l).toNat = n ∧ membersTo k.x
    n l) :=
  ⟨goOnState, trig, scene (goOnState) trig, 5, aLevel 2, scene_of (by decide +kernel),
   also5 (by constructorm* _ ∧ _ <;> decide +kernel) (by unfold membersTo; decide +kernel)⟩

theorem witness_YieldFormatEndAndTrap_0 : ∃ (s : State) (t : Trig) (k : Scene), k.Of s t 16 9 ∧ (∀ l ∈ k.ls, k.x.port 16 offM l = 0) ∧ k.x.halted =
    none :=
  ⟨callState, trig, scene (callState) trig, scene_of (by decide +kernel), by constructorm* _ ∧ _ <;> decide +kernel⟩

theorem witness_YieldFormatEndAndTrap_1 : ∃ (s : State) (t : Trig) (k : Scene), k.Of s t 16 12 ∧ (∀ l ∈ k.ls, k.x.port 16 offM l = 0) ∧ k.x.halted =
    none ∧ (∀ l ∈ k.ls, (k.val s l).toNat / 2 ^ 15 % 2 = 0) :=
  ⟨fmtState, trig, scene (fmtState) trig, scene_of (by decide +kernel), by constructorm* _ ∧ _ <;> decide +kernel⟩

theorem witness_YieldFormatEndAndTrap_2 : ∃ (s : State) (t : Trig) (k : Scene), k.Of s t 16 8 ∧ (∀ l ∈ k.ls, k.x.port 16 offM l = 0) :=
  ⟨callState, trig, scene (callState) trig, scene_of (by decide +kernel), by decide +kernel⟩

theorem witness_YieldFormatEndAndTrap_3 : ∃ (s : State) (t : Trig) (k : Scene), k.Of s t 16 13 ∧ (∀ l ∈ k.ls, k.x.port 16 offM l = 0) ∧ k.x.halted =
    none ∧ 0 < (s.core k.tm.core).permits :=
  ⟨callState, trig, scene (callState) trig, scene_of (by decide +kernel), by constructorm* _ ∧ _ <;> decide +kernel⟩

theorem witness_BarriersCountArrivals : ∃ (s : State) (t : Trig) (k : Scene) (v : Nat) (parks : Bool), k.Of s t 16 (if parks then 10 else 11) ∧ (∀ l ∈
    k.ls, k.x.port 16 offM l = 0) ∧ k.x.halted = none ∧ BarLegal k s v :=
  ⟨barState, trig, scene (barState) trig, 0x1F, true, scene_of (by decide +kernel), by decide +kernel, by decide +kernel,
   by constructor <;> decide +kernel⟩

def supState (v : List Nat) : State := trigState 17 v [(offA, [0x1000, 0x7000, 0])]
def ringed (s : State) : State := withCfg 3 0x20007 s
def aTrace : TraceReq := { ctx := 1, type := 1, code := 0, team := 0, core := 0, quad := 0, slot := 0, value := 5, pc := 0x20 }
def traceState : State := ringed (withPages [(0x20, leafOf 0x30)] base)

theorem witness_SupervisorOperationsAndTrace_0 : ∃ (s : State) (t : Trig) (k : Scene), k.Of s t 17 0 ∧ (∀ l ∈ k.ls, k.x.port 17 offM l = 0) ∧ noSync
    k.x ∧ (∀ l ∈ k.ls, (k.val s l).toNat ∈ csrNumbers) :=
  ⟨supState [0x40, 0, 0x3F], trig, scene (supState [0x40, 0, 0x3F]) trig, scene_of (by decide +kernel), by decide +kernel,
   by unfold noSync; decide +kernel, by decide +kernel⟩

theorem witness_SupervisorOperationsAndTrace_1 : ∃ (s : State) (t : Trig) (k : Scene), k.Of s t 17 1 ∧ (∀ l ∈ k.ls, k.x.port 17 offM l = 0) ∧ noSync
    k.x ∧ (∀ l ∈ k.ls, (k.x.port 17 offA l).toNat % 2 ^ 12 = 0) :=
  ⟨supState [1, 2, 3], trig, scene (supState [1, 2, 3]) trig, scene_of (by decide +kernel), by decide +kernel, by unfold noSync; decide +kernel,
   by decide +kernel⟩

theorem witness_SupervisorOperationsAndTrace_2 : ∃ (s : State) (t : Trig) (k : Scene), k.Of s t 17 4 ∧ (∀ l ∈ k.ls, k.x.port 17 offM l = 0) ∧ noSync
    k.x ∧ (∀ l ∈ k.ls, counterDefined (k.val s l) = true) :=
  ⟨supState [0x1000, 0x1007, 0], trig, scene (supState [0x1000, 0x1007, 0]) trig, scene_of (by decide +kernel), by decide +kernel,
   by unfold noSync; decide +kernel, by decide +kernel⟩

theorem witness_SupervisorOperationsAndTrace_3 : ∃ (s : State) (t : Trig) (k : Scene), k.Of s t 17 6 ∧ (∀ l ∈ k.ls, k.x.port 17 offM l = 0) ∧ noSync
    k.x ∧ (∀ l ∈ k.ls, (k.val s l).toNat < 32 ∧ (k.val s l).toNat % 16 < 7) :=
  ⟨supState [0, 6, 16], trig, scene (supState [0, 6, 16]) trig, scene_of (by decide +kernel), by decide +kernel, by unfold noSync; decide +kernel,
   by decide +kernel⟩

theorem witness_SupervisorOperationsAndTrace_4 : ∃ (s : State) (t : Trig) (k : Scene), k.Of s t 17 3 ∧ (∀ l ∈ k.ls, k.x.port 17 offM l = 0) ∧ noSync
    k.x :=
  ⟨supState [0, 6, 16], trig, scene (supState [0, 6, 16]) trig, scene_of (by decide +kernel), by decide +kernel, by unfold noSync; decide +kernel⟩

theorem witness_SupervisorOperationsAndTrace_5 : ∃ (s : State) (t : Trig) (k : Scene), k.Of s t 17 5 ∧ (∀ l ∈ k.ls, k.x.port 17 offM l = 0) ∧ noSync
    k.x ∧ (∀ l ∈ k.ls, (k.val s l).toNat < 2) ∧ (s.context? k.tm.ctx).bind (fun c => c.debugQueue) = none :=
  ⟨supState [0, 1, 0], trig, scene (supState [0, 1, 0]) trig, scene_of (by decide +kernel), by decide +kernel, by unfold noSync; decide +kernel,
   by constructorm* _ ∧ _ <;> decide +kernel⟩

def debuggedState : State := modCtx1 (fun c => { c with debugQueue := some 4 }) (supState [0, 1, 0])

theorem witness_SupervisorOperationsAndTrace_6 : ∃ (s : State) (t : Trig) (k : Scene) (q : Nat), k.Of s t 17 5 ∧ (∀ l ∈ k.ls, k.x.port 17 offM l = 0)
    ∧ noSync k.x ∧ (∀ l ∈ k.ls, (k.val s l).toNat < 2) ∧ (s.context? k.tm.ctx).bind (fun c => c.debugQueue) = some q :=
  ⟨debuggedState, trig, scene (debuggedState) trig, 4, scene_of (by decide +kernel), by decide +kernel, by unfold noSync; decide +kernel,
   by constructorm* _ ∧ _ <;> decide +kernel⟩

theorem witness_SupervisorOperationsAndTrace_7_0 : ∃ (s : State) (r : TraceReq) (c : Context), s.context? r.ctx = some c ∧
    let ring := s.cfgWord r.ctx 3
    let base := ring.toNat / 2 ^ 12 * 2 ^ 12
    base = 0 :=
  ⟨base, aTrace, theCtx base 1, by constructorm* _ ∧ _ <;> decide +kernel⟩

theorem witness_SupervisorOperationsAndTrace_7_1 : ∃ (s : State) (r : TraceReq) (c : Context), s.context? r.ctx = some c ∧
    let ring := s.cfgWord r.ctx 3
    let base := ring.toNat / 2 ^ 12 * 2 ^ 12
    let a := base + 32 * (c.trPos % 2 ^ (ring.toNat % 32))
    base ≠ 0 ∧ ∃ p, translate s r.ctx a true false = .ok p ∧ invalPending s r.ctx a = false ∧ p.tgt = 0 :=
  ⟨traceState, aTrace, theCtx traceState 1, by decide +kernel, by decide +kernel, placeAt 0x30000, by constructorm* _ ∧ _ <;> decide +kernel⟩

theorem witness_SupervisorOperationsAndTrace_7_2 : ∃ (s : State) (r : TraceReq) (c : Context), s.context? r.ctx = some c ∧
    let ring := s.cfgWord r.ctx 3
    let base := ring.toNat / 2 ^ 12 * 2 ^ 12
    let a := base + 32 * (c.trPos % 2 ^ (ring.toNat % 32))
    base ≠ 0 ∧ ((∀ p, translate s r.ctx a true false ≠ .ok p) ∨ invalPending s r.ctx a = true) :=
  ⟨ringed base, aTrace, theCtx (ringed base) 1, by decide +kernel, by decide +kernel, .inl (never_ok (by decide +kernel))⟩

/-- Register 2 takes the constant 0x12345678, and register 3 the register 1 as the bundle finds it. -/
def movesBundle : Bundle :=
  { sw := false, d := 0, lv := 0, im := 0, slot5 := .const 0x12345678,
    moves := [{ g := 15, ng := false, dst := 2, src := .const }, { g := 15, ng := false, dst := 3, src := .port 1 }] }
def plainScene (s : State) (ms : List PlainMove) : PlainScene :=
  { w := w0, tm := theTeam s 1, x := theWarp s, c := choiceOf s (theWarp s), ms := ms }
def movesState : State := trigState 0 [1, 2, 3] []
def movesOf : List PlainMove :=
  [{ g := 15, ng := false, src := .const 0x12345678, dst := .reg 2 }, { g := 15, ng := false, src := .reg 1, dst := .reg 3 }]
def streamedState : State := trigState 0 [1, 2, 3] [] fun x => { x with streams := x.streams.insert 7 { aStream with written := 3 } }

theorem witness_PlainMovesReadBeforeTheyWrite_0 : ∃ (s : State) (b : Bundle) (k : PlainScene), k.Of s ∧ k.x.guards.length = 15 ∧ b.im = 0 ∧ (∀ m ∈
    b.moves, trigOf m.dst.toNat = none) ∧ (b.moves.map fun m => (loneSource s k.tm k.x (loneSrc b.slot5 m.src)).bind fun r => (resolveDst s k.tm
    k.x.budget m.dst.toNat).map fun d => (m.g, m.ng, r, d)) = k.ms.map (fun m => some (m.g, m.ng, m.src, m.dst)) ∧ (∀ set j e, b.slot5 = .cfg set j e
    → populated s k.tm 10 = true) :=
  ⟨movesState, movesBundle, plainScene movesState movesOf, by constructor <;> decide +kernel,
   also4 (by constructorm* _ ∧ _ <;> decide +kernel) (by rintro _ _ _ ⟨⟩)⟩

theorem witness_PlainMovesReadBeforeTheyWrite_1 : ∃ (s : State) (t : Trig) (k : PlainScene) (r : RSrc), k.Of s ∧ loneSource s k.tm k.x t.src = some r
    ∧ k.ms = [{ g := t.g, ng := t.ng, src := r, dst := .flags }] ∧ k.x.guards.length = 15 :=
  ⟨movesState, trig, plainScene movesState [{ g := 15, ng := false, src := .reg 1, dst := .flags }], .reg 1, by constructor <;> decide +kernel,
   by decide +kernel, rfl, by decide +kernel⟩

theorem witness_PlainMovesReadBeforeTheyWrite_2 : ∃ (s : State) (j : Fin 8) (g : BitVec 4) (ng : Bool) (dst : BitVec 13) (k : PlainScene) (d : RDst),
    k.Of s ∧ resolveDst s k.tm k.x.budget dst.toNat = some d ∧ k.ms = [{ g := g, ng := ng, src := .stream j, dst := d }] ∧ k.x.guards.length = 15 :=
  ⟨streamedState, 7, 15, false, 3, plainScene streamedState [{ g := 15, ng := false, src := .stream 7, dst := .reg 3 }], .reg 3,
   by constructor <;> decide +kernel, by decide +kernel, rfl, by decide +kernel⟩

def resultTrig : Trig := { g := 15, ng := false, src := .port 0x204 }
def holdState : State :=
  trigState 0 [] [] fun x => { x.modUnit 0 (fun q => { q with y := q.y.insert 1 unfilled }) with sched := false }
def skipBundle : Bundle := { movesBundle with im := 2, lv := 5 }
def skipState : State := trigState 0 [1, 2, 3] [] (inLoop 6)
def dueFill : Fill := { id := 7, unit := 7, opc := 0, due := 10, res := [{ lane := 2, y := 5, y2 := 0, exc := 0, trap := false }] }
def fillState : State := { base.modWarp w0 (fun x => { x with fills := [dueFill] }) with subject := .op w0 7 2 }

theorem witness_HoldsAndSkippedBundles_0 : ∃ (s : State) (t : Trig) (k : Scene) (u off : Nat), s.issuing = some k.w ∧ s.team? k.w.team = some k.tm ∧
    s.warp? k.w = some k.x ∧ k.x.chooseAt s.clk = some k.c ∧ loneSource s k.tm k.x t.src = some (.result u off) ∧ k.x.sched = false ∧ (∃ l ∈
    k.c.active, takesPart k.x t.g t.ng l = true ∧ (k.x.elem u off l).filled = false) :=
  ⟨holdState, resultTrig, scene holdState resultTrig, 0, 4, by constructorm* _ ∧ _ <;> decide +kernel⟩

theorem witness_HoldsAndSkippedBundles_1 : ∃ (s : State) (b : Bundle) (k : PlainScene) (lv : LoopLevel), s.issuing = some k.w ∧ s.team? k.w.team =
    some k.tm ∧ s.warp? k.w = some k.x ∧ k.x.chooseAt s.clk = some k.c ∧ k.x.w32 = false ∧ (∀ set j e, b.slot5 ≠ .cfg set j e) ∧ b.im = 2 ∧ (∀ m ∈
    b.moves, trigOf m.dst.toNat = none ∧ (loneSource s k.tm k.x (loneSrc b.slot5 m.src)).isSome = true ∧ (resolveDst s k.tm k.x.budget
    m.dst.toNat).isSome = true) ∧ (k.x.half 0).levels[b.lv.toNat]? = some lv ∧ lv.trip ≠ 1 ∧ (∀ l ∈ k.c.active, k.x.endLevel l k.c.pc = none) :=
  ⟨skipState, skipBundle, plainScene skipState [], aLevel 2, also5 (by constructorm* _ ∧ _ <;> decide +kernel) ⟨by rintro _ _ _ ⟨⟩,
   by constructorm* _ ∧ _ <;> decide +kernel⟩⟩

theorem witness_HoldsAndSkippedBundles_2 : ∃ (s : State) (i : Instr) (get : Warp → Nat) (set : Warp → Nat → Warp) (w : WRef) (x : Warp), (i, get, set)
    ∈ holdRows ∧ s.subject = .warp w ∧ s.warp? w = some x :=
  ⟨{ base with subject := .warp w0 }, _, _, _, w0, theWarp base, List.mem_of_getElem? (i := 3) rfl, by constructorm* _ ∧ _ <;> decide +kernel⟩

theorem witness_HoldsAndSkippedBundles_3 : ∃ (s : State) (n : Nat) (t : Team), s.subject = .num n ∧ s.team? n = some t ∧ t.status = .resident ∧
    t.lastIssue + 4096 ≤ s.clk ∧ (∀ e ∈ s.teams.entries, e.2.launch = t.launch → t.index ≤ e.2.index) :=
  ⟨{ base with clk := 4096, subject := .num 1 }, 1, theTeam base 1, by constructorm* _ ∧ _ <;> decide +kernel⟩

theorem witness_HoldsAndSkippedBundles_4 : ∃ (s : State) (c q : Nat), s.subject = .pair c q ∧ ((s.core c).quad q).pairActive = true :=
  ⟨{ pairOpen base 0 2 with subject := .pair 0 2 }, 0, 2, by constructorm* _ ∧ _ <;> decide +kernel⟩

theorem witness_HoldsAndSkippedBundles_5 : ∃ (s : State) (c : Nat), s.subject = .num c ∧ (s.core c).arrayWait ≠ 0 ∧ (s.core c).arrayWait + 63 ≤ s.clk
    :=
  ⟨{ base.modCore 0 (fun k => { k with arrayWait := 5 }) with clk := 68, subject := .num 0 }, 0, by constructorm* _ ∧ _ <;> decide +kernel⟩

theorem witness_FillsLandAtTheirClk : ∃ (s : State) (w : WRef) (t : Team) (x : Warp) (f : Fill) (l : Nat), s.subject = .op w f.id l ∧ s.team? w.team =
    some t ∧ t.status = .resident ∧ s.warp? w = some x ∧ x.halted = none ∧ f ∈ x.fills ∧ (∀ g ∈ x.fills, g.id = f.id → g = f) ∧ f.unit ≤ 7 ∧ f.due ≤
    s.clk ∧ (f.res.map LaneRes.lane).Nodup :=
  ⟨fillState, w0, theTeam fillState 1, theWarp fillState, dueFill, 2, by constructorm* _ ∧ _ <;> decide +kernel⟩

/-! ## Witnesses: barriers, memory -/

def phased (arrived : List Nat) (s : State) : State :=
  s.modTeam 1 fun t => { t with bars := t.bars.insert 15 { phase := 0xFFFFFFFF, mask := 1, arrived := arrived, warps := [], stores := [] } }
def barDone : State := { phased (List.range 64) base with subject := .pair 1 15 }
def barOpen : State := { phased (List.range 63) base with subject := .pair 1 15 }

theorem witness_BarrierPhasesComplete_0 : ∃ (s : State) (n b : Nat) (t : Team), s.subject = .pair n b ∧ s.team? n = some t ∧ (t.bar b).mask ≠ 0 ∧
    t.arb = [] ∧ (∀ (i : Nat) (x : Warp), t.warps[i]? = some x → (t.bar b).mask.getLsbD x.role = true → ∀ l ∈ x.liveLanes, i * 64 + l ∈ (t.bar
    b).arrived) ∧ (∀ x ∈ t.warps, x.halted = none ∧ ∀ l, (x.lane l).owes = none ∧ ∀ k id, (x.lane l).wait ≠ some (.again b k id)) :=
  ⟨barDone, 1, 15, theTeam barDone 1,
   also4 (by constructorm* _ ∧ _ <;> decide +kernel) ⟨of_one (x := theWarp barDone) (by decide +kernel) (by decide +kernel), by
    have h : ∀ x ∈ (theTeam barDone 1).warps, x.halted = none ∧ (decide (Lane.none.owes = none ∧ Lane.none.wait = none) &&
    x.lanes.all fun y => decide (y.owes = none ∧ y.wait = none)) = true := by decide +kernel
    intro x hx
    refine ⟨(h x hx).1, fun l => ?_⟩
    have e := of_decide_eq_true (all_lanes (p := fun y => decide (y.owes = none ∧ y.wait = none)) (h x hx).2 l)
    exact ⟨e.1, fun k id => by rw [e.2]; exact nofun⟩⟩⟩

theorem witness_BarrierPhasesComplete_1 : ∃ (s : State) (n b i l : Nat) (t : Team) (x : Warp), s.subject = .pair n b ∧ s.team? n = some t ∧
    t.warps[i]? = some x ∧ (t.bar b).mask.getLsbD x.role = true ∧ l ∈ x.liveLanes ∧ i * 64 + l ∉ (t.bar b).arrived :=
  ⟨barOpen, 1, 15, 0, 63, theTeam barOpen 1, theWarp barOpen, by constructorm* _ ∧ _ <;> decide +kernel⟩

def stItem : Item := anItem 1 0x9018 0x8877665544332211 .go (some (placeAt 0x9018)) 0
def stOp : Op := anOp 8 9 [stItem]
def leaveState : State := { (laneOn base stOp 1).modWarp w0 (fun x => { x with sq := [3] }) with subject := .warp w0 }
def updState : State := { (withSector base).modMem (fun m => { m with updates := m.updates.insert 2 anUpdate }) with subject := .num 2 }
def ackState (us : FMap Update) (ack : Nat) : State :=
  { base.modMem (fun m => { m with updates := us, writes := m.writes.insert 9 { aWrite with ack := ack } }) with subject := .num 9 }

theorem witness_StoresLeaveAndUpdatesArrive_0 : ∃ (s : State) (w : WRef) (t : Team) (x : Warp) (o : Op) (i : Item) (q : Place) (r : List Nat),
    s.subject = .warp w ∧ s.team? w.team = some t ∧ t.status ≠ .saved ∧ s.warp? w = some x ∧ x.sq = o.id :: r ∧ o.id ∉ r ∧ o ∈ x.ops ∧ (x.ops.map
    Op.id).Nodup ∧ o.items = [i] ∧ o.info = [] ∧ isMem o.unit = true ∧ isStore o.opc = true ∧ isTs o.opc i.m = false ∧ i.place = some q ∧ q.tgt = 0 ∧
    q.ver = false ∧ q.pa % 32 + memWidth o.opc i.c ≤ 32 ∧ mayLeave s w x o = true ∧ (∀ e ∈ s.mem.writes.entries, e.2.lost = false) ∧ (∀ e ∈ x.ops,
    e.items ≠ []) ∧ (∀ y, x.txnOf o = some y → y.lines.entries.length ≤ 2048) :=
  ⟨leaveState, w0, theTeam leaveState 1, theWarp leaveState, stOp, stItem, placeAt 0x9018, [],
   also6 (by constructorm* _ ∧ _ <;> decide +kernel) (also6 (by constructorm* _ ∧ _ <;> decide +kernel) (also6 (by constructorm* _ ∧ _ <;> decide +kernel) ⟨by decide +kernel,
   by decide +kernel, by
    intro y h
    have e : (theWarp leaveState).txnOf stOp = none := by decide +kernel
    rw [e] at h
    cases h⟩))⟩

theorem witness_StoresLeaveAndUpdatesArrive_1 : ∃ (s : State) (n : Nat) (u : Update) (k : Core), s.subject = .num n ∧ s.mem.updates.find? n = some u ∧
    u.arrived = true ∧ (∀ v ∈ s.mem.updates.vals, v.core = u.core → v.line = u.line → u.seqno ≤ v.seqno) ∧ s.cores.find? u.core = some k :=
  ⟨updState, 2, anUpdate, (updState.cores.find? 0).getD Core.start, by constructorm* _ ∧ _ <;> decide +kernel⟩

theorem witness_StoresLeaveAndUpdatesArrive_2_0 : ∃ (s : State) (n : Nat) (m : MemWrite), s.subject = .num n ∧ s.mem.writes.find? n = some m ∧ m.ack =
    2 :=
  ⟨ackState .empty 2, 9, { aWrite with ack := 2 }, by constructorm* _ ∧ _ <;> decide +kernel⟩

theorem witness_StoresLeaveAndUpdatesArrive_2_1 : ∃ (s : State) (n : Nat) (m : MemWrite), s.subject = .num n ∧ s.mem.writes.find? n = some m ∧ m.ack =
    0 ∧ canAck s n m = true ∧ m.core < 256 ∧ m.tgt ≠ 2 :=
  ⟨ackState .empty 0, 9, { aWrite with ack := 0 }, by constructorm* _ ∧ _ <;> decide +kernel⟩

theorem witness_StoresLeaveAndUpdatesArrive_2_2 : ∃ (s : State) (n : Nat) (m : MemWrite), s.subject = .num n ∧ s.mem.writes.find? n = some m ∧ (m.ack
    = 1 ∨ m.ack = 0 ∧ (m.performed = false ∨ ∃ u ∈ s.mem.updates.vals, u.write = n)) :=
  ⟨ackState .empty 1, 9, { aWrite with ack := 1 }, by constructorm* _ ∧ _ <;> decide +kernel⟩

theorem witness_StoresLeaveAndUpdatesArrive_2_2_b : ∃ (s : State) (n : Nat) (m : MemWrite), s.subject = .num n ∧ s.mem.writes.find? n = some m ∧
    (m.ack = 1 ∨ m.ack = 0 ∧ (m.performed = false ∨ ∃ u ∈ s.mem.updates.vals, u.write = n)) :=
  ⟨ackState (FMap.empty.insert 2 anUpdate) 0, 9, { aWrite with ack := 0 }, by constructorm* _ ∧ _ <;> decide +kernel⟩

def tsItem (l a : Nat) (trip : Nat) : Item := { anItem l a 5 .go none trip with m := 0x80 }
def tsOp (n : Nat) : Op := anOp 8 n [tsItem 1 0xFFC 2]
def arbState : State := (laneOn base (tsOp 8) 1).modTeam 1 fun t => { t with arb := [{ op := 3, warp := 0, writes := [(0xFFC, 5)] }] }
def ldOp (trip : Nat) : Op := anOp 8 5 [ldItem trip]
def ldState (trip : Nat) : State := laneOn base (ldOp trip) 1
def hitState : State := laneOn (withSector base) (ldOp 0) 1
def poisonState : State := laneOn (base.modMem fun m => { m with poison := [0x480] }) (ldOp 2) 1
def tsLdState : State := laneOn base (tsOp 4) 1

theorem witness_TeamStoreWritesPassTheArbiter : ∃ (s : State) (w : WRef) (l : Nat) (t : Team) (x : Warp) (o : Op) (a : TsWrite), s.subject = .op w
    o.id l ∧ s.team? w.team = some t ∧ t.status ≠ .saved ∧ s.warp? w = some x ∧ o ∈ x.ops ∧ (x.ops.map Op.id).Nodup ∧ (o.items.map Item.lane).Nodup ∧
    isMem o.unit = true ∧ isStore o.opc = true ∧ (∀ i ∈ o.items, isTs o.opc i.m = true ∧ i.lost = false) ∧ a ∈ t.arb ∧ a.op = o.id ∧ (∀ b ∈ t.arb,
    b.op = o.id → b = a) ∧ o.items ≠ [] ∧ mayPass s w t x o = true ∧ x.halted = none :=
  ⟨arbState, w0, 1, theTeam arbState 1, theWarp arbState, tsOp 8, { op := 3, warp := 0, writes := [(0xFFC, 5)] },
   by constructorm* _ ∧ _ <;> decide +kernel⟩

theorem witness_LoadsFillTheirBytes_0_0 : ∃ (s : State) (p : Pick) (n : Nat), OnLane s p ∧ isMem p.op.unit = true ∧ (p.op.opc, n) ∈ loadRows ∧
    p.item.stage = .go ∧ ∃ q, isTs p.op.opc p.item.m = false ∧ p.item.place = some q ∧ q.ver = false ∧ mayRead p.warp p.op = true ∧ forward p.warp
    p.op.id p.item.a.toNat n q = .none ∧ loadPoisoned s p q n = false ∧ l1Hit s (s.coreOf p.w.team) q.gaddr n (p.op.opc == 35) = true ∧ p.item.trip =
    0 :=
  ⟨hitState, lanePick hitState (ldOp 0) (ldItem 0), 8, on_lane (by decide +kernel), also3 (by constructorm* _ ∧ _ <;> decide +kernel) ⟨placeAt 0x9018,
   by constructorm* _ ∧ _ <;> decide +kernel⟩⟩

theorem witness_LoadsFillTheirBytes_0_1 : ∃ (s : State) (p : Pick) (n : Nat), OnLane s p ∧ isMem p.op.unit = true ∧ (p.op.opc, n) ∈ loadRows ∧
    p.item.stage = .go ∧ ∃ q, isTs p.op.opc p.item.m = false ∧ p.item.place = some q ∧ q.ver = false ∧ mayRead p.warp p.op = true ∧ forward p.warp
    p.op.id p.item.a.toNat n q = .none ∧ loadPoisoned s p q n = false ∧ l1Hit s (s.coreOf p.w.team) q.gaddr n (p.op.opc == 35) = false ∧ p.item.trip =
    2 ∧ (peerRefuses s q).1 = false :=
  ⟨ldState 2, lanePick (ldState 2) (ldOp 2) (ldItem 2), 8, on_lane (by decide +kernel),
   also3 (by constructorm* _ ∧ _ <;> decide +kernel) ⟨placeAt 0x9018, by constructorm* _ ∧ _ <;> decide +kernel⟩⟩

theorem witness_LoadsFillTheirBytes_0_2 : ∃ (s : State) (p : Pick) (n : Nat), OnLane s p ∧ isMem p.op.unit = true ∧ (p.op.opc, n) ∈ loadRows ∧
    p.item.stage = .go ∧ ∃ q, isTs p.op.opc p.item.m = false ∧ p.item.place = some q ∧ q.ver = false ∧ mayRead p.warp p.op = true ∧ forward p.warp
    p.op.id p.item.a.toNat n q = .none ∧ loadPoisoned s p q n = true ∧ p.item.trip = 2 ∧ p.op.inTxn = false ∧ (p.warp.lane p.item.lane).wait = none :=
  ⟨poisonState, lanePick poisonState (ldOp 2) (ldItem 2), 8, on_lane (by decide +kernel),
   also3 (by constructorm* _ ∧ _ <;> decide +kernel) ⟨placeAt 0x9018, by constructorm* _ ∧ _ <;> decide +kernel⟩⟩

theorem witness_LoadsFillTheirBytes_0_3 : ∃ (s : State) (p : Pick) (n : Nat), OnLane s p ∧ isMem p.op.unit = true ∧ (p.op.opc, n) ∈ loadRows ∧
    p.item.stage = .go ∧ ∃ t, isTs p.op.opc p.item.m = true ∧ s.team? p.w.team = some t ∧ tsClear p.warp p.op p.item = true ∧ p.warp.unfenced p.op.id
    = true ∧ t.tsPoisoned p.item.a.toNat n = false :=
  ⟨tsLdState, lanePick tsLdState (tsOp 4) (tsItem 1 0xFFC 2), 4, on_lane (by decide +kernel),
   also3 (by constructorm* _ ∧ _ <;> decide +kernel) ⟨theTeam tsLdState 1, by constructorm* _ ∧ _ <;> decide +kernel⟩⟩

def atomOp : Op := anOp 8 23 [ldItem 2]
def atomState : State := laneOn base atomOp 1
def tsAtomState : State := laneOn base (tsOp 22) 1
def fenceOp : Op := anOp 8 25 [{ anItem 1 0 0 .go none 0 with m := 4 }]
def fenceState : State := laneOn base fenceOp 1
def fenceLate : State := fenceState.modWarp w0 fun x => { x with ops := { anOp 9 8 [anItem 0 0x9000 0 .walk none 0] with id := 2 } :: x.ops }

theorem witness_AtomicsReadModifyWrite_0_0 : ∃ (s : State) (p : Pick) (n : Nat) (f : Nat → Nat → Nat → Option Nat), OnLane s p ∧ isMem p.op.unit =
    true ∧ (p.op.opc, n, f) ∈ atomRows ∧ p.item.stage = .go ∧ ∃ q, isTs p.op.opc p.item.m = false ∧ p.item.place = some q ∧ q.ver = false ∧
    mayAtomicGlobal s p q = true ∧ mayAtomic s p true = true ∧ atomicLost s p q = false ∧ p.item.trip = 2 ∧ poisonedAt s q n = false ∧ (peerRefuses s
    q).1 = false ∧ q.tgt < 3 ∧ (q.tgt = 2 → q.pa + n ≤ 2 ^ 40) :=
  ⟨atomState, lanePick atomState atomOp (ldItem 2), 8, _, on_lane (by decide +kernel), by decide +kernel, List.mem_of_getElem? (i := 11) rfl,
   by decide +kernel, placeAt 0x9018, by constructorm* _ ∧ _ <;> decide +kernel⟩

theorem witness_AtomicsReadModifyWrite_0_1 : ∃ (s : State) (p : Pick) (n : Nat) (f : Nat → Nat → Nat → Option Nat), OnLane s p ∧ isMem p.op.unit =
    true ∧ (p.op.opc, n, f) ∈ atomRows ∧ p.item.stage = .go ∧ ∃ t, isTs p.op.opc p.item.m = true ∧ s.team? p.w.team = some t ∧ (∀ b ∈ t.arb, b.warp =
    p.w.warp → p.op.id ≤ b.op) ∧ tsClear p.warp p.op p.item = true ∧ mayAtomic s p true = true ∧ t.tsPoisoned p.item.a.toNat n = false :=
  ⟨tsAtomState, lanePick tsAtomState (tsOp 22) (tsItem 1 0xFFC 2), 4, _, on_lane (by decide +kernel), by decide +kernel,
   List.mem_of_getElem? (i := 10) rfl, by decide +kernel, theTeam tsAtomState 1, by constructorm* _ ∧ _ <;> decide +kernel⟩

theorem witness_FencesWaitForEarlierEvents_0_0 : ∃ (s : State) (w : WRef) (l : Nat) (x : Warp) (o : Op), s.subject = .op w o.id l ∧ s.onCore w.team =
    true ∧ s.warp? w = some x ∧ o ∈ x.ops ∧ (x.ops.map Op.id).Nodup ∧ (o.items.map Item.lane).Nodup ∧ isMem o.unit = true ∧ o.opc = 25 ∧
    let sc := maxOf (o.items.map fun i => i.m.toNat % 8)
    x.unfenced o.id = true ∧ fenceReady s w o.id sc = true ∧ lostBefore s w o.id = false ∧ (∀ i ∈ o.items, i.lost = false) ∧ x.halted = none ∧ o.items
      ≠ [] :=
  ⟨fenceState, w0, 1, theWarp fenceState, fenceOp, by constructorm* _ ∧ _ <;> decide +kernel⟩

theorem witness_FencesWaitForEarlierEvents_0_1 : ∃ (s : State) (w : WRef) (l : Nat) (x : Warp) (o : Op), s.subject = .op w o.id l ∧ s.onCore w.team =
    true ∧ s.warp? w = some x ∧ o ∈ x.ops ∧ (x.ops.map Op.id).Nodup ∧ (o.items.map Item.lane).Nodup ∧ isMem o.unit = true ∧ o.opc = 25 ∧ (∃ e ∈ x.ops,
    e.id < o.id ∧ e.isEvent = true) :=
  ⟨fenceLate, w0, 1, theWarp fenceLate, fenceOp, by constructorm* _ ∧ _ <;> decide +kernel⟩

/-- A `waitcmp` of 8 bytes at 0x9018, which hold 0, for a value that is not `b`. -/
def monItem (b tgt : Nat) (st : Stage) (extra : List Nat) : Item :=
  { anItem 1 0x9018 b st (some { placeAt 0x9018 with tgt := tgt }) 2 with c := 5, extra := extra }
def monOp (b tgt : Nat) (st : Stage) (extra : List Nat) : Op := anOp 8 26 [monItem b tgt st extra]
def monState (b tgt : Nat) (st : Stage) (extra : List Nat) (f : Team → Team := id) : State :=
  (laneOn (base.modTeam 1 f) (monOp b tgt st extra) 1).modWarp w0 fun x => x.modLane 1 fun y => { y with wait := some (.monitor 3) }
def savedTeam (t : Team) : Team := { t with status := .saved, savedAt := 5 }

theorem witness_MonitorsReleaseOrStay_0_0 : ∃ (s : State) (p : Pick) (q : Place), OnLane s p ∧ isMem p.op.unit = true ∧ p.op.opc = 26 ∧ p.item.place =
    some q ∧ p.item.trip = 2 ∧
    let n := if p.item.c.toNat / 4 % 2 = 1 then 8 else 4
    let v := lowFirst ((List.range n).map fun k => s.mem.byteAt q.tgt q.dev (q.pa + k))
    poisonedAt s q n = false ∧ s.team? p.w.team ≠ none ∧ (p.item.stage = .armed → lineOpen s (s.coreOf p.w.team) q = false) ∧ (p.item.stage = .go →
      (peerRefuses s q).1 = false) ∧ p.item.stage = .armed ∧ waitHolds p.item.c.toNat v p.item.b.toNat ∧ (∃ t, s.team? p.w.team = some t ∧ t.status =
      .resident) ∧ (p.warp.lane p.item.lane).owes = none :=
  ⟨(monState 1 0 .armed []), lanePick (monState 1 0 .armed []) (monOp 1 0 .armed []) (monItem 1 0 .armed []), { placeAt 0x9018 with tgt := 0 },
   on_lane (by decide +kernel),
   also6 (by constructorm* _ ∧ _ <;> decide +kernel) (also3 (by constructorm* _ ∧ _ <;> decide +kernel) ⟨wait_ne.1 (by decide +kernel),
   ⟨theTeam (monState 1 0 .armed []) 1, by decide +kernel, by decide +kernel⟩, by decide +kernel⟩)⟩

theorem witness_MonitorsReleaseOrStay_0_1 : ∃ (s : State) (p : Pick) (q : Place), OnLane s p ∧ isMem p.op.unit = true ∧ p.op.opc = 26 ∧ p.item.place =
    some q ∧ p.item.trip = 2 ∧
    let n := if p.item.c.toNat / 4 % 2 = 1 then 8 else 4
    let v := lowFirst ((List.range n).map fun k => s.mem.byteAt q.tgt q.dev (q.pa + k))
    poisonedAt s q n = false ∧ s.team? p.w.team ≠ none ∧ (p.item.stage = .armed → lineOpen s (s.coreOf p.w.team) q = false) ∧ (p.item.stage = .go →
      (peerRefuses s q).1 = false) ∧ p.item.stage = .armed ∧ (¬ waitHolds p.item.c.toNat v p.item.b.toNat) ∧ p.item.extra = [] :=
  ⟨(monState 0 0 .armed []), lanePick (monState 0 0 .armed []) (monOp 0 0 .armed []) (monItem 0 0 .armed []), { placeAt 0x9018 with tgt := 0 },
   on_lane (by decide +kernel),
   also6 (by constructorm* _ ∧ _ <;> decide +kernel) (also3 (by constructorm* _ ∧ _ <;> decide +kernel) ⟨wait_ne.2 (by decide +kernel),
   by decide +kernel⟩)⟩

theorem witness_MonitorsReleaseOrStay_0_2 : ∃ (s : State) (p : Pick) (q : Place), OnLane s p ∧ isMem p.op.unit = true ∧ p.op.opc = 26 ∧ p.item.place =
    some q ∧ p.item.trip = 2 ∧
    let n := if p.item.c.toNat / 4 % 2 = 1 then 8 else 4
    let v := lowFirst ((List.range n).map fun k => s.mem.byteAt q.tgt q.dev (q.pa + k))
    poisonedAt s q n = false ∧ s.team? p.w.team ≠ none ∧ (p.item.stage = .armed → lineOpen s (s.coreOf p.w.team) q = false) ∧ (p.item.stage = .go →
      (peerRefuses s q).1 = false) ∧ p.item.stage = .armed ∧ waitHolds p.item.c.toNat v p.item.b.toNat ∧ (∃ t, s.team? p.w.team = some t ∧ t.status ≠
      .resident) :=
  ⟨(monState 1 0 .armed [] savedTeam), lanePick (monState 1 0 .armed [] savedTeam) (monOp 1 0 .armed []) (monItem 1 0 .armed []),
   { placeAt 0x9018 with tgt := 0 }, on_lane (by decide +kernel),
   also6 (by constructorm* _ ∧ _ <;> decide +kernel) (also3 (by constructorm* _ ∧ _ <;> decide +kernel) ⟨wait_ne.1 (by decide +kernel),
   ⟨theTeam (monState 1 0 .armed [] savedTeam) 1, by decide +kernel, by decide +kernel⟩⟩)⟩

theorem witness_MonitorsReleaseOrStay_0_3 : ∃ (s : State) (p : Pick) (q : Place), OnLane s p ∧ isMem p.op.unit = true ∧ p.op.opc = 26 ∧ p.item.place =
    some q ∧ p.item.trip = 2 ∧
    let n := if p.item.c.toNat / 4 % 2 = 1 then 8 else 4
    poisonedAt s q n = false ∧ s.team? p.w.team ≠ none ∧ (p.item.stage = .armed → lineOpen s (s.coreOf p.w.team) q = false) ∧ (p.item.stage = .go →
      (peerRefuses s q).1 = false) ∧ ∃ c, p.item.stage = .go ∧ p.item.extra = [c] ∧ s.clk < c :=
  ⟨(monState 1 1 .go [11]), lanePick (monState 1 1 .go [11]) (monOp 1 1 .go [11]) (monItem 1 1 .go [11]), { placeAt 0x9018 with tgt := 1 },
   on_lane (by decide +kernel), also6 (by constructorm* _ ∧ _ <;> decide +kernel) ⟨by decide +kernel, by decide +kernel, 11,
   by constructorm* _ ∧ _ <;> decide +kernel⟩⟩

theorem witness_MonitorsReleaseOrStay_0_4 : ∃ (s : State) (p : Pick) (q : Place), OnLane s p ∧ isMem p.op.unit = true ∧ p.op.opc = 26 ∧ p.item.place =
    some q ∧ p.item.trip = 2 ∧
    let n := if p.item.c.toNat / 4 % 2 = 1 then 8 else 4
    let v := lowFirst ((List.range n).map fun k => s.mem.byteAt q.tgt q.dev (q.pa + k))
    poisonedAt s q n = false ∧ s.team? p.w.team ≠ none ∧ (p.item.stage = .armed → lineOpen s (s.coreOf p.w.team) q = false) ∧ (p.item.stage = .go →
      (peerRefuses s q).1 = false) ∧ ∃ c, p.item.stage = .go ∧ p.item.extra = [c] ∧ c ≤ s.clk ∧ waitHolds p.item.c.toNat v p.item.b.toNat ∧ (∃ t,
      s.team? p.w.team = some t ∧ t.status = .resident) ∧ (p.warp.lane p.item.lane).owes = none :=
  ⟨(monState 1 1 .go [10]), lanePick (monState 1 1 .go [10]) (monOp 1 1 .go [10]) (monItem 1 1 .go [10]), { placeAt 0x9018 with tgt := 1 },
   on_lane (by decide +kernel), also6 (by constructorm* _ ∧ _ <;> decide +kernel) ⟨by decide +kernel, by decide +kernel, 10,
   also3 (by constructorm* _ ∧ _ <;> decide +kernel) ⟨wait_ne.1 (by decide +kernel),
   ⟨theTeam (monState 1 1 .go [10]) 1, by decide +kernel, by decide +kernel⟩, by decide +kernel⟩⟩⟩

theorem witness_MonitorsReleaseOrStay_0_5 : ∃ (s : State) (p : Pick) (q : Place), OnLane s p ∧ isMem p.op.unit = true ∧ p.op.opc = 26 ∧ p.item.place =
    some q ∧ p.item.trip = 2 ∧
    let n := if p.item.c.toNat / 4 % 2 = 1 then 8 else 4
    let v := lowFirst ((List.range n).map fun k => s.mem.byteAt q.tgt q.dev (q.pa + k))
    poisonedAt s q n = false ∧ s.team? p.w.team ≠ none ∧ (p.item.stage = .armed → lineOpen s (s.coreOf p.w.team) q = false) ∧ (p.item.stage = .go →
      (peerRefuses s q).1 = false) ∧ ∃ c, p.item.stage = .go ∧ p.item.extra = [c] ∧ c ≤ s.clk ∧ (¬ waitHolds p.item.c.toNat v p.item.b.toNat) ∧ q.tgt
      = 1 :=
  ⟨(monState 0 1 .go [10]), lanePick (monState 0 1 .go [10]) (monOp 0 1 .go [10]) (monItem 0 1 .go [10]), { placeAt 0x9018 with tgt := 1 },
   on_lane (by decide +kernel), also6 (by constructorm* _ ∧ _ <;> decide +kernel) ⟨by decide +kernel, by decide +kernel, 10,
   also3 (by constructorm* _ ∧ _ <;> decide +kernel) ⟨wait_ne.2 (by decide +kernel), by decide +kernel⟩⟩⟩

end Sys2Proof.Tests
end

