-- ==== Sys2Proof/Tests/Witness2.lean ====
section
/-! SUPPORT. Witnesses: states and operands that meet the hypotheses of each statement together (translation, jobs, commits and home operations). -/

namespace Sys2Proof.Tests
open Sys2Proof Sys2Proof.Machine

set_option Elab.async false
set_option linter.unusedVariables false

/-! ## Witnesses: translation, errors, copy jobs -/

/-- Pages 0x20 and 0x30 stand in frames 9 and 12. -/
def mapped (s : State) : State := withPages [(0x20, leafOf 9), (0x30, leafOf 12)] s
def pgOf (p : Nat) : Place := placeAt (if p = 0x20 then 0x9000 else 0xC000)
def tableBase (k : Nat) : Nat := if k = 4 then 0x100000 else 0x104000 - k * 0x1000
def tableEntry (va k : Nat) : Nat := ((mapped base).mem.word (tableBase k + 8 * (va / 2 ^ (12 + 9 * k) % 2 ^ 9))).toNat
theorem one_to_four {p : Nat → Prop} (h1 : p 1) (h2 : p 2) (h3 : p 3) (h4 : p 4) : ∀ k, 1 ≤ k → k ≤ 4 → p k := by
  intro k h m
  have e : k = 1 ∨ k = 2 ∨ k = 3 ∨ k = 4 := by omega
  rcases e with rfl | rfl | rfl | rfl <;> assumption

theorem witness_WalksFollowTheTables_0_0 : ∃ (s : State) (ctx va : Nat) (own : Bool) (base e : Nat → Nat), s.funcOf ctx = 64 ∧ va < 2 ^ 57 ∧ base 4 =
    (s.cfgWord ctx 7).toNat / 2 ^ 12 * 2 ^ 12 ∧ (∀ k, k ≤ 4 → e k = (s.mem.word (base k + 8 * (va / 2 ^ (12 + 9 * k) % 2 ^ 9))).toNat) ∧ (∀ k, k < 4 →
    base k = e (k + 1) / 2 ^ 12 % 2 ^ 40 * 2 ^ 12) ∧ (∀ k, 1 ≤ k → k ≤ 4 → e k % 2 ^ 12 = 1 ∧ e k / 2 ^ 52 = 0) ∧ e 0 % 4 = 3 ∧ e 0 / 2 ^ 4 % 4 = 0 ∧
    e 0 / 2 ^ 8 % 2 ^ 3 ≤ 2 ∧ (e 0 / 2 ^ 6 % 2 = 0 ∨ e 0 / 2 ^ 7 % 2 = 0) ∧ (e 0 / 2 ^ 6 % 4 ≤ 1 → e 0 / 2 ^ 52 = 0) ∧ (e 0 / 2 ^ 6 % 4 = 2 → e 0 / 2
    ^ 59 = 0) :=
  ⟨mapped base, 1, 0x20FFF, false, tableBase, tableEntry 0x20FFF,
   also5 (by constructorm* _ ∧ _ <;> decide +kernel) ⟨one_to_four (by decide +kernel) (by decide +kernel) (by decide +kernel) (by decide +kernel),
   by constructorm* _ ∧ _ <;> decide +kernel⟩⟩

theorem witness_WalksFollowTheTables_0_1 : ∃ (s : State) (ctx va : Nat) (own : Bool) (base e : Nat → Nat), s.funcOf ctx = 64 ∧ va < 2 ^ 57 ∧ base 4 =
    (s.cfgWord ctx 7).toNat / 2 ^ 12 * 2 ^ 12 ∧ (∀ k, k ≤ 4 → e k = (s.mem.word (base k + 8 * (va / 2 ^ (12 + 9 * k) % 2 ^ 9))).toNat) ∧ (∀ k, k < 4 →
    base k = e (k + 1) / 2 ^ 12 % 2 ^ 40 * 2 ^ 12) ∧ ∃ n, n ≤ 4 ∧ (∀ k, n < k → k ≤ 4 → e k % 2 ^ 12 = 1 ∧ e k / 2 ^ 52 = 0) ∧ e n % 2 = 0 :=
  ⟨mapped base, 1, 0x21FFF, false, tableBase, tableEntry 0x21FFF, also5 (by constructorm* _ ∧ _ <;> decide +kernel) ⟨0, by decide +kernel,
   one_to_four (by decide +kernel) (by decide +kernel) (by decide +kernel) (by decide +kernel), by decide +kernel⟩⟩

def walkItem (a : Nat) (st : Stage) : Item := anItem 1 a 0 st none 0
def walkOp (a : Nat) (st : Stage) : Op := anOp 8 5 [walkItem a st]
def walkState (a : Nat) (st : Stage) (f : State → State := id) : State :=
  { laneOn (mapped (f base)) (walkOp a st) 1 with subject := .trans (.op w0 3 1) }
def failedStage : Stage := .failed 0 false 0x21FF8 false
def reqState (clk : Nat) : State :=
  { base.modFunc 64 (fun f => { f with reqs := f.reqs.insert 5 { ctx := 1, page := 5, clk := 36 } }) with clk := clk, subject := .pair 64 5 }

theorem witness_WalksFaultsAndRetries_0_0 : ∃ (s : State) (p : Pick), OnTrans s p ∧ isMem p.op.unit = true ∧ p.op.opc ≠ 27 ∧ p.item.stage = .walk ∧
    let wr := isStore p.op.opc || isAtomic p.op.opc
    let va := p.item.a.toNat
    let core := s.coreOf p.w.team
    walkers p.op (va / 4096) = [p.item.lane] ∧ ∃ q, (∀ r ∈ answers s core (s.ctxOf p.w.team) va wr, r = .inr q) ∧ q.tgt = 0 ∧ q.ver = false :=
  ⟨(walkState 0x20FF8 .walk), lanePick (walkState 0x20FF8 .walk) (walkOp 0x20FF8 .walk) (walkItem 0x20FF8 .walk), by constructor <;> decide +kernel,
   also4 (by constructorm* _ ∧ _ <;> decide +kernel) ⟨placeAt 0x9FF8, by constructorm* _ ∧ _ <;> decide +kernel⟩⟩

theorem witness_WalksFaultsAndRetries_0_1 : ∃ (s : State) (p : Pick), OnTrans s p ∧ isMem p.op.unit = true ∧ p.op.opc ≠ 27 ∧ p.item.stage = .walk ∧
    let wr := isStore p.op.opc || isAtomic p.op.opc
    let va := p.item.a.toNat
    let core := s.coreOf p.w.team
    walkers p.op (va / 4096) = [p.item.lane] ∧ ∃ e, (∀ r ∈ answers s core (s.ctxOf p.w.team) va wr, r = .inl e) ∧ (∀ i ∈ p.op.items, i.failedPage ≠
      some (va / 4096)) :=
  ⟨(walkState 0x21FF8 .walk), lanePick (walkState 0x21FF8 .walk) (walkOp 0x21FF8 .walk) (walkItem 0x21FF8 .walk), by constructor <;> decide +kernel,
   also4 (by constructorm* _ ∧ _ <;> decide +kernel) ⟨{ kind := 0, s2 := false }, by constructorm* _ ∧ _ <;> decide +kernel⟩⟩

theorem witness_WalksFaultsAndRetries_1_0 : ∃ (s : State) (p : Pick) (t : Team) (c : Context) (kind va : Nat) (s2 wr : Bool), OnTrans s p ∧ isMem
    p.op.unit = true ∧ p.op.inTxn = false ∧ s.team? p.w.team = some t ∧ s.context? t.ctx = some c ∧ p.item.stage = .failed kind s2 va wr ∧ kind ≤ 3 ∧
    (∀ i ∈ p.op.items, i.lane ≠ p.item.lane → i.failedPage ≠ some (va / 4096)) ∧
    let rec_ := kind = 0 ∧ (s.cfgWord t.ctx 4).toNat % 2 = 1
    (¬ rec_) :=
  ⟨(walkState 0x21FF8 failedStage), lanePick (walkState 0x21FF8 failedStage) (walkOp 0x21FF8 failedStage) (walkItem 0x21FF8 failedStage),
   theTeam (walkState 0x21FF8 failedStage) 1, theCtx (walkState 0x21FF8 failedStage) 1, 0, 0x21FF8, false, false, by constructor <;> decide +kernel,
   by constructorm* _ ∧ _ <;> decide +kernel⟩

theorem witness_WalksFaultsAndRetries_1_1 : ∃ (s : State) (p : Pick) (t : Team) (c : Context) (kind va : Nat) (s2 wr : Bool), OnTrans s p ∧ isMem
    p.op.unit = true ∧ p.op.inTxn = false ∧ s.team? p.w.team = some t ∧ s.context? t.ctx = some c ∧ p.item.stage = .failed kind s2 va wr ∧ kind ≤ 3 ∧
    (∀ i ∈ p.op.items, i.lane ≠ p.item.lane → i.failedPage ≠ some (va / 4096)) ∧
    let rec_ := kind = 0 ∧ (s.cfgWord t.ctx 4).toNat % 2 = 1
    rec_ ∧ (¬ RingIsFull s t.ctx c) ∧ (s.func c.func).reqs.entries.length < 4096 ∧ (s.func c.func).nextReq ≠ 0 ∧ (s.func c.func).reqs.find? 0 = none ∧
      ((s.func c.func).reqs.entries.map Prod.fst).Nodup :=
  ⟨(walkState 0x21FF8 failedStage (withCfg 4 0x52903001)), lanePick (walkState 0x21FF8 failedStage (withCfg 4 0x52903001)) (walkOp 0x21FF8
   failedStage) (walkItem 0x21FF8 failedStage), theTeam (walkState 0x21FF8 failedStage (withCfg 4 0x52903001)) 1,
   theCtx (walkState 0x21FF8 failedStage (withCfg 4 0x52903001)) 1, 0, 0x21FF8, false, false, by constructor <;> decide +kernel,
   also6 (by constructorm* _ ∧ _ <;> decide +kernel) ⟨by decide +kernel, by decide +kernel, by unfold RingIsFull; decide +kernel,
   by constructorm* _ ∧ _ <;> decide +kernel⟩⟩

theorem witness_WalksFaultsAndRetries_1_2 : ∃ (s : State) (p : Pick) (t : Team) (c : Context) (kind va : Nat) (s2 wr : Bool), OnTrans s p ∧ isMem
    p.op.unit = true ∧ p.op.inTxn = false ∧ s.team? p.w.team = some t ∧ s.context? t.ctx = some c ∧ p.item.stage = .failed kind s2 va wr ∧ kind ≤ 3 ∧
    (∀ i ∈ p.op.items, i.lane ≠ p.item.lane → i.failedPage ≠ some (va / 4096)) ∧
    let rec_ := kind = 0 ∧ (s.cfgWord t.ctx 4).toNat % 2 = 1
    rec_ ∧ RingIsFull s t.ctx c :=
  ⟨(walkState 0x21FF8 failedStage fun s => modCtx1 (fun c => { c with fqPos := 256 }) (withCfg 4 0x52903001 s)), lanePick (walkState 0x21FF8
   failedStage fun s => modCtx1 (fun c => { c with fqPos := 256 }) (withCfg 4 0x52903001 s)) (walkOp 0x21FF8 failedStage) (walkItem 0x21FF8
   failedStage), theTeam (walkState 0x21FF8 failedStage fun s => modCtx1 (fun c => { c with fqPos := 256 }) (withCfg 4 0x52903001 s)) 1,
   theCtx (walkState 0x21FF8 failedStage fun s => modCtx1 (fun c => { c with fqPos := 256 }) (withCfg 4 0x52903001 s)) 1, 0, 0x21FF8, false, false,
   by constructor <;> decide +kernel, also6 (by constructorm* _ ∧ _ <;> decide +kernel) ⟨by decide +kernel, by decide +kernel,
   by unfold RingIsFull; decide +kernel⟩⟩

theorem witness_WalksFaultsAndRetries_2_0 : ∃ (s : State) (p : Pick) (k : Nat) (c : Context), OnTrans s p ∧ p.item.stage = .retry k ∧ s.context?
    (s.ctxOf p.w.team) = some c ∧ k ≤ s.clk :=
  ⟨(walkState 0x21FF8 (.retry 10)), lanePick (walkState 0x21FF8 (.retry 10)) (walkOp 0x21FF8 (.retry 10)) (walkItem 0x21FF8 (.retry 10)), 10,
   theCtx (walkState 0x21FF8 (.retry 10)) 1, by constructor <;> decide +kernel, by constructorm* _ ∧ _ <;> decide +kernel⟩

theorem witness_WalksFaultsAndRetries_2_1 : ∃ (s : State) (p : Pick) (k : Nat) (c : Context), OnTrans s p ∧ p.item.stage = .retry k ∧ s.context?
    (s.ctxOf p.w.team) = some c ∧ s.clk < k :=
  ⟨(walkState 0x21FF8 (.retry 11)), lanePick (walkState 0x21FF8 (.retry 11)) (walkOp 0x21FF8 (.retry 11)) (walkItem 0x21FF8 (.retry 11)), 11,
   theCtx (walkState 0x21FF8 (.retry 11)) 1, by constructor <;> decide +kernel, by constructorm* _ ∧ _ <;> decide +kernel⟩

theorem witness_WalksFaultsAndRetries_3_0 : ∃ (s : State) (f r : Nat) (q : PageReq), s.subject = .pair f r ∧ (s.func f).reqs.find? r = some q ∧
    let limit := q.clk + 2 ^ ((s.cfgWord q.ctx 4).toNat / 2 ^ 16 % 2 ^ 6)
    s.clk ≤ limit :=
  ⟨reqState (36 + 2 ^ 16), 64, 5, { ctx := 1, page := 5, clk := 36 }, by constructorm* _ ∧ _ <;> decide +kernel⟩

theorem witness_WalksFaultsAndRetries_3_1 : ∃ (s : State) (f r : Nat) (q : PageReq), s.subject = .pair f r ∧ (s.func f).reqs.find? r = some q ∧
    let limit := q.clk + 2 ^ ((s.cfgWord q.ctx 4).toNat / 2 ^ 16 % 2 ^ 6)
    limit < s.clk :=
  ⟨reqState (37 + 2 ^ 16), 64, 5, { ctx := 1, page := 5, clk := 36 }, by constructorm* _ ∧ _ <;> decide +kernel⟩

def aFrame : QFrame := { frame := 9, stamp := 1 }
def quarState (e : Nat) : State :=
  { (laneOn base (anOp 8 5 [{ ldItem 0 with epoch := e }]) 1).modMem (fun m => { m with epoch := 1, quarantine := [aFrame] }) with
    subject := .num 9 }

theorem witness_EvictionsErrorsAndQuarantine_0 : ∃ (s : State) (c line : Nat), s.subject = .pair c line :=
  ⟨{ withSector base with subject := .pair 0 0x48 }, 0, 0x48, by decide +kernel⟩

theorem witness_EvictionsErrorsAndQuarantine_1 : ∃ (s : State) (line : Nat), s.subject = .num line :=
  ⟨{ withSector base with subject := .num 0x48 }, 0x48, by decide +kernel⟩

theorem witness_EvictionsErrorsAndQuarantine_2 : ∃ (s : State) (die line : Nat), s.subject = .pair die line ∧ die < 4 :=
  ⟨{ base with subject := .pair 3 0x48 }, 3, 0x48, by constructorm* _ ∧ _ <;> decide +kernel⟩

theorem witness_EvictionsErrorsAndQuarantine_3 : ∃ (s : State) (fixed : Bool) (site : EccSite), s.subject = .ecc site fixed ∧ s.mem.errors.length = 6
    :=
  ⟨{ base with subject := .ecc (.l2 0x480) false }, false, .l2 0x480, by constructorm* _ ∧ _ <;> decide +kernel⟩

theorem witness_EvictionsErrorsAndQuarantine_3_b : ∃ (s : State) (fixed : Bool) (site : EccSite), s.subject = .ecc site fixed ∧ s.mem.errors.length =
    6 :=
  ⟨{ withSector base with subject := .ecc (.l1 0 0x480) true }, true, .l1 0 0x480, by constructorm* _ ∧ _ <;> decide +kernel⟩

theorem witness_EvictionsErrorsAndQuarantine_3_c : ∃ (s : State) (fixed : Bool) (site : EccSite), s.subject = .ecc site fixed ∧ s.mem.errors.length =
    6 :=
  ⟨{ base with subject := .ecc (.tstore 1 1023) false }, false, .tstore 1 1023, by constructorm* _ ∧ _ <;> decide +kernel⟩

theorem witness_EvictionsErrorsAndQuarantine_3_d : ∃ (s : State) (fixed : Bool) (site : EccSite), s.subject = .ecc site fixed ∧ s.mem.errors.length =
    6 :=
  ⟨{ base with subject := .ecc (.remote 3 0x48 15) false }, false, .remote 3 0x48 15, by constructorm* _ ∧ _ <;> decide +kernel⟩

theorem witness_EvictionsErrorsAndQuarantine_4_0 : ∃ (s : State) (q : QFrame), s.subject = .num q.frame ∧ q ∈ s.mem.quarantine ∧ (∀ r ∈
    s.mem.quarantine, r.frame = q.frame → r = q) ∧ (∀ e ∈ epochsInFlight s, q.stamp ≤ e) ∧ q.stamp ≤ s.mem.epoch :=
  ⟨quarState 1, aFrame, by constructorm* _ ∧ _ <;> decide +kernel⟩

theorem witness_EvictionsErrorsAndQuarantine_4_1 : ∃ (s : State) (q : QFrame), s.subject = .num q.frame ∧ q ∈ s.mem.quarantine ∧ (∀ r ∈
    s.mem.quarantine, r.frame = q.frame → r = q) ∧ (∃ e ∈ epochsInFlight s, e < q.stamp) :=
  ⟨quarState 0, aFrame, by constructorm* _ ∧ _ <;> decide +kernel⟩

/-- A copy of 16 bytes from 0x20FF0 to 0x30FF0. -/
def copyJob : Job := { aJob 11 0 with a := 0x20FF0, b := 0x30FF0, total := 16, regions := [{ ts := false, first := 0x20FF0, len := 16 }], wregions := [{ ts := false, first := 0x30FF0, len := 16 }] }
def begunCopy : Job := { copyJob with begun := true }
/-- The line that it reads has come. -/
def fetched (pa : Nat) (b : Job) : Job := { b with fetch := FMap.empty.insert (placeAt pa).line true }
def passedCopy : Job := { begunCopy with acc := 16, written := 16 }
def fillJob : Job := { begunCopy with opc := 4, a := 0x8877665544332211, regions := [] }
def jobWrite : MemWrite := { aWrite with op := 3, seqno := 8 }
def withJobWrite (s : State) : State := s.modMem fun m => { m with writes := m.writes.insert 8 jobWrite }

theorem witness_CopyJobsRun_0_0 : ∃ (s : State) (team : Nat) (t : Team) (b : Job), OnJob s team t b ∧ b.unit = 11 ∧ b.opc ≤ 8 ∧ b.begun = false ∧
    b.ending = false ∧ b.stage = .go ∧ warpClear s team b = true ∧ edgesClear s team b = true :=
  ⟨(jobState copyJob), 1, theTeam (jobState copyJob) 1, copyJob, by constructor <;> decide +kernel, by constructorm* _ ∧ _ <;> decide +kernel⟩

theorem witness_CopyJobsRun_0_1 : ∃ (s : State) (team : Nat) (t : Team) (b : Job), OnJob s team t b ∧ b.unit = 11 ∧ b.opc ≤ 8 ∧ b.begun = false ∧
    b.ending = false ∧ b.stage = .go ∧ (warpClear s team b = false ∨ edgesClear s team b = false) :=
  ⟨(jobState copyJob fun s => s.modWarp w0 fun x => { x with sq := [1] }), 1,
   theTeam (jobState copyJob fun s => s.modWarp w0 fun x => { x with sq := [1] }) 1, copyJob, by constructor <;> decide +kernel,
   by constructorm* _ ∧ _ <;> decide +kernel⟩

theorem witness_CopyJobsRun_1_0 : ∃ (s : State) (team : Nat) (t : Team) (b : Job) (pg : Nat → Place), OnJob s team t b ∧ b.unit = 11 ∧ b.begun = true
    ∧ b.ending = false ∧ b.acc = 0 ∧ b.stage = .go ∧
    let n := min 512 (b.total - 512 * b.cursor)
    let src := (List.range n).map fun k => operandAddr (modeSrcTs b.mode) b.a + 512 * b.cursor + k
    let dst := (List.range n).map fun k => operandAddr (modeDstTs b.mode) b.b + 512 * b.cursor + k
    Writable s t (modeDstTs b.mode) pg dst ∧ b.opc = 0 ∧ copyOverlaps b = false ∧ Readable s t b (modeSrcTs b.mode) pg src :=
  ⟨(jobState (fetched 0x9FF0 begunCopy) mapped), 1, theTeam (jobState (fetched 0x9FF0 begunCopy) mapped) 1, (fetched 0x9FF0 begunCopy), pgOf,
   by constructor <;> decide +kernel, also5 (by constructorm* _ ∧ _ <;> decide +kernel) ⟨by unfold Writable TranslatesTo; decide +kernel,
   by decide +kernel, by decide +kernel, by unfold Readable ReadsPlain TranslatesTo; decide +kernel⟩⟩

theorem witness_CopyJobsRun_1_1 : ∃ (s : State) (team : Nat) (t : Team) (b : Job) (pg : Nat → Place), OnJob s team t b ∧ b.unit = 11 ∧ b.begun = true
    ∧ b.ending = false ∧ b.acc = 0 ∧ b.stage = .go ∧
    let n := min 512 (b.total - 512 * b.cursor)
    let src := (List.range n).map fun k => operandAddr (modeSrcTs b.mode) b.a + 512 * b.cursor + k
    let dst := (List.range n).map fun k => operandAddr (modeDstTs b.mode) b.b + 512 * b.cursor + k
    Writable s t (modeDstTs b.mode) pg dst ∧ b.opc = 0 ∧ copyOverlaps b = false ∧ modeSrcTs b.mode = false ∧ (∀ a ∈ src, ReadsPlain s t pg a) ∧ (∃ a ∈
      src, b.fetch.getD (placeUnder pg a).line false = false) :=
  ⟨(jobState begunCopy mapped), 1, theTeam (jobState begunCopy mapped) 1, begunCopy, pgOf, by constructor <;> decide +kernel,
   also5 (by constructorm* _ ∧ _ <;> decide +kernel) ⟨by unfold Writable TranslatesTo; decide +kernel,
   also3 (by constructorm* _ ∧ _ <;> decide +kernel) ⟨by unfold ReadsPlain TranslatesTo; decide +kernel, by decide +kernel⟩⟩⟩

theorem witness_CopyJobsRun_1_2 : ∃ (s : State) (team : Nat) (t : Team) (b : Job) (pg : Nat → Place), OnJob s team t b ∧ b.unit = 11 ∧ b.begun = true
    ∧ b.ending = false ∧ b.acc = 0 ∧ b.stage = .go ∧
    let n := min 512 (b.total - 512 * b.cursor)
    let dst := (List.range n).map fun k => operandAddr (modeDstTs b.mode) b.b + 512 * b.cursor + k
    Writable s t (modeDstTs b.mode) pg dst ∧ b.opc = 4 :=
  ⟨(jobState fillJob mapped), 1, theTeam (jobState fillJob mapped) 1, fillJob, pgOf, by constructor <;> decide +kernel,
   also5 (by constructorm* _ ∧ _ <;> decide +kernel) ⟨by unfold Writable TranslatesTo; decide +kernel, by decide +kernel⟩⟩

theorem witness_CopyJobsRun_2_0 : ∃ (s : State) (team : Nat) (t : Team) (b : Job), OnJob s team t b ∧ b.unit = 11 ∧ b.begun = true ∧ b.ending = false
    ∧ b.acc ≠ 0 ∧ jobSettled s team b.id = false :=
  ⟨(jobState passedCopy withJobWrite), 1, theTeam (jobState passedCopy withJobWrite) 1, passedCopy, by constructor <;> decide +kernel,
   by constructorm* _ ∧ _ <;> decide +kernel⟩

theorem witness_CopyJobsRun_2_1 : ∃ (s : State) (team : Nat) (t : Team) (b : Job), OnJob s team t b ∧ b.unit = 11 ∧ b.begun = true ∧ b.ending = false
    ∧ b.acc ≠ 0 ∧ jobSettled s team b.id = true ∧ b.opc ≠ 6 :=
  ⟨(jobState passedCopy), 1, theTeam (jobState passedCopy) 1, passedCopy, by constructor <;> decide +kernel,
   by constructorm* _ ∧ _ <;> decide +kernel⟩

/-- A stream of 70 elements of one byte from page 0x20, with a ring of two rows in team store. -/
def streamJob (cursor : Nat) : Job :=
  { aJob 11 8 with begun := true, a := 0x20000, b := n64 (0x800 + 2 ^ 19), c := 70, cursor := cursor, total := 2 }
def bound (s : State) : State := s.modWarp w0 fun x => { x with streams := x.streams.insert 7 { aStream with job := 3, rows := 2, esz := 1, count := 70 } }
def sendJob (at_ : Nat) : Job := { aJob 11 13 with begun := true, total := 16, at_ := at_ }
def recvRing : Region := { ts := false, first := 0x20000, len := 96 }
def recvJob : Job :=
  { aJob 11 14 with begun := true, total := 16, a := 0x30800, b := 0x30FF0, regions := [recvRing],
                    wregions := [{ ts := false, first := 0x30FF0, len := 16 }] }
def sentOne (s : State) : State :=
  mapped (modCtx1 (fun c => { c with chans := c.chans.insert 0x30800 { sent := FMap.empty.insert 0 none, doneTo := 0, done := [], abandoned := [] } }) s)
def countJob : Job := { passedCopy with bar := 0x30040, acc := 0, written := 16 }
def endedCopy : Job := { passedCopy with ending := true, acc := 0 }

theorem witness_ObjectsMessagesAndCopyEnds_0_0 : ∃ (s : State) (team : Nat) (t : Team) (b : Job) (pg : Nat → Place), OnJob s team t b ∧ b.unit = 11 ∧
    b.opc = 8 ∧ b.begun = true ∧ b.ending = false ∧ b.acc = 0 ∧ b.stage = .go ∧ rowFree s team b b.cursor = false :=
  ⟨(jobState (streamJob 2) bound), 1, theTeam (jobState (streamJob 2) bound) 1, (streamJob 2), pgOf, by constructor <;> decide +kernel,
   by constructorm* _ ∧ _ <;> decide +kernel⟩

theorem witness_ObjectsMessagesAndCopyEnds_0_1 : ∃ (s : State) (team : Nat) (t : Team) (b : Job) (pg : Nat → Place), OnJob s team t b ∧ b.unit = 11 ∧
    b.opc = 8 ∧ b.begun = true ∧ b.ending = false ∧ b.acc = 0 ∧ b.stage = .go ∧
    let e := modeEsz b.mode
    let n := min 64 (b.c.toNat % 2 ^ 32 - 64 * b.cursor) * e
    let src := (List.range n).map fun k => operandAddr (modeSrcTs b.mode) b.a + 64 * b.cursor * e + k
    rowFree s team b b.cursor = true ∧ Readable s t b (modeSrcTs b.mode) pg src :=
  ⟨(jobState (fetched 0x9040 (streamJob 1)) fun s => mapped (bound s)), 1,
   theTeam (jobState (fetched 0x9040 (streamJob 1)) fun s => mapped (bound s)) 1, (fetched 0x9040 (streamJob 1)), pgOf,
   by constructor <;> decide +kernel, also6 (by constructorm* _ ∧ _ <;> decide +kernel) ⟨by decide +kernel,
   by unfold Readable ReadsPlain TranslatesTo; decide +kernel⟩⟩

theorem witness_ObjectsMessagesAndCopyEnds_1 : ∃ (s : State) (team : Nat) (t : Team) (b : Job) (pg : Nat → Place) (g : Region), OnJob s team t b ∧
    b.unit = 11 ∧ b.opc = 14 ∧ b.begun = true ∧ b.ending = false ∧ b.acc = 0 ∧ b.stage = .go ∧ b.regions = [g] ∧ (s.context? t.ctx).isSome = true ∧
    (chanOf s team b).sent.find? b.pos = some none ∧ sendOpen s team b = false ∧ regionClear s team b b.wregions true = true ∧ regionClear s team b
    b.regions false = true ∧
    let src := (List.range b.total).map fun k => g.first + b.pos % (g.len / (b.total + 32)) * (b.total + 32) + 32 + k
    let dst := (List.range b.total).map fun k => b.b.toNat + k
    Readable s t b false pg src ∧ Writable s t false pg dst :=
  ⟨(jobState (fetched 0x9020 recvJob) sentOne), 1, theTeam (jobState (fetched 0x9020 recvJob) sentOne) 1, (fetched 0x9020 recvJob), pgOf, recvRing,
   by constructor <;> decide +kernel,
   also6 (by constructorm* _ ∧ _ <;> decide +kernel) (also6 (by constructorm* _ ∧ _ <;> decide +kernel) ⟨by unfold Readable ReadsPlain TranslatesTo; decide +kernel,
   by unfold Writable TranslatesTo; decide +kernel⟩)⟩

theorem witness_ObjectsMessagesAndCopyEnds_2_0 : ∃ (s : State) (team : Nat) (t : Team) (b : Job), OnJob s team t b ∧ b.unit = 11 ∧ b.opc = 13 ∧
    b.begun = true ∧ b.at_ ≠ 0 ∧ s.clk < b.at_ :=
  ⟨(jobState (sendJob 11)), 1, theTeam (jobState (sendJob 11)) 1, (sendJob 11), by constructor <;> decide +kernel,
   by constructorm* _ ∧ _ <;> decide +kernel⟩

theorem witness_ObjectsMessagesAndCopyEnds_2_1 : ∃ (s : State) (team : Nat) (t : Team) (b : Job), OnJob s team t b ∧ b.unit = 11 ∧ b.opc = 13 ∧
    b.begun = true ∧ b.at_ ≠ 0 ∧ b.at_ ≤ s.clk :=
  ⟨(jobState (sendJob 10)), 1, theTeam (jobState (sendJob 10)) 1, (sendJob 10), by constructor <;> decide +kernel,
   by constructorm* _ ∧ _ <;> decide +kernel⟩

theorem witness_ObjectsMessagesAndCopyEnds_3 : ∃ (s : State) (team : Nat) (t : Team) (b : Job) (pg : Nat → Place), OnJob s team t b ∧ b.stage = .go ∧
    b.bar ≠ 0 ∧ b.final = false ∧ b.restOpen = false ∧ (b.begun = true ∨ objectClear s team b = true) ∧ TranslatesTo s t.core t.ctx true pg b.bar ∧
    let q := placeUnder pg b.bar
    q.tgt = 0 ∧ lineOpen s t.core q = false ∧ q.ver = false ∧ poisonedAt s q 64 = false ∧ objectWaiters s q = [] ∧
    let short := decide (b.ending = true ∧ (b.status = 1 ∨ b.status = 2 ∨ b.tag ≠ 0))
    let n := (if short then max b.total b.written else b.written) - b.counted
    let flags := if short then (if b.status = 1 then 2 ^ 62 else 2 ^ 61) else 0
    (b.ending = true ∨ b.counted < b.written) ∧ (n ≠ 0 ∨ flags ≠ 0) :=
  ⟨(jobState countJob mapped), 1, theTeam (jobState countJob mapped) 1, countJob, pgOf, by constructor <;> decide +kernel,
   also5 (by constructorm* _ ∧ _ <;> decide +kernel) ⟨by unfold TranslatesTo; decide +kernel, by constructorm* _ ∧ _ <;> decide +kernel⟩⟩

theorem witness_ObjectsMessagesAndCopyEnds_4_0 : ∃ (s : State) (team : Nat) (t : Team) (b : Job), OnJob s team t b ∧ b.unit = 11 ∧ b.isChan = false ∧
    (b.opc = 8 → b.tag = 0) ∧ (∀ x ∈ t.warps, x.halted = none ∧ ∀ o ∈ x.ops, o.unit = 11 → o.opc ≠ 9 ∧ o.opc ≠ 15) ∧ jobMayLeave s team b = false :=
  ⟨(jobState endedCopy withJobWrite), 1, theTeam (jobState endedCopy withJobWrite) 1, endedCopy, by constructor <;> decide +kernel,
   by constructorm* _ ∧ _ <;> decide +kernel⟩

theorem witness_ObjectsMessagesAndCopyEnds_4_1 : ∃ (s : State) (team : Nat) (t : Team) (b : Job), OnJob s team t b ∧ b.unit = 11 ∧ b.isChan = false ∧
    (b.opc = 8 → b.tag = 0) ∧ (∀ x ∈ t.warps, x.halted = none ∧ ∀ o ∈ x.ops, o.unit = 11 → o.opc ≠ 9 ∧ o.opc ≠ 15) ∧ jobMayLeave s team b = true :=
  ⟨(jobState endedCopy), 1, theTeam (jobState endedCopy) 1, endedCopy, by constructor <;> decide +kernel, by constructorm* _ ∧ _ <;> decide +kernel⟩

/-! ## Witnesses: matrix jobs, commits -/

def mxJob (n : Nat) : Job := { aJob 10 n with begun := true }
/-- Rows 127 and up to 127 of tile 7. -/
def lastRow : Job := { mxJob 6 with c := n64 (127 * 2 ^ 25 + 7), b := 512 }
def withMx (f : MxState → MxState) (s : State) : State := s.modCore 0 fun k => { k with mx := f k.mx }
def badPlane (s : State) : State := withMx (fun m => { m with p0 := { m.p0 with poison := true }, p1 := { m.p1 with poison := true } }) s
def badElement (s : State) : State := withMx (fun m => { m with poison := [7 * 16384 + 127 * 128 + 127] }) s

theorem witness_MatrixJobsRun_0_0 : ∃ (s : State) (team : Nat) (t : Team) (b : Job), OnJob s team t b ∧ b.unit = 10 ∧ (b.opc = 2 ∨ b.opc = 3 ∨ b.opc =
    13) ∧ b.begun = true ∧ b.ending = false ∧ b.stage = .go ∧ b.cursor < mxRows b.c ∧ mxRow0 b.c + b.cursor < 128 ∧
    let x := (s.core t.core).mx
    let fmt := mxFmt b.mode
    b.cursor = 0 ∧ fmt ≠ x.act.fmt :=
  ⟨(jobState { mxJob 2 with mode := 4 }), 1, theTeam (jobState { mxJob 2 with mode := 4 }) 1, { mxJob 2 with mode := 4 },
   by constructor <;> decide +kernel, by constructorm* _ ∧ _ <;> decide +kernel⟩

theorem witness_MatrixJobsRun_0_1 : ∃ (s : State) (team : Nat) (t : Team) (b : Job), OnJob s team t b ∧ b.unit = 10 ∧ (b.opc = 2 ∨ b.opc = 3 ∨ b.opc =
    13) ∧ b.begun = true ∧ b.ending = false ∧ b.stage = .go ∧ b.cursor < mxRows b.c ∧ mxRow0 b.c + b.cursor < 128 ∧
    let x := (s.core t.core).mx
    let fmt := mxFmt b.mode
    b.cursor = 0 ∧ fmt = x.act.fmt ∧ x.act.poison = true :=
  ⟨(jobState (mxJob 2) badPlane), 1, theTeam (jobState (mxJob 2) badPlane) 1, (mxJob 2), by constructor <;> decide +kernel,
   by constructorm* _ ∧ _ <;> decide +kernel⟩

theorem witness_MatrixJobsRun_0_2 : ∃ (s : State) (team : Nat) (t : Team) (b : Job), OnJob s team t b ∧ b.unit = 10 ∧ (b.opc = 2 ∨ b.opc = 3 ∨ b.opc =
    13) ∧ b.begun = true ∧ b.ending = false ∧ b.stage = .go ∧ b.cursor < mxRows b.c ∧ mxRow0 b.c + b.cursor < 128 ∧
    let x := (s.core t.core).mx
    let fmt := mxFmt b.mode
    let elems := fun k => if mxSrcTs b.mode then b.a.toNat % 2 ^ 19 + rowBytesOf fmt * b.cursor + k else b.a.toNat + rowBytesOf fmt * b.cursor + k
    let hdrs := fun k => if mxSrcTs b.mode then b.b.toNat % 2 ^ 19 + 4 * b.cursor + k else b.b.toNat + 4 * b.cursor + k
    (b.cursor = 0 → fmt = x.act.fmt ∧ x.act.poison = false) ∧ (s.core t.core).mxBusy ≤ s.clk ∧ rowUnits s t.core ≠ 0 ∧ mxSrcTs b.mode = true ∧
    let es := (List.range (rowBytesOf fmt)).map elems
    let hs := if fmt = 2 then [] else (List.range 4).map hdrs
    (∀ a ∈ es ++ hs, t.tsPoisoned a 1 = false) :=
  ⟨(jobState { mxJob 13 with c := n64 (127 * 2 ^ 25) }), 1, theTeam (jobState { mxJob 13 with c := n64 (127 * 2 ^ 25) }) 1,
   { mxJob 13 with c := n64 (127 * 2 ^ 25) }, by constructor <;> decide +kernel, by constructorm* _ ∧ _ <;> decide +kernel⟩

theorem witness_MatrixJobsRun_1_0 : ∃ (s : State) (team : Nat) (t : Team) (b : Job), OnJob s team t b ∧ b.unit = 10 ∧ b.begun = true ∧ b.ending =
    false ∧ b.stage = .go ∧ b.opc = 1 :=
  ⟨(jobState (mxJob 1)), 1, theTeam (jobState (mxJob 1)) 1, (mxJob 1), by constructor <;> decide +kernel, by constructorm* _ ∧ _ <;> decide +kernel⟩

theorem witness_MatrixJobsRun_1_1 : ∃ (s : State) (team : Nat) (t : Team) (b : Job), OnJob s team t b ∧ b.unit = 10 ∧ b.begun = true ∧ b.ending =
    false ∧ b.stage = .go ∧ b.opc = 3 ∧ b.cursor = mxRows b.c ∧ earlierJob s team b Job.onPlanes = false :=
  ⟨(jobState { mxJob 3 with cursor := 1 }), 1, theTeam (jobState { mxJob 3 with cursor := 1 }) 1, { mxJob 3 with cursor := 1 },
   by constructor <;> decide +kernel, by constructorm* _ ∧ _ <;> decide +kernel⟩

theorem witness_MatrixJobsRun_1_2 : ∃ (s : State) (team : Nat) (t : Team) (b : Job), OnJob s team t b ∧ b.unit = 10 ∧ b.begun = true ∧ b.ending =
    false ∧ b.stage = .go ∧ b.opc = 4 ∧ b.pos = 0 ∧ (∀ k, earlierJob s team b (fun j => j.onTile k) = false) :=
  ⟨(jobState (mxJob 4)), 1, theTeam (jobState (mxJob 4)) 1, (mxJob 4), by constructor <;> decide +kernel,
   also6 (by constructorm* _ ∧ _ <;> decide +kernel) (fun _ => rfl)⟩

theorem witness_MatrixJobsRun_1_3 : ∃ (s : State) (team : Nat) (t : Team) (b : Job), OnJob s team t b ∧ b.unit = 10 ∧ b.begun = true ∧ b.ending =
    false ∧ b.stage = .go ∧ b.opc = 12 ∧ (b.data.entries.map Prod.fst).Nodup ∧ (∀ e ∈ b.data.entries, e.1 < 64) :=
  ⟨(jobState { mxJob 12 with data := FMap.empty.insert 0 7 |>.insert 63 9 }), 1,
   theTeam (jobState { mxJob 12 with data := FMap.empty.insert 0 7 |>.insert 63 9 }) 1,
   { mxJob 12 with data := FMap.empty.insert 0 7 |>.insert 63 9 }, by constructor <;> decide +kernel, by constructorm* _ ∧ _ <;> decide +kernel⟩

theorem witness_MatrixJobsRun_2_0 : ∃ (s : State) (team : Nat) (t : Team) (b : Job), OnJob s team t b ∧ b.unit = 10 ∧ (b.opc = 6 ∨ b.opc = 7) ∧
    b.begun = true ∧ b.ending = false ∧ b.stage = .go ∧ mxDstTs b.mode = true ∧ t.tsPoison = [] ∧
    let x := (s.core t.core).mx
    ∃ i, i < mxRows b.c ∧ x.rowPoisoned (mxTile b.c) (mxRow0 b.c + i) = true ∧ (∀ j, j < i → x.rowPoisoned (mxTile b.c) (mxRow0 b.c + j) = false) :=
  ⟨(jobState lastRow badElement), 1, theTeam (jobState lastRow badElement) 1, lastRow, by constructor <;> decide +kernel,
   also6 (by constructorm* _ ∧ _ <;> decide +kernel) ⟨by decide +kernel, 0, by constructorm* _ ∧ _ <;> decide +kernel⟩⟩

theorem witness_MatrixJobsRun_2_1 : ∃ (s : State) (team : Nat) (t : Team) (b : Job), OnJob s team t b ∧ b.unit = 10 ∧ (b.opc = 6 ∨ b.opc = 7) ∧
    b.begun = true ∧ b.ending = false ∧ b.stage = .go ∧ mxDstTs b.mode = true ∧ t.tsPoison = [] ∧
    let x := (s.core t.core).mx
    let w := if tileFmt b.c = 0 then 4 else 2
    (∀ i, i < mxRows b.c → x.rowPoisoned (mxTile b.c) (mxRow0 b.c + i) = false) ∧ 128 * w ≤ b.b.toNat % 2 ^ 32 :=
  ⟨(jobState lastRow), 1, theTeam (jobState lastRow) 1, lastRow, by constructor <;> decide +kernel, by constructorm* _ ∧ _ <;> decide +kernel⟩

theorem witness_MatrixJobsRun_3 : ∃ (s : State) (team : Nat) (t : Team) (b : Job), OnJob s team t b ∧ b.unit = 10 ∧ (b.opc ≤ 8 ∨ b.opc = 12 ∨ b.opc =
    13) ∧ jobMayLeave s team b = true ∧ (∀ x ∈ t.warps, x.halted = none ∧ ∀ o ∈ x.ops, o.unit ≠ 10) :=
  ⟨(jobState { mxJob 8 with ending := true }), 1, theTeam (jobState { mxJob 8 with ending := true }) 1, { mxJob 8 with ending := true },
   by constructor <;> decide +kernel, by constructorm* _ ∧ _ <;> decide +kernel⟩

def waitOp (n sel : Nat) : Op := anOp 10 n [anItem 1 sel 0 .go none 0]

theorem witness_MatrixJobsRun_4_0 : ∃ (s : State) (w : WRef) (t : Team) (x : Warp) (o : Op) (i : Item), s.subject = .op w o.id i.lane ∧ s.team? w.team
    = some t ∧ s.warp? w = some x ∧ o ∈ x.ops ∧ (x.ops.map Op.id).Nodup ∧ o.items = [i] ∧ i.lost = false ∧ x.halted = none ∧ o.unit = 10 ∧ o.opc = 9 ∧
    o.clk < s.clk :=
  ⟨(laneOn base (waitOp 9 3) 1), w0, theTeam (laneOn base (waitOp 9 3) 1) 1, theWarp (laneOn base (waitOp 9 3) 1), waitOp 9 3,
   anItem 1 3 0 .go none 0, by constructorm* _ ∧ _ <;> decide +kernel⟩

theorem witness_MatrixJobsRun_4_1 : ∃ (s : State) (w : WRef) (t : Team) (x : Warp) (o : Op) (i : Item), s.subject = .op w o.id i.lane ∧ s.team? w.team
    = some t ∧ s.warp? w = some x ∧ o ∈ x.ops ∧ (x.ops.map Op.id).Nodup ∧ o.items = [i] ∧ i.lost = false ∧ x.halted = none ∧ o.unit = 10 ∧ o.opc = 10
    ∧ i.a.toNat % 16 = 9 ∧ (∀ b ∈ t.jobs, ¬ (b.unit = 10 ∧ b.trig < o.id)) ∧ t.mxFailed = [] :=
  ⟨(laneOn base (waitOp 10 9) 1), w0, theTeam (laneOn base (waitOp 10 9) 1) 1, theWarp (laneOn base (waitOp 10 9) 1), waitOp 10 9,
   anItem 1 9 0 .go none 0, by constructorm* _ ∧ _ <;> decide +kernel⟩

def turnOp : Op := anOp 12 2 [anItem 1 0 0 .go none 0]
/-- Line 72 was committed at a time, with older versions. -/
def chainOf (time older : Nat) : SnapState → SnapState :=
  fun n => { n with clock := 9, published := 9, tookAt := 9, chains := FMap.empty.insert 72 { time := time, older := (List.range older).map fun k => { time := k, bytes := .empty, poison := [] } } }
def turnState (t : Option Txn) (time older : Nat) (before : List Op) : State :=
  { withHeap (modSnap (chainOf time older) (base.modWarp w0 fun x => { withOp turnOp x with txn := t, ops := before ++ [turnOp] })) with
    subject := .op w0 3 1 }
def slowLoad : Op := { anOp 8 4 [anItem 0 0x9000 0 .walk none 0] with id := 1 }

theorem witness_CommitsTakeTheirTurn_0_0 : ∃ (s : State) (w : WRef) (l : Nat) (x : Warp) (o : Op), s.subject = .op w o.id l ∧ s.warp? w = some x ∧ o ∈
    x.ops ∧ (x.ops.map Op.id).Nodup ∧ (o.items.map Item.lane).Nodup ∧ o.unit = 12 ∧ o.opc = 2 ∧ o.info = [] ∧ x.halted = none ∧ x.txn = none :=
  ⟨(turnState none 0 0 []), w0, 1, theWarp (turnState none 0 0 []), turnOp, by constructorm* _ ∧ _ <;> decide +kernel⟩

theorem witness_CommitsTakeTheirTurn_0_1 : ∃ (s : State) (w : WRef) (l : Nat) (x : Warp) (o : Op), s.subject = .op w o.id l ∧ s.warp? w = some x ∧ o ∈
    x.ops ∧ (x.ops.map Op.id).Nodup ∧ (o.items.map Item.lane).Nodup ∧ o.unit = 12 ∧ o.opc = 2 ∧ o.info = [] ∧ x.halted = none ∧ ∃ k, x.txn = some k ∧
    fenceReady s w o.id 3 = false :=
  ⟨(turnState (aTxn false none [72]) 0 0 [slowLoad]), w0, 1, theWarp (turnState (aTxn false none [72]) 0 0 [slowLoad]), turnOp,
   also6 (by constructorm* _ ∧ _ <;> decide +kernel) (also3 (by constructorm* _ ∧ _ <;> decide +kernel) ⟨aTxn false none [72],
   by constructorm* _ ∧ _ <;> decide +kernel⟩)⟩

theorem witness_CommitsTakeTheirTurn_0_2 : ∃ (s : State) (w : WRef) (l : Nat) (x : Warp) (o : Op), s.subject = .op w o.id l ∧ s.warp? w = some x ∧ o ∈
    x.ops ∧ (x.ops.map Op.id).Nodup ∧ (o.items.map Item.lane).Nodup ∧ o.unit = 12 ∧ o.opc = 2 ∧ o.info = [] ∧ x.halted = none ∧ ∃ k, x.txn = some k ∧
    fenceReady s w o.id 3 = true ∧ ∃ c, k.doom = some c :=
  ⟨(turnState (aTxn false (some 4) [72]) 0 0 []), w0, 1, theWarp (turnState (aTxn false (some 4) [72]) 0 0 []), turnOp,
   also6 (by constructorm* _ ∧ _ <;> decide +kernel) (also3 (by constructorm* _ ∧ _ <;> decide +kernel) ⟨aTxn false (some 4) [72], by decide +kernel,
   by decide +kernel, 4, by decide +kernel⟩)⟩

theorem witness_CommitsTakeTheirTurn_0_3 : ∃ (s : State) (w : WRef) (l : Nat) (x : Warp) (o : Op), s.subject = .op w o.id l ∧ s.warp? w = some x ∧ o ∈
    x.ops ∧ (x.ops.map Op.id).Nodup ∧ (o.items.map Item.lane).Nodup ∧ o.unit = 12 ∧ o.opc = 2 ∧ o.info = [] ∧ x.halted = none ∧ ∃ k, x.txn = some k ∧
    fenceReady s w o.id 3 = true ∧ k.doom = none ∧ (k.ro = true ∨ k.lines.entries = []) :=
  ⟨(turnState (aTxn true none []) 0 0 []), w0, 1, theWarp (turnState (aTxn true none []) 0 0 []), turnOp,
   also6 (by constructorm* _ ∧ _ <;> decide +kernel) (also3 (by constructorm* _ ∧ _ <;> decide +kernel) ⟨aTxn true none [],
   by constructorm* _ ∧ _ <;> decide +kernel⟩)⟩

theorem witness_CommitsTakeTheirTurn_0_4 : ∃ (s : State) (w : WRef) (l : Nat) (x : Warp) (o : Op), s.subject = .op w o.id l ∧ s.warp? w = some x ∧ o ∈
    x.ops ∧ (x.ops.map Op.id).Nodup ∧ (o.items.map Item.lane).Nodup ∧ o.unit = 12 ∧ o.opc = 2 ∧ o.info = [] ∧ x.halted = none ∧ ∃ k, x.txn = some k ∧
    fenceReady s w o.id 3 = true ∧ k.doom = none ∧ k.ro = false ∧ k.lines.entries ≠ [] ∧ s.eng.snap.tookAt ≤ s.clk ∧ (∃ n ∈ k.lines.keys, k.time <
    newestTime s n) :=
  ⟨(turnState (aTxn false none [72, 73]) 6 0 []), w0, 1, theWarp (turnState (aTxn false none [72, 73]) 6 0 []), turnOp,
   also6 (by constructorm* _ ∧ _ <;> decide +kernel) (also3 (by constructorm* _ ∧ _ <;> decide +kernel) ⟨aTxn false none [72, 73],
   by constructorm* _ ∧ _ <;> decide +kernel⟩)⟩

theorem witness_CommitsTakeTheirTurn_0_5 : ∃ (s : State) (w : WRef) (l : Nat) (x : Warp) (o : Op), s.subject = .op w o.id l ∧ s.warp? w = some x ∧ o ∈
    x.ops ∧ (x.ops.map Op.id).Nodup ∧ (o.items.map Item.lane).Nodup ∧ o.unit = 12 ∧ o.opc = 2 ∧ o.info = [] ∧ x.halted = none ∧ ∃ k, x.txn = some k ∧
    fenceReady s w o.id 3 = true ∧ k.doom = none ∧ k.ro = false ∧ k.lines.entries ≠ [] ∧ s.eng.snap.tookAt ≤ s.clk ∧ (∀ n ∈ k.lines.keys, newestTime s
    n ≤ k.time ∧ versionCount s n < 8) ∧ s.eng.snap.clock + 1 < 2 ^ 56 ∧ heapUsed s + k.lines.entries.length ≤ heapLines s :=
  ⟨(turnState (aTxn false none [72, 73]) 5 6 []), w0, 1, theWarp (turnState (aTxn false none [72, 73]) 5 6 []), turnOp,
   also6 (by constructorm* _ ∧ _ <;> decide +kernel) (also3 (by constructorm* _ ∧ _ <;> decide +kernel) ⟨aTxn false none [72, 73],
   by constructorm* _ ∧ _ <;> decide +kernel⟩)⟩

def aCommit (job : Option (Nat × Nat)) (since : Option Nat) : Commit :=
  { warp := none, op := 0, lane := 0, job := job, lines := FMap.empty.insert 72 someBytes, since := since, epoch := 0 }
def firstTaken : Taken := { time := 10, commit := aCommit none none }
def takenState : State :=
  { modSnap (fun n => { n with clock := 11, taken := [firstTaken, { firstTaken with time := 11 }] }) base with subject := .num 10 }
def waitingState (c : Commit) (older clk : Nat) : State :=
  { withHeap (modSnap (fun n => { chainOf 1 older n with waiting := FMap.empty.insert 7 c }) base) with subject := .num 7, clk := clk }
def version (time : Nat) (poison : List Nat) : Version := { time := time, bytes := someBytes, poison := poison }
def threeOld : Chain := { time := 9, older := [version 7 [], version 5 [2], version 3 []] }
def chainState : State := { modSnap (fun n => { n with chains := FMap.empty.insert 72 threeOld }) base with subject := .pair 72 5 }

theorem witness_CommitsTakeTheirTurn_1 : ∃ (s : State) (k : Taken) (r : List Taken), s.eng.snap.taken = k :: r ∧ s.subject = .num k.time ∧
    (k.commit.lines.entries.map Prod.fst).Nodup ∧ (∀ e ∈ k.commit.lines.entries, (e.2.entries.map Prod.fst).Nodup ∧ e.2.entries ≠ [] ∧ ∀ b ∈
    e.2.entries, b.1 < 512) ∧ k.commit.warp = none ∧ (k.commit.job = none ∨ k.commit.lane ≠ 64) ∧ visitOf s k.commit = none :=
  ⟨takenState, firstTaken, [{ firstTaken with time := 11 }], by constructorm* _ ∧ _ <;> decide +kernel⟩

theorem witness_CommitsTakeTheirTurn_2_0 : ∃ (s : State) (n : Nat) (c : Commit), s.subject = .num n ∧ s.eng.snap.waiting.find? n = some c ∧
    commitAtomic s c = none ∧ visitOf s c = none ∧ commitBehind s n c = false ∧ s.eng.snap.tookAt ≤ s.clk ∧ s.eng.snap.clock + 1 < 2 ^ 56 ∧ (∀ l ∈
    c.lines.keys, versionCount s l < 8) ∧ heapUsed s + c.lines.entries.length ≤ heapLines s :=
  ⟨waitingState (aCommit none none) 6 10, 7, aCommit none none, by constructorm* _ ∧ _ <;> decide +kernel⟩

theorem witness_CommitsTakeTheirTurn_2_1 : ∃ (s : State) (n : Nat) (c : Commit), s.subject = .num n ∧ s.eng.snap.waiting.find? n = some c ∧
    commitAtomic s c = none ∧ visitOf s c = none ∧ commitBehind s n c = false ∧ s.eng.snap.tookAt ≤ s.clk ∧ s.eng.snap.clock + 1 < 2 ^ 56 ∧ (∃ l ∈
    c.lines.keys, 8 ≤ versionCount s l) :=
  ⟨waitingState (aCommit none none) 7 10, 7, aCommit none none, by constructorm* _ ∧ _ <;> decide +kernel⟩

theorem witness_CommitsTakeTheirTurn_3_0 : ∃ (s : State) (n since : Nat) (c : Commit) (team j : Nat), s.subject = .num n ∧ s.eng.snap.waiting.find? n
    = some c ∧ c.since = some since ∧ c.warp = none ∧ c.job = some (team, j) ∧ s.clk < since + heapLimit s :=
  ⟨waitingState (aCommit (some (1, 3)) (some 5)) 0 4100, 7, 5, aCommit (some (1, 3)) (some 5), 1, 3, by constructorm* _ ∧ _ <;> decide +kernel⟩

theorem witness_CommitsTakeTheirTurn_3_1 : ∃ (s : State) (n since : Nat) (c : Commit) (team j : Nat), s.subject = .num n ∧ s.eng.snap.waiting.find? n
    = some c ∧ c.since = some since ∧ c.warp = none ∧ c.job = some (team, j) ∧ since + heapLimit s ≤ s.clk :=
  ⟨waitingState (aCommit (some (1, 3)) (some 5)) 0 4101, 7, 5, aCommit (some (1, 3)) (some 5), 1, 3, by constructorm* _ ∧ _ <;> decide +kernel⟩

theorem witness_CommitsTakeTheirTurn_4 : ∃ (s : State) (line : Nat) (c : Chain) (newer : List Version) (v : Version) (older : List Version), s.subject
    = .pair line v.time ∧ s.eng.snap.chains.find? line = some c ∧ c.older = newer ++ v :: older ∧ v.time ∉ newer.map Version.time :=
  ⟨chainState, 72, threeOld, [version 7 []], version 5 [2], [version 3 []], by constructorm* _ ∧ _ <;> decide +kernel⟩

/-! ## Witnesses: home operations -/

def withHeld (l : List Nat) : State → State :=
  modSnap fun n => { n with held := foldOver (fun (m : FMap Held) t => m.insert t { time := 4, ctx := 1 }) .empty l }
def snapOp (n mode : Nat) : Op := { anOp 12 n [anItem 1 0 0 .go none 2] with mode := n64 mode }
def snapHome (n mode : Nat) (t : Option Txn) (l : List Nat) : State :=
  laneOn (withHeld l (base.modWarp w0 fun x => { x with txn := t })) (snapOp n mode) 1
theorem snap_witness (n mode : Nat) (t : Option Txn) (l : List Nat) (h : laneReady (snapHome n mode t l) (snapOp n mode) (anItem 1 0 0 .go none 2) = true) :
    OnLane (snapHome n mode t l)
      { w := w0, warp := theWarp (snapHome n mode t l), op := snapOp n mode, item := anItem 1 0 0 .go none 2 } :=
  on_lane h

theorem witness_HomeOperationsAct_0_0 : ∃ (s : State) (w : WRef) (x : Warp) (o : Op) (i : Item), OnLane s { w := w, warp := x, op := o, item := i } ∧
    o.unit = 12 ∧ o.items = [i] ∧ x.unfenced o.id = true ∧ x.liveLanes ≠ [] ∧ (o.opc = 5 ∨ o.opc = 6 → i.trip = 2) ∧ o.opc ≤ 1 ∧ o.mode = 0 :=
  ⟨(snapHome 1 0 none []), w0, theWarp (snapHome 1 0 none []), snapOp 1 0, anItem 1 0 0 .go none 2, on_lane (by decide +kernel),
   by constructorm* _ ∧ _ <;> decide +kernel⟩

theorem witness_HomeOperationsAct_0_1 : ∃ (s : State) (w : WRef) (x : Warp) (o : Op) (i : Item), OnLane s { w := w, warp := x, op := o, item := i } ∧
    o.unit = 12 ∧ o.items = [i] ∧ x.unfenced o.id = true ∧ x.liveLanes ≠ [] ∧ (o.opc = 5 ∨ o.opc = 6 → i.trip = 2) ∧ o.opc = 4 :=
  ⟨(snapHome 4 7 none []), w0, theWarp (snapHome 4 7 none []), snapOp 4 7, anItem 1 0 0 .go none 2, on_lane (by decide +kernel),
   by constructorm* _ ∧ _ <;> decide +kernel⟩

theorem witness_HomeOperationsAct_0_2 : ∃ (s : State) (w : WRef) (x : Warp) (o : Op) (i : Item), OnLane s { w := w, warp := x, op := o, item := i } ∧
    o.unit = 12 ∧ o.items = [i] ∧ x.unfenced o.id = true ∧ x.liveLanes ≠ [] ∧ (o.opc = 5 ∨ o.opc = 6 → i.trip = 2) ∧
    let held := s.eng.snap.held
    let slot := o.mode.toNat % 2 ^ 12
    o.opc = 5 ∧ held.has slot = true :=
  ⟨(snapHome 5 4095 none [4095]), w0, theWarp (snapHome 5 4095 none [4095]), snapOp 5 4095, anItem 1 0 0 .go none 2, on_lane (by decide +kernel),
   by constructorm* _ ∧ _ <;> decide +kernel⟩

theorem witness_HomeOperationsAct_0_3 : ∃ (s : State) (w : WRef) (x : Warp) (o : Op) (i : Item), OnLane s { w := w, warp := x, op := o, item := i } ∧
    o.unit = 12 ∧ o.items = [i] ∧ x.unfenced o.id = true ∧ x.liveLanes ≠ [] ∧ (o.opc = 5 ∨ o.opc = 6 → i.trip = 2) ∧
    let held := s.eng.snap.held
    let slot := o.mode.toNat % 2 ^ 12
    o.opc = 5 ∧ held.has slot = false ∧ o.mode.getLsbD 16 = false :=
  ⟨(snapHome 5 4095 none [4094]), w0, theWarp (snapHome 5 4095 none [4094]), snapOp 5 4095, anItem 1 0 0 .go none 2, on_lane (by decide +kernel),
   by constructorm* _ ∧ _ <;> decide +kernel⟩

theorem witness_HomeOperationsAct_0_4 : ∃ (s : State) (w : WRef) (x : Warp) (o : Op) (i : Item), OnLane s { w := w, warp := x, op := o, item := i } ∧
    o.unit = 12 ∧ o.items = [i] ∧ x.unfenced o.id = true ∧ x.liveLanes ≠ [] ∧ (o.opc = 5 ∨ o.opc = 6 → i.trip = 2) ∧
    let held := s.eng.snap.held
    let slot := o.mode.toNat % 2 ^ 12
    ∃ h, o.opc = 6 ∧ held.find? slot = some h :=
  ⟨(snapHome 6 0 none [0]), w0, theWarp (snapHome 6 0 none [0]), snapOp 6 0, anItem 1 0 0 .go none 2, on_lane (by decide +kernel),
   also5 (by constructorm* _ ∧ _ <;> decide +kernel) ⟨{ time := 4, ctx := 1 }, by constructorm* _ ∧ _ <;> decide +kernel⟩⟩

theorem witness_HomeOperationsAct_0_5 : ∃ (s : State) (w : WRef) (x : Warp) (o : Op) (i : Item), OnLane s { w := w, warp := x, op := o, item := i } ∧
    o.unit = 12 ∧ o.items = [i] ∧ x.unfenced o.id = true ∧ x.liveLanes ≠ [] ∧ (o.opc = 5 ∨ o.opc = 6 → i.trip = 2) ∧
    let held := s.eng.snap.held
    let slot := o.mode.toNat % 2 ^ 12
    o.opc = 6 ∧ held.find? slot = none :=
  ⟨(snapHome 6 0 none [1]), w0, theWarp (snapHome 6 0 none [1]), snapOp 6 0, anItem 1 0 0 .go none 2, on_lane (by decide +kernel),
   by constructorm* _ ∧ _ <;> decide +kernel⟩

theorem witness_HomeOperationsAct_0_6 : ∃ (s : State) (w : WRef) (x : Warp) (o : Op) (i : Item), OnLane s { w := w, warp := x, op := o, item := i } ∧
    o.unit = 12 ∧ o.items = [i] ∧ x.unfenced o.id = true ∧ x.liveLanes ≠ [] ∧ (o.opc = 5 ∨ o.opc = 6 → i.trip = 2) ∧ o.opc = 3 ∧ x.txn = none :=
  ⟨(snapHome 3 0 none []), w0, theWarp (snapHome 3 0 none []), snapOp 3 0, anItem 1 0 0 .go none 2, on_lane (by decide +kernel),
   by constructorm* _ ∧ _ <;> decide +kernel⟩

theorem witness_HomeOperationsAct_0_7 : ∃ (s : State) (w : WRef) (x : Warp) (o : Op) (i : Item), OnLane s { w := w, warp := x, op := o, item := i } ∧
    o.unit = 12 ∧ o.items = [i] ∧ x.unfenced o.id = true ∧ x.liveLanes ≠ [] ∧ (o.opc = 5 ∨ o.opc = 6 → i.trip = 2) ∧ o.opc = 3 ∧ x.txn ≠ none ∧
    mayAbort x o.id = true :=
  ⟨(snapHome 3 0 (aTxn false none [72]) []), w0, theWarp (snapHome 3 0 (aTxn false none [72]) []), snapOp 3 0, anItem 1 0 0 .go none 2,
   on_lane (by decide +kernel), by constructorm* _ ∧ _ <;> decide +kernel⟩

def dequeOp (n : Nat) : Op := anOp 14 n [anItem 1 0x33 0x77 .go none 2, anItem 2 0x33 1 .go none 2]
def dequeOf (n cap : Nat) : Deque := { items := (List.range n).map n64, cap := cap, seg := 0, ctx := 1, pages := [9] }
def dequeState (n : Nat) (q : Deque) : State :=
  let s := laneOn (modCtx1 (fun c => { c with deques := [0x33] }) base) (dequeOp n) 1
  { s with eng := { s.eng with deques := FMap.empty.insert 0x33 q } }

theorem witness_HomeOperationsAct_1_0 : ∃ (s : State) (p : Pick) (c : Context) (q : Deque), OnLane s p ∧ p.op.unit = 14 ∧ p.op.opc ≠ 3 ∧ p.op.opc ≠ 5
    ∧ p.item.stage = .go ∧ p.warp.unfenced p.op.id = true ∧ p.item.trip = 2 ∧ s.context? (s.ctxOf p.w.team) = some c ∧ p.item.a.toNat % 2 ^ 12 ∈
    c.deques ∧ (∀ j ∈ p.op.items, j.lane < p.item.lane → j.a.toNat % 2 ^ 12 ≠ p.item.a.toNat % 2 ^ 12) ∧ fenceReady s p.w p.op.id 3 = true ∧
    s.eng.deques.find? (p.item.a.toNat % 2 ^ 12) = some q ∧ q.hurt s = 0 ∧ q.cap ≤ 512 * q.pages.length ∧
    let n := q.items.length
    p.op.opc = 0 ∧ n < 256 + q.cap :=
  ⟨(dequeState 0 (dequeOf 259 4)), lanePick (dequeState 0 (dequeOf 259 4)) (dequeOp 0) (anItem 1 0x33 0x77 .go none 2),
   theCtx (dequeState 0 (dequeOf 259 4)) 1, dequeOf 259 4, on_lane (by decide +kernel), by constructorm* _ ∧ _ <;> decide +kernel⟩

theorem witness_HomeOperationsAct_1_1 : ∃ (s : State) (p : Pick) (c : Context) (q : Deque), OnLane s p ∧ p.op.unit = 14 ∧ p.op.opc ≠ 3 ∧ p.op.opc ≠ 5
    ∧ p.item.stage = .go ∧ p.warp.unfenced p.op.id = true ∧ p.item.trip = 2 ∧ s.context? (s.ctxOf p.w.team) = some c ∧ p.item.a.toNat % 2 ^ 12 ∈
    c.deques ∧ (∀ j ∈ p.op.items, j.lane < p.item.lane → j.a.toNat % 2 ^ 12 ≠ p.item.a.toNat % 2 ^ 12) ∧ fenceReady s p.w p.op.id 3 = true ∧
    s.eng.deques.find? (p.item.a.toNat % 2 ^ 12) = some q ∧ q.hurt s = 0 ∧ q.cap ≤ 512 * q.pages.length ∧
    let n := q.items.length
    p.op.opc = 0 ∧ 256 + q.cap ≤ n :=
  ⟨(dequeState 0 (dequeOf 256 0)), lanePick (dequeState 0 (dequeOf 256 0)) (dequeOp 0) (anItem 1 0x33 0x77 .go none 2),
   theCtx (dequeState 0 (dequeOf 256 0)) 1, dequeOf 256 0, on_lane (by decide +kernel), by constructorm* _ ∧ _ <;> decide +kernel⟩

theorem witness_HomeOperationsAct_1_2 : ∃ (s : State) (p : Pick) (c : Context) (q : Deque), OnLane s p ∧ p.op.unit = 14 ∧ p.op.opc ≠ 3 ∧ p.op.opc ≠ 5
    ∧ p.item.stage = .go ∧ p.warp.unfenced p.op.id = true ∧ p.item.trip = 2 ∧ s.context? (s.ctxOf p.w.team) = some c ∧ p.item.a.toNat % 2 ^ 12 ∈
    c.deques ∧ (∀ j ∈ p.op.items, j.lane < p.item.lane → j.a.toNat % 2 ^ 12 ≠ p.item.a.toNat % 2 ^ 12) ∧ fenceReady s p.w p.op.id 3 = true ∧
    s.eng.deques.find? (p.item.a.toNat % 2 ^ 12) = some q ∧ q.hurt s = 0 ∧ q.cap ≤ 512 * q.pages.length ∧ (p.op.opc = 1 ∨ p.op.opc = 2) ∧ q.items = []
    :=
  ⟨(dequeState 2 (dequeOf 0 4)), lanePick (dequeState 2 (dequeOf 0 4)) (dequeOp 2) (anItem 1 0x33 0x77 .go none 2),
   theCtx (dequeState 2 (dequeOf 0 4)) 1, dequeOf 0 4, on_lane (by decide +kernel), by constructorm* _ ∧ _ <;> decide +kernel⟩

theorem witness_HomeOperationsAct_1_3 : ∃ (s : State) (p : Pick) (c : Context) (q : Deque), OnLane s p ∧ p.op.unit = 14 ∧ p.op.opc ≠ 3 ∧ p.op.opc ≠ 5
    ∧ p.item.stage = .go ∧ p.warp.unfenced p.op.id = true ∧ p.item.trip = 2 ∧ s.context? (s.ctxOf p.w.team) = some c ∧ p.item.a.toNat % 2 ^ 12 ∈
    c.deques ∧ (∀ j ∈ p.op.items, j.lane < p.item.lane → j.a.toNat % 2 ^ 12 ≠ p.item.a.toNat % 2 ^ 12) ∧ fenceReady s p.w p.op.id 3 = true ∧
    s.eng.deques.find? (p.item.a.toNat % 2 ^ 12) = some q ∧ q.hurt s = 0 ∧ q.cap ≤ 512 * q.pages.length ∧ ∃ v r, p.op.opc = 1 ∧ q.items = r ++ [v] :=
  ⟨(dequeState 1 (dequeOf 2 0)), lanePick (dequeState 1 (dequeOf 2 0)) (dequeOp 1) (anItem 1 0x33 0x77 .go none 2),
   theCtx (dequeState 1 (dequeOf 2 0)) 1, dequeOf 2 0, on_lane (by decide +kernel),
   also6 (by constructorm* _ ∧ _ <;> decide +kernel) (also6 (by constructorm* _ ∧ _ <;> decide +kernel) ⟨by decide +kernel, 1, [0],
   by constructorm* _ ∧ _ <;> decide +kernel⟩)⟩

theorem witness_HomeOperationsAct_1_4 : ∃ (s : State) (p : Pick) (c : Context) (q : Deque), OnLane s p ∧ p.op.unit = 14 ∧ p.op.opc ≠ 3 ∧ p.op.opc ≠ 5
    ∧ p.item.stage = .go ∧ p.warp.unfenced p.op.id = true ∧ p.item.trip = 2 ∧ s.context? (s.ctxOf p.w.team) = some c ∧ p.item.a.toNat % 2 ^ 12 ∈
    c.deques ∧ (∀ j ∈ p.op.items, j.lane < p.item.lane → j.a.toNat % 2 ^ 12 ≠ p.item.a.toNat % 2 ^ 12) ∧ fenceReady s p.w p.op.id 3 = true ∧
    s.eng.deques.find? (p.item.a.toNat % 2 ^ 12) = some q ∧ q.hurt s = 0 ∧ q.cap ≤ 512 * q.pages.length ∧ ∃ v r, p.op.opc = 2 ∧ q.items = v :: r :=
  ⟨(dequeState 2 (dequeOf 2 0)), lanePick (dequeState 2 (dequeOf 2 0)) (dequeOp 2) (anItem 1 0x33 0x77 .go none 2),
   theCtx (dequeState 2 (dequeOf 2 0)) 1, dequeOf 2 0, on_lane (by decide +kernel),
   also6 (by constructorm* _ ∧ _ <;> decide +kernel) (also6 (by constructorm* _ ∧ _ <;> decide +kernel) ⟨by decide +kernel, 0, [1],
   by constructorm* _ ∧ _ <;> decide +kernel⟩)⟩

theorem witness_HomeOperationsAct_1_5 : ∃ (s : State) (p : Pick) (c : Context) (q : Deque), OnLane s p ∧ p.op.unit = 14 ∧ p.op.opc ≠ 3 ∧ p.op.opc ≠ 5
    ∧ p.item.stage = .go ∧ p.warp.unfenced p.op.id = true ∧ p.item.trip = 2 ∧ s.context? (s.ctxOf p.w.team) = some c ∧ p.item.a.toNat % 2 ^ 12 ∈
    c.deques ∧ (∀ j ∈ p.op.items, j.lane < p.item.lane → j.a.toNat % 2 ^ 12 ≠ p.item.a.toNat % 2 ^ 12) ∧ fenceReady s p.w p.op.id 3 = true ∧
    s.eng.deques.find? (p.item.a.toNat % 2 ^ 12) = some q ∧ q.hurt s = 0 ∧ q.cap ≤ 512 * q.pages.length ∧ p.op.opc = 4 :=
  ⟨(dequeState 4 (dequeOf 2 0)), lanePick (dequeState 4 (dequeOf 2 0)) (dequeOp 4) (anItem 1 0x33 0x77 .go none 2),
   theCtx (dequeState 4 (dequeOf 2 0)) 1, dequeOf 2 0, on_lane (by decide +kernel), by constructorm* _ ∧ _ <;> decide +kernel⟩

def aceOp (n a v trip : Nat) : Op := anOp 15 n [anItem 1 a v .go none trip]
/-- The register that the selector names holds 0x20 in a direction. -/
def aceState (n a v trip : Nat) (dir : Bool) : State :=
  let s := laneOn (modCtx1 (fun c => { c with aces := [3] }) base) (aceOp n a v trip) 1
  let r : AceReg := { val := 0x20, dir := dir, seqno := 5 }
  { s with eng := { s.eng with aceOwner := FMap.empty.insert 0 1, aces := FMap.empty.insert (aceKey 0 (n64 a)) r } }
def cluster3 : Nat := 0x3
def device3 : Nat := 0x103

theorem witness_HomeOperationsAct_2_0 : ∃ (s : State) (p : Pick) (t : Team), OnLane s p ∧ p.op.unit = 15 ∧ s.team? p.w.team = some t ∧ acePermit s p.w
    p.item.a = true ∧ (p.warp.lane p.item.lane).wait = none ∧ boundWaiters s t.core (aceKey t.core p.item.a) = [] ∧ s.eng.aceMsgs.wf = true ∧ p.op.opc
    = 2 :=
  ⟨(aceState 2 cluster3 5 0 false), lanePick (aceState 2 cluster3 5 0 false) (aceOp 2 cluster3 5 0) (anItem 1 cluster3 5 .go none 0),
   theTeam (aceState 2 cluster3 5 0 false) 1, on_lane (by decide +kernel), by constructorm* _ ∧ _ <;> decide +kernel⟩

theorem witness_HomeOperationsAct_2_1 : ∃ (s : State) (p : Pick) (t : Team), OnLane s p ∧ p.op.unit = 15 ∧ s.team? p.w.team = some t ∧ acePermit s p.w
    p.item.a = true ∧ (p.warp.lane p.item.lane).wait = none ∧ boundWaiters s t.core (aceKey t.core p.item.a) = [] ∧ s.eng.aceMsgs.wf = true ∧
    p.item.trip = 2 ∧ p.op.opc = 3 :=
  ⟨(aceState 3 device3 5 2 true), lanePick (aceState 3 device3 5 2 true) (aceOp 3 device3 5 2) (anItem 1 device3 5 .go none 2),
   theTeam (aceState 3 device3 5 2 true) 1, on_lane (by decide +kernel), by constructorm* _ ∧ _ <;> decide +kernel⟩

theorem witness_HomeOperationsAct_2_2 : ∃ (s : State) (p : Pick) (t : Team), OnLane s p ∧ p.op.unit = 15 ∧ s.team? p.w.team = some t ∧ acePermit s p.w
    p.item.a = true ∧ (p.warp.lane p.item.lane).wait = none ∧ boundWaiters s t.core (aceKey t.core p.item.a) = [] ∧ s.eng.aceMsgs.wf = true ∧
    let k := aceKey t.core p.item.a
    let r := s.aceReg k
    p.item.trip = 2 ∧ p.op.opc ≤ 1 ∧ r.dir ≠ (p.op.opc == 1) :=
  ⟨(aceState 0 device3 5 2 true), lanePick (aceState 0 device3 5 2 true) (aceOp 0 device3 5 2) (anItem 1 device3 5 .go none 2),
   theTeam (aceState 0 device3 5 2 true) 1, on_lane (by decide +kernel), by constructorm* _ ∧ _ <;> decide +kernel⟩

theorem witness_HomeOperationsAct_2_3 : ∃ (s : State) (p : Pick) (t : Team), OnLane s p ∧ p.op.unit = 15 ∧ s.team? p.w.team = some t ∧ acePermit s p.w
    p.item.a = true ∧ (p.warp.lane p.item.lane).wait = none ∧ boundWaiters s t.core (aceKey t.core p.item.a) = [] ∧ s.eng.aceMsgs.wf = true ∧
    let k := aceKey t.core p.item.a
    let r := s.aceReg k
    let v := p.item.b
    p.item.trip = 2 ∧ p.op.opc = 0 ∧ r.dir = false ∧ v.toInt < r.val.toInt :=
  ⟨(aceState 0 cluster3 0x1F 2 false), lanePick (aceState 0 cluster3 0x1F 2 false) (aceOp 0 cluster3 0x1F 2) (anItem 1 cluster3 0x1F .go none 2),
   theTeam (aceState 0 cluster3 0x1F 2 false) 1, on_lane (by decide +kernel), by constructorm* _ ∧ _ <;> decide +kernel⟩

theorem witness_HomeOperationsAct_2_4 : ∃ (s : State) (p : Pick) (t : Team), OnLane s p ∧ p.op.unit = 15 ∧ s.team? p.w.team = some t ∧ acePermit s p.w
    p.item.a = true ∧ (p.warp.lane p.item.lane).wait = none ∧ boundWaiters s t.core (aceKey t.core p.item.a) = [] ∧ s.eng.aceMsgs.wf = true ∧
    let k := aceKey t.core p.item.a
    let r := s.aceReg k
    let v := p.item.b
    p.item.trip = 2 ∧ p.op.opc = 0 ∧ r.dir = false ∧ r.val.toInt ≤ v.toInt :=
  ⟨(aceState 0 cluster3 0x20 2 false), lanePick (aceState 0 cluster3 0x20 2 false) (aceOp 0 cluster3 0x20 2) (anItem 1 cluster3 0x20 .go none 2),
   theTeam (aceState 0 cluster3 0x20 2 false) 1, on_lane (by decide +kernel), by constructorm* _ ∧ _ <;> decide +kernel⟩

theorem witness_HomeOperationsAct_2_5 : ∃ (s : State) (p : Pick) (t : Team), OnLane s p ∧ p.op.unit = 15 ∧ s.team? p.w.team = some t ∧ acePermit s p.w
    p.item.a = true ∧ (p.warp.lane p.item.lane).wait = none ∧ boundWaiters s t.core (aceKey t.core p.item.a) = [] ∧ s.eng.aceMsgs.wf = true ∧
    let k := aceKey t.core p.item.a
    let r := s.aceReg k
    let v := p.item.b
    p.item.trip = 2 ∧ p.op.opc = 1 ∧ r.dir = true ∧ r.val.toInt < v.toInt :=
  ⟨(aceState 1 device3 0x21 2 true), lanePick (aceState 1 device3 0x21 2 true) (aceOp 1 device3 0x21 2) (anItem 1 device3 0x21 .go none 2),
   theTeam (aceState 1 device3 0x21 2 true) 1, on_lane (by decide +kernel), by constructorm* _ ∧ _ <;> decide +kernel⟩

theorem witness_HomeOperationsAct_2_6 : ∃ (s : State) (p : Pick) (t : Team), OnLane s p ∧ p.op.unit = 15 ∧ s.team? p.w.team = some t ∧ acePermit s p.w
    p.item.a = true ∧ (p.warp.lane p.item.lane).wait = none ∧ boundWaiters s t.core (aceKey t.core p.item.a) = [] ∧ s.eng.aceMsgs.wf = true ∧
    let k := aceKey t.core p.item.a
    let r := s.aceReg k
    let v := p.item.b
    p.item.trip = 2 ∧ p.op.opc = 1 ∧ r.dir = true ∧ v.toInt ≤ r.val.toInt :=
  ⟨(aceState 1 device3 0x8000000000000000 2 true), lanePick (aceState 1 device3 0x8000000000000000 2 true) (aceOp 1 device3 0x8000000000000000 2)
   (anItem 1 device3 0x8000000000000000 .go none 2), theTeam (aceState 1 device3 0x8000000000000000 2 true) 1, on_lane (by decide +kernel),
   by constructorm* _ ∧ _ <;> decide +kernel⟩

def aceNews (seqno : Nat) : AceMsg := { core := 3, reg := 7, val := 0x55, dir := true, seqno := seqno, due := 9 }
def aceNewsState : State :=
  { base with subject := .num 4, eng := { base.eng with aceMsgs := FMap.empty.insert 4 (aceNews 5) |>.insert 6 (aceNews 6) } }
def tellOp (n v : Nat) : Op := anOp 13 n [anItem 1 0x33 v .go none 2]
def tellOf (mode : TellMode) (n : Nat) : TellSlot :=
  { TellSlot.start with mode := mode, queue := (List.range n).map (BitVec.ofNat 24), counters := List.replicate 4 { value := 0, thr := 0, act := 0, note := 0 } }
def tellState (n v : Nat) (t : TellSlot) : State :=
  (laneOn (modCtx1 (fun c => { c with tell := [0x33] }) base) (tellOp n v) 1).setSlot 0x33 t

theorem witness_HomeOperationsAct_3 : ∃ (s : State) (n : Nat) (m : AceMsg), s.subject = .num n ∧ s.eng.aceMsgs.find? n = some m ∧ boundWaiters s
    m.core m.reg = [] ∧ (∀ k ∈ s.eng.aceMsgs.vals, k.core = m.core → k.reg = m.reg → m.seqno ≤ k.seqno) :=
  ⟨aceNewsState, 4, aceNews 5, by constructorm* _ ∧ _ <;> decide +kernel⟩

theorem witness_HomeOperationsAct_4_0 : ∃ (s : State) (p : Pick) (c : Context), OnLane s p ∧ p.op.unit = 13 ∧ p.item.stage = .go ∧ p.warp.unfenced
    p.op.id = true ∧ p.op.items = [p.item] ∧ p.item.trip = 2 ∧ s.context? (s.ctxOf p.w.team) = some c ∧ p.item.a.toNat % 2 ^ 16 ∈ c.tell ∧
    let n := p.item.a.toNat % 2 ^ 16
    let t := s.slot n
    p.op.opc = 2 ∧ t.mode ≠ .free ∧ t.queue = [] :=
  ⟨(tellState 2 0 (tellOf .stopped 0)), lanePick (tellState 2 0 (tellOf .stopped 0)) (tellOp 2 0) (anItem 1 0x33 0 .go none 2),
   theCtx (tellState 2 0 (tellOf .stopped 0)) 1, on_lane (by decide +kernel), by constructorm* _ ∧ _ <;> decide +kernel⟩

theorem witness_HomeOperationsAct_4_1 : ∃ (s : State) (p : Pick) (c : Context), OnLane s p ∧ p.op.unit = 13 ∧ p.item.stage = .go ∧ p.warp.unfenced
    p.op.id = true ∧ p.op.items = [p.item] ∧ p.item.trip = 2 ∧ s.context? (s.ctxOf p.w.team) = some c ∧ p.item.a.toNat % 2 ^ 16 ∈ c.tell ∧
    let n := p.item.a.toNat % 2 ^ 16
    let t := s.slot n
    ∃ k r, p.op.opc = 2 ∧ t.mode ≠ .free ∧ t.queue = k :: r :=
  ⟨(tellState 2 0 (tellOf .live 2)), lanePick (tellState 2 0 (tellOf .live 2)) (tellOp 2 0) (anItem 1 0x33 0 .go none 2),
   theCtx (tellState 2 0 (tellOf .live 2)) 1, on_lane (by decide +kernel), also6 (by constructorm* _ ∧ _ <;> decide +kernel) ⟨by decide +kernel, 0,
   [1], by constructorm* _ ∧ _ <;> decide +kernel⟩⟩

theorem witness_HomeOperationsAct_4_2 : ∃ (s : State) (p : Pick) (c : Context), OnLane s p ∧ p.op.unit = 13 ∧ p.item.stage = .go ∧ p.warp.unfenced
    p.op.id = true ∧ p.op.items = [p.item] ∧ p.item.trip = 2 ∧ s.context? (s.ctxOf p.w.team) = some c ∧ p.item.a.toNat % 2 ^ 16 ∈ c.tell ∧ p.op.opc =
    8 ∧ p.item.b.toNat % 2 ^ 4 = 4 :=
  ⟨(tellState 8 4 (tellOf .live 1)), lanePick (tellState 8 4 (tellOf .live 1)) (tellOp 8 4) (anItem 1 0x33 4 .go none 2),
   theCtx (tellState 8 4 (tellOf .live 1)) 1, on_lane (by decide +kernel), by constructorm* _ ∧ _ <;> decide +kernel⟩

theorem witness_HomeOperationsAct_4_3 : ∃ (s : State) (p : Pick) (c : Context), OnLane s p ∧ p.op.unit = 13 ∧ p.item.stage = .go ∧ p.warp.unfenced
    p.op.id = true ∧ p.op.items = [p.item] ∧ p.item.trip = 2 ∧ s.context? (s.ctxOf p.w.team) = some c ∧ p.item.a.toNat % 2 ^ 16 ∈ c.tell ∧
    let n := p.item.a.toNat % 2 ^ 16
    let t := s.slot n
    p.op.opc = 0 ∧ fenceReady s p.w p.op.id 3 = true ∧ t.mode = .stopped :=
  ⟨(tellState 0 0xFFFFFF (tellOf .stopped 0)),
   lanePick (tellState 0 0xFFFFFF (tellOf .stopped 0)) (tellOp 0 0xFFFFFF) (anItem 1 0x33 0xFFFFFF .go none 2),
   theCtx (tellState 0 0xFFFFFF (tellOf .stopped 0)) 1, on_lane (by decide +kernel), by constructorm* _ ∧ _ <;> decide +kernel⟩

theorem witness_HomeOperationsAct_4_4 : ∃ (s : State) (p : Pick) (c : Context), OnLane s p ∧ p.op.unit = 13 ∧ p.item.stage = .go ∧ p.warp.unfenced
    p.op.id = true ∧ p.op.items = [p.item] ∧ p.item.trip = 2 ∧ s.context? (s.ctxOf p.w.team) = some c ∧ p.item.a.toNat % 2 ^ 16 ∈ c.tell ∧
    let n := p.item.a.toNat % 2 ^ 16
    let t := s.slot n
    p.op.opc = 0 ∧ fenceReady s p.w p.op.id 3 = true ∧ t.mode = .live ∧ t.entries.entries = [] ∧ t.drafts = [] ∧ t.queue = [] ∧ t.counters.length = 4
      ∧ p.item.b.toNat < 2 ^ 24 :=
  ⟨(tellState 0 0xFFFFFF (tellOf .live 0)), lanePick (tellState 0 0xFFFFFF (tellOf .live 0)) (tellOp 0 0xFFFFFF) (anItem 1 0x33 0xFFFFFF .go none 2),
   theCtx (tellState 0 0xFFFFFF (tellOf .live 0)) 1, on_lane (by decide +kernel), by constructorm* _ ∧ _ <;> decide +kernel⟩

def supOp (n clk : Nat) : Op := { anOp 17 n [{ anItem 1 0 0 .go none 0 with extra := [5] }] with clk := clk }

theorem witness_HomeOperationsAct_5_0 : ∃ (s : State) (p : Pick), OnLane s p ∧ p.op.unit = 17 ∧ p.op.opc ≠ 2 ∧ p.op.opc ≠ 7 ∧ p.op.opc ≠ 8 ∧
    p.op.items = [p.item] ∧ s.clk ≤ p.op.clk :=
  ⟨(laneOn base (supOp 0 10) 1), lanePick (laneOn base (supOp 0 10) 1) (supOp 0 10) { anItem 1 0 0 .go none 0 with extra := [5] },
   on_lane (by decide +kernel), by constructorm* _ ∧ _ <;> decide +kernel⟩

theorem witness_HomeOperationsAct_5_1 : ∃ (s : State) (p : Pick), OnLane s p ∧ p.op.unit = 17 ∧ p.op.opc ≠ 2 ∧ p.op.opc ≠ 7 ∧ p.op.opc ≠ 8 ∧
    p.op.items = [p.item] ∧ p.op.clk < s.clk :=
  ⟨(laneOn base (supOp 1 9) 1), lanePick (laneOn base (supOp 1 9) 1) (supOp 1 9) { anItem 1 0 0 .go none 0 with extra := [5] },
   on_lane (by decide +kernel), by constructorm* _ ∧ _ <;> decide +kernel⟩

end Sys2Proof.Tests
end

