-- ==== Sys2Proof/Tests/Witness3.lean ====
section
/-! SUPPORT. Witnesses: states and operands that meet the hypotheses of each statement together (fabric, host, contexts and devices). -/

namespace Sys2Proof.Tests
open Sys2Proof Sys2Proof.Machine

set_option Elab.async false
set_option linter.unusedVariables false

/-! ## Witnesses: fabric, host, peers, foreign commands -/

def injectState (r : Nat) (m : Message) (level clk : Nat) : State :=
  { withRouter r { Router.start with level := level, cand := FMap.empty.insert 1 (7, 2) }
      (modFab (fun b => { b with messages := FMap.empty.insert 7 m }) base) with
    subject := .num r, clk := clk }
def overflowMsg : Message := { aMsg 0 3 with core := some 0, ctx := 1, overflow := [1], toSend := [] }

/-- Message 7, within the device or between devices. -/
def bitsState (xd : Bool) : State := modFab (fun b => { b with messages := FMap.empty.insert 7 { aMsg 71 3 with xd := xd, sdev := 5 } }) base
def headFlit : Flit := { aFlit 9 with seqno := 0 }

theorem witness_FlitsAreRouted_0_0 : ∃ (s : State) (f : Flit) (m : Message) (b : BitVec 576), s.message? f.msg = some m ∧ flitBits s f = some b ∧ m.xd
    = false :=
  ⟨bitsState false, headFlit, { aMsg 71 3 with xd := false, sdev := 5 }, (flitBits (bitsState false) headFlit).getD 0, by decide +kernel,
   some_getD 0 (by decide +kernel), by decide +kernel⟩

theorem witness_FlitsAreRouted_0_1 : ∃ (s : State) (f : Flit) (m : Message) (b : BitVec 576), s.message? f.msg = some m ∧ flitBits s f = some b ∧ m.xd
    = true :=
  ⟨bitsState true, headFlit, { aMsg 71 3 with xd := true, sdev := 5 }, (flitBits (bitsState true) headFlit).getD 0, by decide +kernel,
   some_getD 0 (by decide +kernel), by decide +kernel⟩

theorem witness_FlitsAreRouted_0_2 : ∃ (s : State) (f : Flit) (m : Message) (b : BitVec 576), s.message? f.msg = some m ∧ flitBits s f = some b ∧
    f.seqno = 0 ∧ m.xd = true :=
  ⟨bitsState true, headFlit, { aMsg 71 3 with xd := true, sdev := 5 }, (flitBits (bitsState true) headFlit).getD 0, by decide +kernel,
   some_getD 0 (by decide +kernel), by constructorm* _ ∧ _ <;> decide +kernel⟩

theorem witness_FlitsAreRouted_1_0 : ∃ (s : State) (r : Nat) (f : Flit) (m : Message), s.subject = .num r ∧ r < 72 ∧ s.eng.fab.flits.filter (fun g =>
    decide (g.router = r)) = [f] ∧ s.message? f.msg = some m ∧ m.xd = false ∧ m.dst < 72 ∧
    let lands := m.dst = r ∧ m.dstEp / 4 ∉ (s.router r).eject
    lands ∧ m.core = none ∧ m.arrived.length + 1 < m.nflit :=
  ⟨flitState 71 (aMsg 71 2) [0, 1], 71, aFlit 71, aMsg 71 2, by constructorm* _ ∧ _ <;> decide +kernel⟩

theorem witness_FlitsAreRouted_1_1 : ∃ (s : State) (r : Nat) (f : Flit) (m : Message), s.subject = .num r ∧ r < 72 ∧ s.eng.fab.flits.filter (fun g =>
    decide (g.router = r)) = [f] ∧ s.message? f.msg = some m ∧ m.xd = false ∧ m.dst < 72 ∧
    let lands := m.dst = r ∧ m.dstEp / 4 ∉ (s.router r).eject
    ∃ out, (¬ lands) ∧ (meshWays r m.dst).find? (fun o => !(s.router r).taken.contains o) = some out :=
  ⟨flitState 27 (aMsg 71 3) [1], 27, aFlit 27, aMsg 71 3, also6 (by constructorm* _ ∧ _ <;> decide +kernel) ⟨2,
   by constructorm* _ ∧ _ <;> decide +kernel⟩⟩

theorem witness_FlitsAreRouted_1_2 : ∃ (s : State) (r : Nat) (f : Flit) (m : Message), s.subject = .num r ∧ r < 72 ∧ s.eng.fab.flits.filter (fun g =>
    decide (g.router = r)) = [f] ∧ s.message? f.msg = some m ∧ m.xd = false ∧ m.dst < 72 ∧
    let lands := m.dst = r ∧ m.dstEp / 4 ∉ (s.router r).eject
    ∃ out, (¬ lands) ∧ (meshWays r m.dst).find? (fun o => !(s.router r).taken.contains o) = none ∧ ([0, 1, 2, 3].find? fun o => meshHas r o &&
      !(s.router r).taken.contains o) = some out :=
  ⟨flitState 27 (aMsg 28 3) [1], 27, aFlit 27, aMsg 28 3, also6 (by constructorm* _ ∧ _ <;> decide +kernel) ⟨0,
   by constructorm* _ ∧ _ <;> decide +kernel⟩⟩

theorem witness_FlitsAreRouted_2_0 : ∃ (s : State) (r ep id q out : Nat) (m : Message), s.subject = .num r ∧ r < 72 ∧ (∀ g ∈ s.eng.fab.flits, g.router
    ≠ r) ∧ (s.router r).cand.find? ep = some (id, q) ∧ ep < 8 ∧ (∀ e, e < 8 → e ≠ ep → (s.router r).cand.find? e = none ∧ waitingFlits s r e = []) ∧
    s.message? id = some m ∧ m.xd = false ∧ m.dst < 72 ∧ m.dst ≠ r ∧ m.msgid ≠ 1024 ∧ (s.router r).injected = false ∧ (s.router r).own < 256 ∧
    (s.router r).level ≤ 7 ∧ (¬ (r = s.eng.fab.golden ∧ s.clk % 4096 < 4064)) ∧ (meshWays r m.dst).find? (fun o => !(s.router r).taken.contains o) =
    some out ∧ 8 - (s.router r).level ≤ s.clk % 8 :=
  ⟨injectState 0 { aMsg 71 3 with src := 0 } 1 4095, 0, 1, 7, 2, 1, { aMsg 71 3 with src := 0 }, by constructorm* _ ∧ _ <;> decide +kernel⟩

theorem witness_FlitsAreRouted_2_1 : ∃ (s : State) (r ep id q out : Nat) (m : Message), s.subject = .num r ∧ r < 72 ∧ (∀ g ∈ s.eng.fab.flits, g.router
    ≠ r) ∧ (s.router r).cand.find? ep = some (id, q) ∧ ep < 8 ∧ (∀ e, e < 8 → e ≠ ep → (s.router r).cand.find? e = none ∧ waitingFlits s r e = []) ∧
    s.message? id = some m ∧ m.xd = false ∧ m.dst < 72 ∧ m.dst ≠ r ∧ m.msgid ≠ 1024 ∧ (s.router r).injected = false ∧ (s.router r).own < 256 ∧
    (s.router r).level ≤ 7 ∧ (¬ (r = s.eng.fab.golden ∧ s.clk % 4096 < 4064)) ∧ (meshWays r m.dst).find? (fun o => !(s.router r).taken.contains o) =
    some out ∧ s.clk % 8 < 8 - (s.router r).level :=
  ⟨injectState 0 { aMsg 71 3 with src := 0 } 1 4094, 0, 1, 7, 2, 1, { aMsg 71 3 with src := 0 }, by constructorm* _ ∧ _ <;> decide +kernel⟩

theorem witness_FlitsAreRouted_3 : ∃ (s : State) (core id : Nat) (m : Message), s.subject = .num core ∧ s.eng.fab.messages.entries = [(id, m)] ∧
    m.core = some core ∧ m.purpose = .transit ∧ m.overflow ≠ [] ∧ residentOn s m.ctx core = true ∧ m.arrived.length + m.overflow.length < m.nflit :=
  ⟨{ modFab (fun b => { b with messages := FMap.empty.insert 7 overflowMsg }) base with subject := .num 0 }, 0, 7, overflowMsg,
   by constructorm* _ ∧ _ <;> decide +kernel⟩

theorem witness_FlitsAreRouted_4 : ∃ (s : State) (r : Nat), s.subject = .num r :=
  ⟨{ base with subject := .num 71 }, 71, by decide +kernel⟩

def limitClk : Nat := 5 + (72 * 4096 + 15) + 65536
def stuckMsg (p : Purpose) : Message := { aMsg 3 3 with firstAt := some 5, purpose := p }
def stuckState (clk : Nat) (p : Purpose) : State :=
  { modFab (fun b => { b with messages := FMap.empty.insert 7 (stuckMsg p) }) base with subject := .num 7, clk := clk }
def answerOp : Op := anOp 8 5 [ldItem 1]
def stuckAnswer : State :=
  { modFab (fun b => { b with messages := FMap.empty.insert 7 (stuckMsg (.reply w0 3 1)) }) (laneOn base answerOp 1) with
    subject := .num 7, clk := limitClk + 1 }
def badFrame : LinkFrame := { port := 15, crcOk := false }
def frameState : State := { modFab (fun b => { b with ports := FMap.empty.insert 15 { down := false, fails := 15 } }) base with subject := .frame badFrame }
def stepClk (n : Nat) : State := base.modLdr fun l => { l with device := l.device.set 5 (n64 n) }
/-- A device of two, whose system time runs. -/
def slewState (st : Option Nat) (at_ : Nat) : State :=
  modFab (fun b => { b with slewAt := at_ }) (base.modLdr fun l => { l with stClk := st, device := l.device.set 0 0x208080000 })

theorem witness_FabricKeepsTime_2_0 : ∃ (s : State) (id k : Nat) (m : Message), s.subject = .num id ∧ s.message? id = some m ∧ m.xd = false ∧
    m.firstAt = some k ∧ m.overflow = [] ∧
    let limit := k + (72 * 4096 + 15) + 65536
    s.clk ≤ limit :=
  ⟨stuckState limitClk .transit, 7, 5, stuckMsg .transit, by constructorm* _ ∧ _ <;> decide +kernel⟩

theorem witness_FabricKeepsTime_2_1 : ∃ (s : State) (id k : Nat) (m : Message), s.subject = .num id ∧ s.message? id = some m ∧ m.xd = false ∧
    m.firstAt = some k ∧ m.overflow = [] ∧
    let limit := k + (72 * 4096 + 15) + 65536
    limit < s.clk ∧ m.purpose = .transit :=
  ⟨stuckState (limitClk + 1) .transit, 7, 5, stuckMsg .transit, by constructorm* _ ∧ _ <;> decide +kernel⟩

theorem witness_FabricKeepsTime_2_2 : ∃ (s : State) (id k : Nat) (m : Message), s.subject = .num id ∧ s.message? id = some m ∧ m.xd = false ∧
    m.firstAt = some k ∧ m.overflow = [] ∧
    let limit := k + (72 * 4096 + 15) + 65536
    ∃ (p : Pick) (n : Nat), limit < s.clk ∧ m.purpose = .reply p.w p.op.id p.item.lane ∧ OnTrans
      { s with subject := .trans (.op p.w p.op.id p.item.lane) } p ∧ isMem p.op.unit = true ∧ (p.op.opc, n) ∈ loadRows ∧ p.item.trip = 1 :=
  ⟨stuckAnswer, 7, 5, stuckMsg (.reply w0 3 1),
   also5 (by constructorm* _ ∧ _ <;> decide +kernel) ⟨{ w := w0, warp := theWarp stuckAnswer, op := answerOp, item := ldItem 1 }, 8,
   by decide +kernel, by decide +kernel, by constructor <;> decide +kernel, by constructorm* _ ∧ _ <;> decide +kernel⟩⟩

theorem witness_FabricKeepsTime_3 : ∃ (s : State) (f : LinkFrame) (n : Nat), s.subject = .frame f ∧ f.port < 16 ∧ f.crcOk = false ∧
    (s.eng.fab.ports.find? f.port).getD { down := false, fails := 0 } = { down := false, fails := n } :=
  ⟨frameState, badFrame, 15, by constructorm* _ ∧ _ <;> decide +kernel⟩

theorem witness_FabricKeepsTime_4_0 : ∃ s : State, s.clk % 2 ^ 48 ≠ (s.ldr.device.getD 5 0).toNat % 2 ^ 48 :=
  ⟨stepClk 11, by decide +kernel⟩

theorem witness_FabricKeepsTime_4_1 : ∃ s : State, s.clk % 2 ^ 48 = (s.ldr.device.getD 5 0).toNat % 2 ^ 48 :=
  ⟨stepClk 10, by decide +kernel⟩

theorem witness_FabricKeepsTime_5_0 : ∃ s : State, (s.ldr.stClk = none ∨ s.clk < s.eng.fab.slewAt) :=
  ⟨slewState (some 3) 11, by decide +kernel⟩

theorem witness_FabricKeepsTime_5_1 : ∃ s : State, s.ldr.stClk ≠ none ∧ s.eng.fab.slewAt ≤ s.clk ∧ 1 < deviceCount s :=
  ⟨slewState (some 3) 10, by constructorm* _ ∧ _ <;> decide +kernel⟩

def winOf (base size pa : Nat) (wr : Bool) : List W64 := [n64 (128 + if wr then 64 else 0), n64 base, n64 (size / 2 ^ 20), n64 pa, 0, 0, 0, 0]
def aPeer (k : AccKind) (a n : Nat) : PeerAccess := { dev := 3, kind := k, opc := 23, addr := a, bytes := n, data := 0x8877665544332211, cmp := 0 }
/-- A peer's access; its window is 0x2000000 to 0x2FFFFFF, or is closed to writes. -/
def peerState (p : PeerAccess) (wr : Bool) : State :=
  { base.modLdr fun l => { l with peerWins := FMap.empty.insert 2 (winOf 0x2000000 0x1000000 0 wr) } with subject := .peer p }
def aHost (k : AccKind) (off n : Nat) : HostAccess :=
  { req := 5, relaxed := false, func := 64, off := off, bytes := List.replicate n 7, kind := k, width := n, operand := 3, cmp := 4 }
/-- The host's access; the window is 0x1200000 to 0x21FFFFF of the BAR. -/
def hostState (a : HostAccess) : State :=
  { base.modFunc 64 (fun f => { f with windows := FMap.empty.insert 2 (winOf 0x1200000 0x1000000 0x2000000 true) }) with subject := .host a }
def aQueue (n : Nat) : Queue := { func := 64, host := false, base := 0x9000, size := 4, producer := n, consumer := n, irq := false }
def bellState (n p : Nat) : State := { base.modLdr fun l => { l with queues := FMap.empty.insert 3 (aQueue n) } with subject := .pair 3 p }
/-- Access 4, of a peer, and the message whose only flit is at its endpoint at router `r`. -/
def aVisit (k : AccKind) (opc pa : Nat) (bs : List (Nat × Byte)) : OutAccess :=
  { dev := some 3, mark := 0, kind := k, opc := opc, pa := pa, bytes := bs, width := 8, operand := 3, cmp := 4, epoch := some 0, performed := false,
    answer := .none }
def lastMsg (r ep : Nat) (xd : Bool) (p : Purpose) : Message :=
  { aMsg r 1 with dstEp := ep, purpose := p, xd := xd, sdev := 3, toSend := [] }
def lastState (r : Nat) (m : Message) (f : Loader → Loader) : State :=
  { modFab (fun b => { b with flits := [aFlit r], messages := FMap.empty.insert 7 m }) (base.modLdr f) with subject := .num r }
def visitAt (r : Nat) (xd : Bool) (a : OutAccess) (wr : Bool) : State :=
  lastState r (lastMsg r 1 xd (.access 4)) fun l =>
    { l with outs := FMap.empty.insert 4 a, peerWins := FMap.empty.insert 2 (winOf 0x2000000 0x1000000 0 wr) }
def versioned (s : State) : State := modSnap (fun n => { n with chains := FMap.empty.insert 72 { time := 1, older := [] } }) s
def answered : OutAccess := { aVisit .read 0 0x9000 [] with dev := none, mark := 6, performed := true, answer := .data [7] }
def rung (n p : Nat) : State := lastState 65 (lastMsg 65 0 false (.doorbell 3 p)) fun l => { l with queues := FMap.empty.insert 3 (aQueue n) }

theorem witness_HostPeersAndPower_0_0 : ∃ (s : State) (p : PeerAccess), s.subject = .peer p ∧ (p.dev = s.deviceId ∨ configured s p.dev = false) :=
  ⟨peerState (aPeer .read 0x2FFFFF9 8) true, aPeer .read 0x2FFFFF9 8, by constructorm* _ ∧ _ <;> decide +kernel⟩

theorem witness_HostPeersAndPower_0_1 : ∃ (s : State) (p : PeerAccess), s.subject = .peer p ∧ p.dev ≠ s.deviceId ∧ configured s p.dev = true :=
  ⟨(peerState { aPeer .write 0x2000000 1 with dev := 1 } true).modLdr fun l => { l with device := l.device.set 0 0x204100000 },
   { aPeer .write 0x2000000 1 with dev := 1 }, by constructorm* _ ∧ _ <;> decide +kernel⟩

theorem witness_HostPeersAndPower_1_0 : ∃ (s : State) (a : HostAccess), s.subject = .host a ∧ hostReady s a = true ∧ barHead a.func ≤ a.off ∧ a.kind =
    .write ∧ hostTarget s a.func a.off a.bytes.length true = none :=
  ⟨hostState (aHost .write 0x1000000 8), aHost .write 0x1000000 8, by constructorm* _ ∧ _ <;> decide +kernel⟩

theorem witness_HostPeersAndPower_1_1 : ∃ (s : State) (a : HostAccess), s.subject = .host a ∧ hostReady s a = true ∧ barHead a.func ≤ a.off ∧ ∃ pa,
    a.kind = .write ∧ hostTarget s a.func a.off a.bytes.length true = some pa ∧ a.bytes ≠ [] ∧ pa % 512 + a.bytes.length ≤ 512 :=
  ⟨hostState (aHost .write 0x21FFFF8 8), aHost .write 0x21FFFF8 8, also3 (by constructorm* _ ∧ _ <;> decide +kernel) ⟨0x2FFFFF8,
   by constructorm* _ ∧ _ <;> decide +kernel⟩⟩

theorem witness_HostPeersAndPower_1_2 : ∃ (s : State) (a : HostAccess), s.subject = .host a ∧ hostReady s a = true ∧ barHead a.func ≤ a.off ∧ a.kind =
    .read ∧ hostTarget s a.func a.off a.width false = none :=
  ⟨hostState (aHost .read 0x21FFFF9 8), aHost .read 0x21FFFF9 8, by constructorm* _ ∧ _ <;> decide +kernel⟩

theorem witness_HostPeersAndPower_1_3 : ∃ (s : State) (a : HostAccess), s.subject = .host a ∧ hostReady s a = true ∧ barHead a.func ≤ a.off ∧ ∃ pa,
    a.kind = .read ∧ hostTarget s a.func a.off a.width false = some pa ∧ 0 < a.width ∧ pa % 512 + a.width ≤ 512 :=
  ⟨hostState (aHost .read 0x1200000 64), aHost .read 0x1200000 64, also3 (by constructorm* _ ∧ _ <;> decide +kernel) ⟨0x2000000,
   by constructorm* _ ∧ _ <;> decide +kernel⟩⟩

theorem witness_HostPeersAndPower_1_4 : ∃ (s : State) (a : HostAccess), s.subject = .host a ∧ hostReady s a = true ∧ barHead a.func ≤ a.off ∧ (a.kind
    = .add ∨ a.kind = .exch ∨ a.kind = .cas) ∧ ((a.width ≠ 4 ∧ a.width ≠ 8) ∨ hostTarget s a.func a.off a.width true = none) :=
  ⟨hostState (aHost .cas 0x1200000 2), aHost .cas 0x1200000 2, by constructorm* _ ∧ _ <;> decide +kernel⟩

theorem witness_HostPeersAndPower_1_5 : ∃ (s : State) (a : HostAccess), s.subject = .host a ∧ hostReady s a = true ∧ barHead a.func ≤ a.off ∧ ∃ pa,
    (a.kind = .add ∨ a.kind = .exch ∨ a.kind = .cas) ∧ (a.width = 4 ∨ a.width = 8) ∧ hostTarget s a.func a.off a.width true = some pa :=
  ⟨hostState (aHost .add 0x1200004 4), aHost .add 0x1200004 4, also3 (by constructorm* _ ∧ _ <;> decide +kernel) ⟨0x2000004,
   by constructorm* _ ∧ _ <;> decide +kernel⟩⟩

theorem witness_HostPeersAndPower_2_0 : ∃ (s : State) (r id : Nat) (f : Flit) (m : Message) (a : OutAccess), LastFlit s r f m ∧ m.purpose = .access id
    ∧ s.ldr.outs.find? id = some a ∧ m.xd = true ∧ peerWindow s a.pa a.width (a.kind != .read) = false :=
  ⟨(visitAt 67 true (aVisit .write 0 0x2000000 [(0x2000000, 5)]) false), 67, 4, aFlit 67, lastMsg 67 1 true (.access 4),
   aVisit .write 0 0x2000000 [(0x2000000, 5)], by constructor <;> decide +kernel, by constructorm* _ ∧ _ <;> decide +kernel⟩

theorem witness_HostPeersAndPower_2_1 : ∃ (s : State) (r id : Nat) (f : Flit) (m : Message) (a : OutAccess), LastFlit s r f m ∧ m.purpose = .access id
    ∧ s.ldr.outs.find? id = some a ∧ m.xd = true ∧ peerWindow s a.pa a.width (a.kind != .read) = true :=
  ⟨(visitAt 67 true (aVisit .read 0 0x2FFFFF8 []) true), 67, 4, aFlit 67, lastMsg 67 1 true (.access 4), aVisit .read 0 0x2FFFFF8 [],
   by constructor <;> decide +kernel, by constructorm* _ ∧ _ <;> decide +kernel⟩

theorem witness_HostPeersAndPower_2_2 : ∃ (s : State) (r id : Nat) (f : Flit) (m : Message) (a : OutAccess), LastFlit s r f m ∧ m.purpose = .access id
    ∧ s.ldr.outs.find? id = some a ∧ m.xd = false ∧ m.bad = [] ∧ a.kind = .read ∧ s.mem.touchesPoison a.pa a.width = false :=
  ⟨(visitAt 9 false (aVisit .read 0 0x9FF8 []) true), 9, 4, aFlit 9, lastMsg 9 1 false (.access 4), aVisit .read 0 0x9FF8 [],
   by constructor <;> decide +kernel, by constructorm* _ ∧ _ <;> decide +kernel⟩

theorem witness_HostPeersAndPower_2_3 : ∃ (s : State) (r id : Nat) (f : Flit) (m : Message) (a : OutAccess), LastFlit s r f m ∧ m.purpose = .access id
    ∧ s.ldr.outs.find? id = some a ∧ m.xd = false ∧ m.bad = [] ∧ a.kind = .write ∧ a.bytes ≠ [] ∧ (a.bytes.map Prod.fst).Nodup ∧ (∀ e ∈ a.bytes, e.1 /
    512 = a.pa / 512) ∧ s.eng.snap.chains.has (a.pa / 512) = false :=
  ⟨(visitAt 9 false (aVisit .write 0 0x9000 [(0x9000, 5), (0x9001, 6)]) true), 9, 4, aFlit 9, lastMsg 9 1 false (.access 4),
   aVisit .write 0 0x9000 [(0x9000, 5), (0x9001, 6)], by constructor <;> decide +kernel, by constructorm* _ ∧ _ <;> decide +kernel⟩

theorem witness_HostPeersAndPower_2_4 : ∃ (s : State) (r id : Nat) (f : Flit) (m : Message) (a : OutAccess), LastFlit s r f m ∧ m.purpose = .access id
    ∧ s.ldr.outs.find? id = some a ∧ m.xd = false ∧ m.bad = [] ∧ a.kind = .write ∧ a.bytes ≠ [] ∧ (a.bytes.map Prod.fst).Nodup ∧ (∀ e ∈ a.bytes, e.1 /
    512 = a.pa / 512) ∧ s.eng.snap.chains.has (a.pa / 512) = true :=
  ⟨versioned (visitAt 9 false (aVisit .write 0 0x9000 [(0x9000, 5), (0x9001, 6)]) true), 9, 4, aFlit 9, lastMsg 9 1 false (.access 4),
   aVisit .write 0 0x9000 [(0x9000, 5), (0x9001, 6)], by constructor <;> decide +kernel, by constructorm* _ ∧ _ <;> decide +kernel⟩

theorem witness_HostPeersAndPower_2_5 : ∃ (s : State) (r id : Nat) (f : Flit) (m : Message) (a : OutAccess), LastFlit s r f m ∧ m.purpose = .access id
    ∧ s.ldr.outs.find? id = some a ∧ m.xd = false ∧ m.bad = [] ∧ (a.kind = .add ∨ a.kind = .exch ∨ a.kind = .cas) ∧ (a.width = 4 ∨ a.width = 8) ∧
    s.mem.touchesPoison a.pa a.width = false ∧ a.opc = (if a.kind = .add then 12 else if a.kind = .exch then 20 else 22) + (if a.width = 8 then 1 else
    0) ∧ s.eng.snap.chains.has (a.pa / 512) = false :=
  ⟨(visitAt 9 false (aVisit .cas 23 0x9000 []) true), 9, 4, aFlit 9, lastMsg 9 1 false (.access 4), aVisit .cas 23 0x9000 [],
   by constructor <;> decide +kernel, by constructorm* _ ∧ _ <;> decide +kernel⟩

theorem witness_HostPeersAndPower_3 : ∃ (s : State) (id : Nat) (f : Flit) (m : Message) (a : OutAccess), LastFlit s 64 f m ∧ m.xd = false ∧ m.dstEp =
    0 ∧ m.purpose = .answer id ∧ s.ldr.outs.find? id = some a ∧ a.dev = none ∧ a.kind ≠ .write :=
  ⟨lastState 64 (lastMsg 64 0 false (.answer 4)) fun l => { l with outs := FMap.empty.insert 4 answered }, 4, aFlit 64,
   lastMsg 64 0 false (.answer 4), answered, by constructor <;> decide +kernel, by constructorm* _ ∧ _ <;> decide +kernel⟩

theorem witness_HostPeersAndPower_4 : ∃ (s : State) (n producer : Nat), s.subject = .pair n producer :=
  ⟨bellState 5 5, 3, 5, by decide +kernel⟩

theorem witness_HostPeersAndPower_5_0 : ∃ (s : State) (f : Flit) (m : Message) (n producer : Nat) (q : Queue), LastFlit s 65 f m ∧ m.xd = false ∧
    m.purpose = .doorbell n producer ∧ s.ldr.queues.find? n = some q ∧ producer < 2 ^ 32 ∧ q.consumer < 2 ^ 32 ∧ q.consumer = producer :=
  ⟨rung 5 5, aFlit 65, lastMsg 65 0 false (.doorbell 3 5), 3, 5, aQueue 5, by constructor <;> decide +kernel,
   by constructorm* _ ∧ _ <;> decide +kernel⟩

theorem witness_HostPeersAndPower_5_1 : ∃ (s : State) (f : Flit) (m : Message) (n producer : Nat) (q : Queue), LastFlit s 65 f m ∧ m.xd = false ∧
    m.purpose = .doorbell n producer ∧ s.ldr.queues.find? n = some q ∧ producer < 2 ^ 32 ∧ q.consumer < 2 ^ 32 ∧ producer = (q.consumer + 1) % 2 ^ 32
    ∧ 0 < q.size :=
  ⟨rung (2 ^ 32 - 1) 0, aFlit 65, lastMsg 65 0 false (.doorbell 3 0), 3, 0, aQueue (2 ^ 32 - 1), by constructor <;> decide +kernel,
   by constructorm* _ ∧ _ <;> decide +kernel⟩

def aFirmware : Firmware := { image := [], sig := [], keys := [], keysSig := [], grade := 0, mxp := false, cores := [], pairs := [] }
def fwState (booted : Bool) : State := { base.modLdr fun l => { l with booted := booted } with subject := .firmware aFirmware }

theorem witness_HostPeersAndPower_7_0 : ∃ (s : State) (f : Firmware), s.subject = .firmware f ∧ (s.ldr.booted = true ∨ rootSigned f.image f.sig =
    false ∨ rootSigned f.keys.flatten f.keysSig = false) :=
  ⟨fwState true, aFirmware, by decide +kernel, .inl (by decide +kernel)⟩

/-- Whether the root key signs a firmware is open (Config.ed448Verify): where it does, this meets the hypotheses. -/
theorem witness_HostPeersAndPower_7_1 :
    rootSigned [] [] = true →
      ∃ (s : State) (f : Firmware), s.subject = .firmware f ∧ s.ldr.booted = false ∧ rootSigned f.image f.sig = true ∧
        rootSigned f.keys.flatten f.keysSig = true := by
  intro h
  exact ⟨fwState false, aFirmware, by decide +kernel, by decide +kernel, h, h⟩

/-- A command of a function for context 2 of function 3, or for none. -/
def foreign (i : Instr) (ctx w3 func : Nat) : State := acts (withCtx2 base) i (aCmd ctx [0, 0, w3]) func .accepted []
def foreignRun (i : Instr) (ctx w3 func : Nat) : Acting := acting i (aCmd ctx [0, 0, w3]) func .accepted []

theorem witness_ForeignCommandsAreNotPermitted_0_0 : ∃ (s : State) (i : Instr) (a : Acting), OnCommand s a ∧ i ∈ contextCommands ∧ (¬ Owns s a) :=
  ⟨foreign .launch 2 0 64, .launch, foreignRun .launch 2 0 64, on_command (by decide +kernel), by decide +kernel, not_owns (by decide +kernel)⟩

theorem witness_ForeignCommandsAreNotPermitted_0_1 : ∃ (s : State) (i : Instr) (a : Acting), OnCommand s a ∧ i ∈ functionCommands ∧ a.cmd.ctx ≠ 0 ∧ (¬
    Owns s a) :=
  ⟨foreign .queryEvsel 2 0 64, .queryEvsel, foreignRun .queryEvsel 2 0 64, on_command (by decide +kernel), by decide +kernel, by decide +kernel,
   not_owns (by decide +kernel)⟩

theorem witness_ForeignCommandsAreNotPermitted_0_2 : ∃ (s : State) (i : Instr) (a : Acting), OnCommand s a ∧ i ∈ functionCommands ∧ a.cmd.ctx ≠ 0 ∧
    Owns s a :=
  ⟨foreign .ctxCreate 2 0 3, .ctxCreate, foreignRun .ctxCreate 2 0 3, on_command (by decide +kernel), by decide +kernel, by decide +kernel,
   owns (by decide +kernel)⟩

theorem witness_ForeignCommandsAreNotPermitted_0_3 : ∃ (s : State) (i : Instr) (a : Acting), OnCommand s a ∧ i ∈ physicalCommands ∧ a.cmd.ctx = 0 ∧
    a.run.func ≠ 64 :=
  ⟨foreign .devConfigDevice 0 0 63, .devConfigDevice, foreignRun .devConfigDevice 0 0 63, on_command (by decide +kernel),
   by constructorm* _ ∧ _ <;> decide +kernel⟩

theorem witness_ForeignCommandsAreNotPermitted_0_4 : ∃ (s : State) (i : Instr) (a : Acting), OnCommand s a ∧ (i = .kill ∨ i = .attest ∨ i =
    .attestCertificate) ∧ a.cmd.ctx ≠ 0 ∧ (¬ Owns s a) :=
  ⟨foreign .attest 2 0 64, .attest, foreignRun .attest 2 0 64, on_command (by decide +kernel), by decide +kernel, by decide +kernel,
   not_owns (by decide +kernel)⟩

theorem witness_ForeignCommandsAreNotPermitted_0_5 : ∃ (s : State) (i : Instr) (a : Acting), OnCommand s a ∧ i = .debugRevoke ∧ a.run.func ≠ 64 :=
  ⟨foreign .debugRevoke 0 0 0, .debugRevoke, foreignRun .debugRevoke 0 0 0, on_command (by decide +kernel), by constructorm* _ ∧ _ <;> decide +kernel⟩

theorem witness_ForeignCommandsAreNotPermitted_0_6 : ∃ (s : State) (i : Instr) (a : Acting), OnCommand s a ∧ i = .queryConfig ∧ a.run.func ≠ 64 ∧ (¬
    Owns s a) :=
  ⟨foreign .queryConfig 2 0 0, .queryConfig, foreignRun .queryConfig 2 0 0, on_command (by decide +kernel), by decide +kernel, by decide +kernel,
   not_owns (by decide +kernel)⟩

theorem witness_ForeignCommandsAreNotPermitted_0_7 : ∃ (s : State) (i : Instr) (a : Acting), OnCommand s a ∧ i = .queryPartition ∧ a.cmd.ctx = 0 ∧
    a.run.func ≠ 64 ∧ a.cmd.w3.toNat ≠ 0 ∧ a.cmd.w3.toNat ≠ a.run.func :=
  ⟨foreign .queryPartition 0 64 3, .queryPartition, foreignRun .queryPartition 0 64 3, on_command (by decide +kernel),
   by constructorm* _ ∧ _ <;> decide +kernel⟩

theorem witness_ForeignCommandsAreNotPermitted_0_8 : ∃ (s : State) (i : Instr) (a : Acting), OnCommand s a ∧ ∃ c, i ∈ holderCommands ∧ OnContext s a c
    ∧ c.debugQueue ≠ some a.run.queue :=
  ⟨foreign .debugHalt 2 0 3, .debugHalt, foreignRun .debugHalt 2 0 3, on_command (by decide +kernel), theCtx (withCtx2 base) 2, by decide +kernel,
   on_context (by decide +kernel), by decide +kernel⟩

/-! ## Witnesses: contexts -/

def okBlock : List Nat := [8, 0, 0, 7, 0x52903000, 0, 0, 0]
def badBlock : List Nat := [7, 0, 0, 7, 0x52903000, 0, 0, 0]
def asids (first n : Nat) (s : State) : State := s.modFunc 64 fun f => { f with asid0 := first, asidN := n }
def noTeams (s : State) : State := { s with teams := .empty }
def teamSaved (s : State) : State := s.modTeam 1 fun t => { t with status := .saved }
/-- A command for no context, with its block at 0x9000. -/
def devAct (i : Instr) (w block : List Nat) (s : State) : State := acts (wordsFrom 0x9000 block s) i (aCmd 0 w) 64 .accepted []
def devRun (i : Instr) (w : List Nat) : Acting := acting i (aCmd 0 w) 64 .accepted []

theorem witness_ContextsAreMadeServedAndRemoved_0_0 : ∃ (s : State) (a : Acting), OnFunction s a ∧
    let b := blockAt s a.cmd.w1
    (¬ CfgLegal b) :=
  ⟨devAct .ctxCreate [0x9000] badBlock (base), devRun .ctxCreate [0x9000], on_function (by decide +kernel), by unfold CfgLegal; decide +kernel⟩

theorem witness_ContextsAreMadeServedAndRemoved_0_1 : ∃ (s : State) (a : Acting), OnFunction s a ∧
    let b := blockAt s a.cmd.w1
    let f := s.func a.run.func
    let open_ := fun n => n ≠ 0 ∧ f.asid0 ≤ n ∧ n < f.asid0 + f.asidN ∧ s.context? n = none
    CfgLegal b ∧ (∀ n, ¬ open_ n) :=
  ⟨devAct .ctxCreate [0x9000] okBlock (asids 5 0 base), devRun .ctxCreate [0x9000], on_function (by decide +kernel),
   by unfold CfgLegal; decide +kernel, fun _ h => absurd (Nat.lt_of_le_of_lt h.2.1 h.2.2.1) (by decide +kernel)⟩

theorem witness_ContextsAreMadeServedAndRemoved_0_2 : ∃ (s : State) (a : Acting), OnFunction s a ∧
    let b := blockAt s a.cmd.w1
    let f := s.func a.run.func
    let open_ := fun n => n ≠ 0 ∧ f.asid0 ≤ n ∧ n < f.asid0 + f.asidN ∧ s.context? n = none
    CfgLegal b ∧ (∃ n, open_ n) :=
  ⟨devAct .ctxCreate [0x9000] okBlock (asids 1 2 base), devRun .ctxCreate [0x9000], on_function (by decide +kernel),
   by unfold CfgLegal; decide +kernel, ⟨2, by decide +kernel⟩⟩

theorem witness_ContextsAreMadeServedAndRemoved_1_0 : ∃ (s : State) (a : Acting) (c : Context), OnContext s a c ∧
    let b := blockAt s a.cmd.w1
    (¬ CfgLegal b) :=
  ⟨(cmdAct .ctxConfig [0x9000] .accepted [] (wordsFrom 0x9000 badBlock base)), cmdRun .ctxConfig [0x9000] .accepted [],
   theCtx (cmdAct .ctxConfig [0x9000] .accepted [] (wordsFrom 0x9000 badBlock base)) 1, on_context (by decide +kernel),
   by unfold CfgLegal; decide +kernel⟩

theorem witness_ContextsAreMadeServedAndRemoved_1_1 : ∃ (s : State) (a : Acting) (c : Context), OnContext s a c ∧
    let b := blockAt s a.cmd.w1
    CfgLegal b :=
  ⟨(cmdAct .ctxConfig [0x9000] .accepted [] (wordsFrom 0x9000 okBlock base)), cmdRun .ctxConfig [0x9000] .accepted [],
   theCtx (cmdAct .ctxConfig [0x9000] .accepted [] (wordsFrom 0x9000 okBlock base)) 1, on_context (by decide +kernel),
   by unfold CfgLegal; decide +kernel⟩

/-- A push is under way on deque 0x33. -/
def pushing : State := laneOn base (anOp 14 0 [anItem 1 0x33 0 .go none 2]) 1

theorem witness_ContextsAreMadeServedAndRemoved_2_0 : ∃ (s : State) (a : Acting) (c : Context), OnContext s a c ∧
    let kind := a.cmd.w1.toNat
    let first := a.cmd.w2.toNat
    let count := a.cmd.w3.toNat
    let legal := kind ≤ 2 ∧ first + count ≤ (if kind = 0 then 65536 else if kind = 1 then 4096 else 64) ∧ a.cmd.w4.toNat < 2
    (¬ legal) :=
  ⟨(cmdAct .grant [2, 60, 5, 0] .accepted [] (base)), cmdRun .grant [2, 60, 5, 0] .accepted [],
   theCtx (cmdAct .grant [2, 60, 5, 0] .accepted [] (base)) 1, on_context (by decide +kernel), by decide +kernel⟩

theorem witness_ContextsAreMadeServedAndRemoved_2_1 : ∃ (s : State) (a : Acting) (c : Context), OnContext s a c ∧
    let kind := a.cmd.w1.toNat
    let first := a.cmd.w2.toNat
    let count := a.cmd.w3.toNat
    let legal := kind ≤ 2 ∧ first + count ≤ (if kind = 0 then 65536 else if kind = 1 then 4096 else 64) ∧ a.cmd.w4.toNat < 2
    legal ∧ objectBusy s (ctxNamed a) kind first count = true :=
  ⟨(cmdAct .grantRevoke [1, 0x33, 1, 1] .accepted [] (pushing)), cmdRun .grantRevoke [1, 0x33, 1, 1] .accepted [],
   theCtx (cmdAct .grantRevoke [1, 0x33, 1, 1] .accepted [] (pushing)) 1, on_context (by decide +kernel), by constructorm* _ ∧ _ <;> decide +kernel⟩

theorem witness_ContextsAreMadeServedAndRemoved_2_2 : ∃ (s : State) (a : Acting) (c : Context), OnContext s a c ∧
    let kind := a.cmd.w1.toNat
    let first := a.cmd.w2.toNat
    let count := a.cmd.w3.toNat
    let legal := kind ≤ 2 ∧ first + count ≤ (if kind = 0 then 65536 else if kind = 1 then 4096 else 64) ∧ a.cmd.w4.toNat < 2
    legal ∧ objectBusy s (ctxNamed a) kind first count = false :=
  ⟨(cmdAct .grantRevoke [0, 65535, 1, 1] .accepted [] (base)), cmdRun .grantRevoke [0, 65535, 1, 1] .accepted [],
   theCtx (cmdAct .grantRevoke [0, 65535, 1, 1] .accepted [] (base)) 1, on_context (by decide +kernel), by constructorm* _ ∧ _ <;> decide +kernel⟩

def aTrapRec : TrapRec :=
  { code := 0x33, rung := 0, cls := 2, faultMask := 5, laneMask := 7, clk := 77, detail := .empty, timeoutRung := 0 }
def aCtxTrap : CtxTrap := { warp := w0, trap := aTrapRec, pc := FMap.empty.insert 0 0x40, reads := [⟨8, offY, 0, 0⟩, ⟨8, offY2, 63, 0⟩],
                            values := [], since := some 3 }
def trapped (s : State) : State := modCtx1 (fun c => { c with traps := [aCtxTrap], stopped := true }) s

theorem witness_ContextsAreMadeServedAndRemoved_3_0 : ∃ (s : State) (a : Acting) (c : Context), OnContext s a c ∧ 8 ≤ a.cmd.w1.toNat :=
  ⟨(cmdAct .switchPreempt [8] .accepted [] (base)), cmdRun .switchPreempt [8] .accepted [], theCtx (cmdAct .switchPreempt [8] .accepted [] (base)) 1,
   on_context (by decide +kernel), by decide +kernel⟩

theorem witness_ContextsAreMadeServedAndRemoved_3_1 : ∃ (s : State) (a : Acting) (c : Context), OnContext s a c ∧ a.cmd.w1.toNat < 8 ∧ a.run.state =
    .accepted ∧ c.traps ≠ [] :=
  ⟨(cmdAct .switchPreempt [7] .accepted [] (trapped base)), cmdRun .switchPreempt [7] .accepted [],
   theCtx (cmdAct .switchPreempt [7] .accepted [] (trapped base)) 1, on_context (by decide +kernel), by constructorm* _ ∧ _ <;> decide +kernel⟩

theorem witness_ContextsAreMadeServedAndRemoved_3_2 : ∃ (s : State) (a : Acting) (c : Context), OnContext s a c ∧
    let here := ∃ t ∈ s.teams.vals, t.ctx = ctxNamed a ∧ t.dead = false ∧ t.status ≠ .saved
    a.cmd.w1.toNat < 8 ∧ a.run.state = .accepted ∧ c.traps = [] ∧ here :=
  ⟨(cmdAct .switchPreempt [0] .accepted [] (base)), cmdRun .switchPreempt [0] .accepted [], theCtx (cmdAct .switchPreempt [0] .accepted [] (base)) 1,
   on_context (by decide +kernel), by constructorm* _ ∧ _ <;> decide +kernel⟩

theorem witness_ContextsAreMadeServedAndRemoved_3_3 : ∃ (s : State) (a : Acting) (c : Context), OnContext s a c ∧
    let here := ∃ t ∈ s.teams.vals, t.ctx = ctxNamed a ∧ t.dead = false ∧ t.status ≠ .saved
    a.cmd.w1.toNat < 8 ∧ a.run.state = .accepted ∧ c.traps = [] ∧ (¬ here) :=
  ⟨(cmdAct .switchPreempt [0] .accepted [] (teamSaved base)), cmdRun .switchPreempt [0] .accepted [],
   theCtx (cmdAct .switchPreempt [0] .accepted [] (teamSaved base)) 1, on_context (by decide +kernel), by constructorm* _ ∧ _ <;> decide +kernel⟩

theorem witness_ContextsAreMadeServedAndRemoved_3_4 : ∃ (s : State) (a : Acting) (c : Context), OnContext s a c ∧
    let here := ∃ t ∈ s.teams.vals, t.ctx = ctxNamed a ∧ t.dead = false ∧ t.status ≠ .saved
    a.cmd.w1.toNat < 8 ∧ a.run.state = .running ∧ here :=
  ⟨(cmdAct .switchPreempt [0] .running [] (base)), cmdRun .switchPreempt [0] .running [], theCtx (cmdAct .switchPreempt [0] .running [] (base)) 1,
   on_context (by decide +kernel), by constructorm* _ ∧ _ <;> decide +kernel⟩

theorem witness_ContextsAreMadeServedAndRemoved_3_5 : ∃ (s : State) (a : Acting) (c : Context), OnContext s a c ∧
    let here := ∃ t ∈ s.teams.vals, t.ctx = ctxNamed a ∧ t.dead = false ∧ t.status ≠ .saved
    a.cmd.w1.toNat < 8 ∧ a.run.state = .running ∧ (¬ here) :=
  ⟨(cmdAct .switchPreempt [0] .running [] (teamSaved base)), cmdRun .switchPreempt [0] .running [],
   theCtx (cmdAct .switchPreempt [0] .running [] (teamSaved base)) 1, on_context (by decide +kernel), by constructorm* _ ∧ _ <;> decide +kernel⟩

theorem witness_ContextsAreMadeServedAndRemoved_3_6 : ∃ (s : State) (a : Acting) (c : Context), OnContext s a c ∧
    let action := a.cmd.w1.toNat / 2 % 4
    a.cmd.w1.toNat < 8 ∧ action = 3 :=
  ⟨(cmdAct .switchResume [6] .accepted [] (base)), cmdRun .switchResume [6] .accepted [], theCtx (cmdAct .switchResume [6] .accepted [] (base)) 1,
   on_context (by decide +kernel), by constructorm* _ ∧ _ <;> decide +kernel⟩

theorem witness_ContextsAreMadeServedAndRemoved_3_7 : ∃ (s : State) (a : Acting) (c : Context), OnContext s a c ∧
    let here := ∃ t ∈ s.teams.vals, t.ctx = ctxNamed a ∧ t.dead = false ∧ t.status ≠ .saved
    let action := a.cmd.w1.toNat / 2 % 4
    a.cmd.w1.toNat < 8 ∧ action ≠ 3 ∧ c.stopped = true ∧ here :=
  ⟨(cmdAct .switchResume [0] .accepted [] (trapped base)), cmdRun .switchResume [0] .accepted [],
   theCtx (cmdAct .switchResume [0] .accepted [] (trapped base)) 1, on_context (by decide +kernel), by constructorm* _ ∧ _ <;> decide +kernel⟩

theorem witness_ContextsAreMadeServedAndRemoved_3_8 : ∃ (s : State) (a : Acting) (c : Context), OnContext s a c ∧
    let here := ∃ t ∈ s.teams.vals, t.ctx = ctxNamed a ∧ t.dead = false ∧ t.status ≠ .saved
    let action := a.cmd.w1.toNat / 2 % 4
    a.cmd.w1.toNat < 8 ∧ action ≠ 3 ∧ (c.stopped = false ∨ ¬ here) ∧ c.traps = [] :=
  ⟨(cmdAct .switchResume [4] .accepted [] (base)), cmdRun .switchResume [4] .accepted [], theCtx (cmdAct .switchResume [4] .accepted [] (base)) 1,
   on_context (by decide +kernel), by constructorm* _ ∧ _ <;> decide +kernel⟩

theorem witness_ContextsAreMadeServedAndRemoved_3_9 : ∃ (s : State) (a : Acting) (c : Context), OnContext s a c ∧
    let here := ∃ t ∈ s.teams.vals, t.ctx = ctxNamed a ∧ t.dead = false ∧ t.status ≠ .saved
    let action := a.cmd.w1.toNat / 2 % 4
    a.cmd.w1.toNat < 8 ∧ action ≠ 3 ∧ (c.stopped = false ∨ ¬ here) ∧ ∃ (t : CtxTrap) (x : Warp), c.traps = [t] ∧ s.warp? t.warp = some x ∧
      x.lanes.length = 64 ∧ (∀ r ∈ t.reads, r.off = offY ∨ r.off = offY2) :=
  ⟨(cmdAct .switchResume [2] .accepted [] (teamSaved (trapped base))), cmdRun .switchResume [2] .accepted [],
   theCtx (cmdAct .switchResume [2] .accepted [] (teamSaved (trapped base))) 1, on_context (by decide +kernel),
   also3 (by constructorm* _ ∧ _ <;> decide +kernel) ⟨aCtxTrap, theWarp (teamSaved (trapped base)), by constructorm* _ ∧ _ <;> decide +kernel⟩⟩

/-- Image 1 has ZIR, the export word of the context is at 0x5008, and no launch runs. -/
def portable : State := withCfg 6 0x5008 (withPages [(5, leafOf 9)] (launchDone base))

theorem witness_ContextsAreMadeServedAndRemoved_4_0 : ∃ (s : State) (a : Acting) (c : Context), OnContext s a c ∧ a.run.state = .accepted ∧
    notPortable s (ctxNamed a) = true :=
  ⟨(cmdAct .ctxExport [0x20000, 3] .accepted [] (base)), cmdRun .ctxExport [0x20000, 3] .accepted [],
   theCtx (cmdAct .ctxExport [0x20000, 3] .accepted [] (base)) 1, on_context (by decide +kernel), by constructorm* _ ∧ _ <;> decide +kernel⟩

theorem witness_ContextsAreMadeServedAndRemoved_4_1 : ∃ (s : State) (a : Acting) (c : Context), OnContext s a c ∧ ∃ p, a.run.state = .accepted ∧
    notPortable s (ctxNamed a) = false ∧ translate s (ctxNamed a) (s.cfgWord (ctxNamed a) 6).toNat true false = .ok p ∧ p.tgt = 0 ∧ NoVersions s :=
  ⟨(cmdAct .ctxExport [0x20000, 3] .accepted [] (portable)), cmdRun .ctxExport [0x20000, 3] .accepted [],
   theCtx (cmdAct .ctxExport [0x20000, 3] .accepted [] (portable)) 1, on_context (by decide +kernel), placeAt 0x9008, by decide +kernel,
   by decide +kernel, by rfl, by decide +kernel, by unfold NoVersions; decide +kernel⟩

theorem witness_ContextsAreMadeServedAndRemoved_4_2 : ∃ (s : State) (a : Acting) (c : Context), OnContext s a c ∧ a.run.state = .running ∧ a.run.info
    = [1] ∧ exportReady s (ctxNamed a) = false :=
  ⟨(cmdAct .ctxExport [0x20000, 3] .running [1] (portable)), cmdRun .ctxExport [0x20000, 3] .running [1],
   theCtx (cmdAct .ctxExport [0x20000, 3] .running [1] (portable)) 1, on_context (by decide +kernel), by constructorm* _ ∧ _ <;> decide +kernel⟩

theorem witness_ContextsAreMadeServedAndRemoved_4_3 : ∃ (s : State) (a : Acting) (c : Context), OnContext s a c ∧ a.run.state = .running ∧ a.run.info
    = [1] ∧ exportReady s (ctxNamed a) = true :=
  ⟨(cmdAct .ctxExport [0x20000, 3] .running [1] (noTeams portable)), cmdRun .ctxExport [0x20000, 3] .running [1],
   theCtx (cmdAct .ctxExport [0x20000, 3] .running [1] (noTeams portable)) 1, on_context (by decide +kernel),
   by constructorm* _ ∧ _ <;> decide +kernel⟩

theorem witness_ContextsAreMadeServedAndRemoved_4_4 : ∃ (s : State) (a : Acting) (c : Context), OnContext s a c ∧
    let here := ctxOnCores s (ctxNamed a)
    a.run.state = .running ∧ a.run.info = [2] ∧ here = true :=
  ⟨(cmdAct .ctxExport [0x20000, 3] .running [2] (portable)), cmdRun .ctxExport [0x20000, 3] .running [2],
   theCtx (cmdAct .ctxExport [0x20000, 3] .running [2] (portable)) 1, on_context (by decide +kernel), by constructorm* _ ∧ _ <;> decide +kernel⟩

theorem witness_ContextsAreMadeServedAndRemoved_4_5 : ∃ (s : State) (a : Acting) (c : Context), OnContext s a c ∧
    let here := ctxOnCores s (ctxNamed a)
    a.run.state = .running ∧ a.run.info = [2] ∧ here = false ∧ NoVersions s :=
  ⟨(cmdAct .ctxExport [0x20000, 3] .running [2] (teamSaved portable)), cmdRun .ctxExport [0x20000, 3] .running [2],
   theCtx (cmdAct .ctxExport [0x20000, 3] .running [2] (teamSaved portable)) 1, on_context (by decide +kernel),
   also3 (by constructorm* _ ∧ _ <;> decide +kernel) (by unfold NoVersions; decide +kernel)⟩

/-- An image that carries a ZIR section. -/
def zirImage (sec : List Nat) : Image :=
  { wordImage with
    slot := 2
    bytes := [0x5A4C584901000400, 8 * sec.length * 2 ^ 32, 0, 0, 64 + 8 * sec.length * 2 ^ 32, 0, 0, 0].flatMap (fun w => wordBytes 8 (n64 w)) ++
      sec.flatMap (fun w => wordBytes 8 (n64 w)) ++ List.replicate 114 0 }
/-- One function of no operation, with a budget of 16 registers. -/
def emptyFunction : List Nat := [1, 16, 16 * 2 ^ 32]
def withZir (sec : List Nat) (top : Nat) (s : State) : State :=
  (noTeams s).modLdr fun l => { l with nextHandle := 7, codeTop := top, images := FMap.empty.insert 3 (zirImage sec) }
def fullTop : Nat := 768 * 2 ^ 30 + 1
theorem full_top {t n : Nat} (h : t = fullTop) : 768 * 2 ^ 30 < (t + n + 511) / 512 * 512 := by
  rw [h, fullTop]
  omega
theorem free_top {t n : Nat} (e : t = 0) (h : n ≤ 2 ^ 20) : (t + n + 511) / 512 * 512 ≤ 768 * 2 ^ 30 := by omega
theorem no_teams {s : State} {n : Nat} (h : s.teams.entries = []) : ∀ k, n ≤ k → s.team? k = none := by
  intro k _
  rw [State.team?, FMap.find?, h]
  rfl

theorem witness_ContextsAreMadeServedAndRemoved_5_0 : ∃ (s : State) (a : Acting) (c : Context), OnContext s a c ∧ (∀ i ∈ s.ldr.images.vals, i.ctx =
    ctxNamed a → imgHasIr i.bytes = false) :=
  ⟨(cmdAct .ctxImport [0x20000, 3] .accepted [] (base)), cmdRun .ctxImport [0x20000, 3] .accepted [],
   theCtx (cmdAct .ctxImport [0x20000, 3] .accepted [] (base)) 1, on_context (by decide +kernel), by decide +kernel⟩

theorem witness_ContextsAreMadeServedAndRemoved_5_1 : ∃ (s : State) (a : Acting) (c : Context), OnContext s a c ∧ ∃ (n : Nat) (i : Image) (r : List
    (Nat × Image)), s.ldr.images.entries = (n, i) :: r ∧ i.ctx = ctxNamed a ∧ imgHasIr i.bytes = true ∧ s.ldr.images.find? 0 = none ∧ s.ldr.nextHandle
    ≠ 0 ∧ NoVersions s ∧
    let sec := section_ i.bytes (imgIr i.bytes)
    translationStatus sec 256 ≠ 0 :=
  ⟨(cmdAct .ctxImport [0x20000, 3] .accepted [] (withZir [] 0 base)), cmdRun .ctxImport [0x20000, 3] .accepted [],
   theCtx (cmdAct .ctxImport [0x20000, 3] .accepted [] (withZir [] 0 base)) 1, on_context (by decide +kernel), 3, zirImage [], [],
   also5 (by constructorm* _ ∧ _ <;> decide +kernel) ⟨by unfold NoVersions; decide +kernel, by decide +kernel⟩⟩

theorem witness_ContextsAreMadeServedAndRemoved_5_2 : ∃ (s : State) (a : Acting) (c : Context), OnContext s a c ∧ ∃ (n : Nat) (i : Image) (r : List
    (Nat × Image)), s.ldr.images.entries = (n, i) :: r ∧ i.ctx = ctxNamed a ∧ imgHasIr i.bytes = true ∧ s.ldr.images.find? 0 = none ∧ s.ldr.nextHandle
    ≠ 0 ∧ NoVersions s ∧
    let sec := section_ i.bytes (imgIr i.bytes)
    translationStatus sec 256 = 0 ∧ needsRegion sec 256 = false ∧ none ∈ c.slots ∧ c.slots.length = 16 ∧ (∀ k, s.nextId ≤ k → s.team? k = none) ∧
    let top := (s.ldr.codeTop + (translatedCode i.bytes 256).length + 511) / 512 * 512
    768 * 2 ^ 30 < top :=
  ⟨(cmdAct .ctxImport [0x20000, 3] .accepted [] (withZir emptyFunction fullTop base)), cmdRun .ctxImport [0x20000, 3] .accepted [],
   theCtx (cmdAct .ctxImport [0x20000, 3] .accepted [] (withZir emptyFunction fullTop base)) 1, on_context (by decide +kernel), 3,
   zirImage emptyFunction, [], also5 (by constructorm* _ ∧ _ <;> decide +kernel) ⟨by unfold NoVersions; decide +kernel,
   also4 (by constructorm* _ ∧ _ <;> decide +kernel) ⟨no_teams (by decide +kernel), full_top (by decide +kernel)⟩⟩⟩

theorem witness_ContextsAreMadeServedAndRemoved_5_3 (h : (translatedCode (zirImage emptyFunction).bytes 256).length ≤ 2 ^ 20) : ∃ (s : State) (a :
    Acting) (c : Context), OnContext s a c ∧ ∃ (n : Nat) (i : Image) (r : List (Nat × Image)), s.ldr.images.entries = (n, i) :: r ∧ i.ctx = ctxNamed a
    ∧ imgHasIr i.bytes = true ∧ s.ldr.images.find? 0 = none ∧ s.ldr.nextHandle ≠ 0 ∧ NoVersions s ∧
    let sec := section_ i.bytes (imgIr i.bytes)
    translationStatus sec 256 = 0 ∧ needsRegion sec 256 = false ∧ none ∈ c.slots ∧ c.slots.length = 16 ∧ (∀ k, s.nextId ≤ k → s.team? k = none) ∧
    let top := (s.ldr.codeTop + (translatedCode i.bytes 256).length + 511) / 512 * 512
    top ≤ 768 * 2 ^ 30 :=
  ⟨(cmdAct .ctxImport [0x20000, 3] .accepted [] (withZir emptyFunction 0 base)), cmdRun .ctxImport [0x20000, 3] .accepted [],
   theCtx (cmdAct .ctxImport [0x20000, 3] .accepted [] (withZir emptyFunction 0 base)) 1, on_context (by decide +kernel), 3, zirImage emptyFunction,
   [], also5 (by constructorm* _ ∧ _ <;> decide +kernel) ⟨by unfold NoVersions; decide +kernel,
   also4 (by constructorm* _ ∧ _ <;> decide +kernel) ⟨no_teams (by decide +kernel), free_top (by decide +kernel) h⟩⟩⟩

theorem witness_ContextsAreMadeServedAndRemoved_6_0 : ∃ (s : State) (a : Acting) (c : Context), OnContext s a c ∧ openLaunches s (ctxNamed a) = [] ∧
    (∀ t ∈ s.teams.vals, t.ctx ≠ ctxNamed a) :=
  ⟨(cmdAct .ctxDestroy [] .accepted [] (launchDone (noTeams base))), cmdRun .ctxDestroy [] .accepted [],
   theCtx (cmdAct .ctxDestroy [] .accepted [] (launchDone (noTeams base))) 1, on_context (by decide +kernel),
   by constructorm* _ ∧ _ <;> decide +kernel⟩

theorem witness_ContextsAreMadeServedAndRemoved_6_1 : ∃ (s : State) (a : Acting) (c : Context), OnContext s a c ∧ ∃ e ∈ s.teams.entries, a.run.state =
    .running ∧ e.2.ctx = ctxNamed a :=
  ⟨(cmdAct .ctxDestroy [] .running [] (base)), cmdRun .ctxDestroy [] .running [], theCtx (cmdAct .ctxDestroy [] .running [] (base)) 1,
   on_context (by decide +kernel), (1, theTeam base 1), by constructorm* _ ∧ _ <;> decide +kernel⟩

theorem witness_ContextsAreMadeServedAndRemoved_6_2 : ∃ (s : State) (a : Acting) (c : Context), OnContext s a c ∧ a.run.state = .accepted :=
  ⟨(cmdAct .ctxDestroy [] .accepted [] (base)), cmdRun .ctxDestroy [] .accepted [], theCtx (cmdAct .ctxDestroy [] .accepted [] (base)) 1,
   on_context (by decide +kernel), by decide +kernel⟩

/-! ## Witnesses: devices, images -/

def devBlock : List Nat := [0x204080000, 0, 0xC00000000, 0, 0x1234, 10, 0, 0]
def partBlock : List Nat := [3 + 5 * 2 ^ 8, 0x30, 0, 0, 0, 0x7000, 0x100 + 0x10 * 2 ^ 16, 0]
def hostBlock : List Nat := [2 + 128 + 64 * 2 ^ 8, 0x1000000, 0x10, 0x2000000, 0, 0, 0, 0]
def peerBlock : List Nat := [2 + 128, 0x1000000, 0x10, 0, 0, 0, 0, 0]
/-- The physical function's block command, and what a block of a function asks. -/
def blockAct (i : Instr) (w block : List Nat) (func : Nat) (s : State) : State := acts (wordsFrom 0x9000 block s) i (aCmd 0 w) func .accepted []
def blockRun (i : Instr) (w : List Nat) (func : Nat) : Acting := acting i (aCmd 0 w) func .accepted []
def noContexts (s : State) : State := s.modLdr fun l => { l with contexts := .empty, funcs := .empty }
def cleared (s : State) : State := noContexts { s with teams := .empty, ldr := { s.ldr with launches := .empty } }
/-- A partition block with a reserved bit is not legal; one is, where no function, launch or team is. -/
theorem not_partition {s : State} {b : List W64} (h : fieldAt b 0 12 52 ≠ 0) : ¬ PartitionLegal s b := fun k => h k.1.1
theorem partition {s : State} {b : List W64}
    (h : s.ldr.funcs.entries = [] ∧ s.ldr.launches.entries = [] ∧ s.teams.entries = [] ∧
      (let f := fieldAt b
       let n := f 0 0 7
       (f 0 12 52 = 0 ∧ f 0 7 1 = 0 ∧ f 0 8 4 ≤ 8 ∧ n ≤ 64 ∧ f 5 52 12 = 0 ∧ f 5 0 12 = 0 ∧ f 6 33 31 = 0 ∧ b.getD 7 0 = 0) ∧
         (∀ c ∈ coresNamed b, c ∉ s.ldr.grade.disabled) ∧ (n = 64 ↔ f 5 12 40 = 0) ∧ f 6 0 16 + f 6 16 17 ≤ 65536)) :
    PartitionLegal s b := by
  obtain ⟨h1, h2, h3, h4, h5, h6, h7⟩ := h
  have no : ∀ {e : Nat × Func}, e ∉ s.ldr.funcs.entries := by
    intro e m
    rw [h1] at m
    cases m
  refine ⟨h4, fun c m => ⟨h5 c m, fun e o => absurd o.1 no⟩, ?_, ?_, h6, h7, fun e o => absurd o.1 no⟩
  · intro l m
    rw [FMap.vals, h2] at m
    cases m
  · intro t m
    rw [FMap.vals, h3] at m
    cases m

theorem witness_DevicesAreConfiguredAndQueried_0_0 : ∃ (s : State) (a : Acting), OnFunction s a ∧ a.run.func = 64 ∧ a.cmd.w1.toNat % 64 ≠ 0 :=
  ⟨blockAct .devConfigDevice [0x9020] devBlock 64 (base), blockRun .devConfigDevice [0x9020] 64, on_function (by decide +kernel),
   by constructorm* _ ∧ _ <;> decide +kernel⟩

theorem witness_DevicesAreConfiguredAndQueried_0_1 : ∃ (s : State) (a : Acting), OnFunction s a ∧ a.run.func = 64 ∧
    let b := blockAt s a.cmd.w1
    a.cmd.w1.toNat % 64 = 0 ∧ (¬ DeviceLegal s b) :=
  ⟨blockAct .devConfigDevice [0x9000] (devBlock.set 5 9) 64 (base), blockRun .devConfigDevice [0x9000] 64, on_function (by decide +kernel),
   by decide +kernel, by decide +kernel, by unfold DeviceLegal NoVersions; decide +kernel⟩

theorem witness_DevicesAreConfiguredAndQueried_0_2 : ∃ (s : State) (a : Acting), OnFunction s a ∧ a.run.func = 64 ∧
    let b := blockAt s a.cmd.w1
    let f := fieldAt b
    a.cmd.w1.toNat % 64 = 0 ∧ DeviceLegal s b ∧ (∀ k, k < 4 → fieldAt s.ldr.device 3 (8 * k + 7) 1 = f 3 (8 * k + 7) 1) :=
  ⟨blockAct .devConfigDevice [0x9000] devBlock 64 (noContexts base), blockRun .devConfigDevice [0x9000] 64, on_function (by decide +kernel),
   by decide +kernel, by decide +kernel, by unfold DeviceLegal NoVersions; decide +kernel, by decide +kernel⟩

theorem witness_DevicesAreConfiguredAndQueried_0_3 : ∃ (s : State) (a : Acting), OnFunction s a ∧ a.run.func = 64 ∧
    let b := blockAt s a.cmd.w1
    a.cmd.w1.toNat % 64 = 0 ∧ (¬ PartitionLegal s b) :=
  ⟨blockAct .devConfigPartition [0x9000] (partBlock.set 0 0x1503) 64 (base), blockRun .devConfigPartition [0x9000] 64,
   on_function (by decide +kernel), by decide +kernel, by decide +kernel, not_partition (by decide +kernel)⟩

theorem witness_DevicesAreConfiguredAndQueried_0_4 : ∃ (s : State) (a : Acting), OnFunction s a ∧ a.run.func = 64 ∧
    let b := blockAt s a.cmd.w1
    a.cmd.w1.toNat % 64 = 0 ∧ PartitionLegal s b :=
  ⟨blockAct .devConfigPartition [0x9000] partBlock 64 (cleared base), blockRun .devConfigPartition [0x9000] 64, on_function (by decide +kernel),
   by decide +kernel, by decide +kernel, partition (by decide +kernel)⟩

theorem witness_DevicesAreConfiguredAndQueried_0_5 : ∃ (s : State) (a : Acting), OnFunction s a ∧ a.run.func = 64 ∧
    let b := blockAt s a.cmd.w1
    a.cmd.w1.toNat % 64 = 0 ∧ (¬ HostWindowLegal s b) :=
  ⟨blockAct .devConfigHostWindow [0x9000] (hostBlock.set 1 0xF00000) 64 (base), blockRun .devConfigHostWindow [0x9000] 64,
   on_function (by decide +kernel), by decide +kernel, by decide +kernel, by unfold HostWindowLegal Meet; decide +kernel⟩

theorem witness_DevicesAreConfiguredAndQueried_0_6 : ∃ (s : State) (a : Acting), OnFunction s a ∧ a.run.func = 64 ∧
    let b := blockAt s a.cmd.w1
    a.cmd.w1.toNat % 64 = 0 ∧ HostWindowLegal s b :=
  ⟨blockAct .devConfigHostWindow [0x9000] hostBlock 64 (base), blockRun .devConfigHostWindow [0x9000] 64, on_function (by decide +kernel),
   by decide +kernel, by decide +kernel, by unfold HostWindowLegal Meet; decide +kernel⟩

theorem witness_DevicesAreConfiguredAndQueried_0_7 : ∃ (s : State) (a : Acting), OnFunction s a ∧ a.run.func = 64 ∧
    let b := blockAt s a.cmd.w1
    a.cmd.w1.toNat % 64 = 0 ∧ (¬ PeerWindowLegal s b) :=
  ⟨blockAct .devConfigPeerWindow [0x9000] (peerBlock.set 2 0) 64 (base), blockRun .devConfigPeerWindow [0x9000] 64, on_function (by decide +kernel),
   by decide +kernel, by decide +kernel, by unfold PeerWindowLegal Meet; decide +kernel⟩

theorem witness_DevicesAreConfiguredAndQueried_0_8 : ∃ (s : State) (a : Acting), OnFunction s a ∧ a.run.func = 64 ∧
    let b := blockAt s a.cmd.w1
    a.cmd.w1.toNat % 64 = 0 ∧ PeerWindowLegal s b :=
  ⟨blockAct .devConfigPeerWindow [0x9000] peerBlock 64 (base), blockRun .devConfigPeerWindow [0x9000] 64, on_function (by decide +kernel),
   by decide +kernel, by decide +kernel, by unfold PeerWindowLegal Meet; decide +kernel⟩

theorem witness_DevicesAreConfiguredAndQueried_1_0 : ∃ (s : State) (a : Acting), OnFunction s a ∧ NoVersions s ∧ a.cmd.w3 ≠ 0 :=
  ⟨blockAct .queryDeviceMap [0, 0x20000, 65] [] 64 (base), blockRun .queryDeviceMap [0, 0x20000, 65] 64, on_function (by decide +kernel),
   by unfold NoVersions; decide +kernel, by decide +kernel⟩

theorem witness_DevicesAreConfiguredAndQueried_1_1 : ∃ (s : State) (a : Acting), OnFunction s a ∧ NoVersions s ∧ a.cmd.w2.toNat % 64 ≠ 0 :=
  ⟨blockAct .queryEvsel [0, 0x20001, 0] [] 64 (base), blockRun .queryEvsel [0, 0x20001, 0] 64, on_function (by decide +kernel),
   by unfold NoVersions; decide +kernel, by decide +kernel⟩

theorem witness_DevicesAreConfiguredAndQueried_1_2 : ∃ (s : State) (a : Acting), OnFunction s a ∧ NoVersions s ∧
    let f := a.run.func
    a.cmd.w2.toNat % 64 = 0 ∧ a.cmd.w3 = 0 ∧ (s.func f).evsel.length = 8 :=
  ⟨blockAct .queryEvsel [0, 0x20000, 0] [] 3 (base), blockRun .queryEvsel [0, 0x20000, 0] 3, on_function (by decide +kernel),
   by unfold NoVersions; decide +kernel, by constructorm* _ ∧ _ <;> decide +kernel⟩

theorem witness_DevicesAreConfiguredAndQueried_1_3 : ∃ (s : State) (a : Acting), OnFunction s a ∧ NoVersions s ∧
    let f := a.run.func
    ∃ n, a.cmd.w2.toNat % 64 = 0 ∧ n = (if f = 64 then a.cmd.w3.toNat else f) ∧ f ≤ 64 ∧ n ≤ 64 ∧ (f ≠ 64 → a.cmd.w3 = 0 ∨ a.cmd.w3.toNat = f) :=
  ⟨blockAct .queryPartition [0, 0x20000, 64] [] 64 (base), blockRun .queryPartition [0, 0x20000, 64] 64, on_function (by decide +kernel),
   by unfold NoVersions; decide +kernel, 64, by constructorm* _ ∧ _ <;> decide +kernel⟩

def askState (func w2 w3 : Nat) : State := acts (withCtx2 base) .queryConfig (aCmd 2 [0, w2, w3]) func .accepted []
def askRun (func w2 w3 : Nat) : Acting := acting .queryConfig (aCmd 2 [0, w2, w3]) func .accepted []

theorem witness_DevicesAreConfiguredAndQueried_2_0 : ∃ (s : State) (a : Acting) (c : Context), OnCommand s a ∧ s.context? (ctxNamed a) = some c ∧
    (a.run.func = 64 ∨ a.run.func = c.func) ∧ (a.cmd.w3 ≠ 0 ∨ a.cmd.w2.toNat % 64 ≠ 0) :=
  ⟨askState 64 0x20020 0, askRun 64 0x20020 0, theCtx (withCtx2 base) 2, on_command (by decide +kernel), by constructorm* _ ∧ _ <;> decide +kernel⟩

theorem witness_DevicesAreConfiguredAndQueried_2_1 : ∃ (s : State) (a : Acting) (c : Context), OnCommand s a ∧ s.context? (ctxNamed a) = some c ∧
    (a.run.func = 64 ∨ a.run.func = c.func) ∧ a.cmd.w3 = 0 ∧ a.cmd.w2.toNat % 64 = 0 ∧ NoVersions s :=
  ⟨askState 3 0x20040 0, askRun 3 0x20040 0, theCtx (withCtx2 base) 2, on_command (by decide +kernel),
   also4 (by constructorm* _ ∧ _ <;> decide +kernel) (by unfold NoVersions; decide +kernel)⟩

theorem witness_DevicesAreConfiguredAndQueried_3_0 : ∃ (s : State) (a : Acting), OnFunction s a ∧
    let b := blockAt s a.cmd.w1
    let bad := 2 ≤ a.cmd.w2.toNat ∨ ∃ k, k < 8 ∧ (fieldAt b k 16 48 ≠ 0 ∨ fieldAt b k 8 6 ≠ 0)
    bad :=
  ⟨blockAct .pmcSet [0x9000, 0] [0, 0, 0, 0, 0, 0, 0, 0x100] 64 (base), blockRun .pmcSet [0x9000, 0] 64, on_function (by decide +kernel),
   by decide +kernel⟩

theorem witness_DevicesAreConfiguredAndQueried_3_1 : ∃ (s : State) (a : Acting), OnFunction s a ∧
    let b := blockAt s a.cmd.w1
    let bad := 2 ≤ a.cmd.w2.toNat ∨ ∃ k, k < 8 ∧ (fieldAt b k 16 48 ≠ 0 ∨ fieldAt b k 8 6 ≠ 0)
    (¬ bad) :=
  ⟨blockAct .pmcSet [0x9000, 1] [0xC0FF, 0, 0, 0, 0, 0, 0, 2] 64 (base), blockRun .pmcSet [0x9000, 1] 64, on_function (by decide +kernel),
   by decide +kernel⟩

end Sys2Proof.Tests
end

