-- ==== Sys2Proof/Tests/Witness4.lean ====
section
/-! SUPPORT. Witnesses: states and operands that meet the hypotheses of each statement together (images, launches, pages, debuggers, teams, the supervisor and the whole machine). -/

namespace Sys2Proof.Tests
open Sys2Proof Sys2Proof.Machine

set_option Elab.async false
set_option linter.unusedVariables false

/-! ## Witnesses: images, launches -/

def zenHead : List Nat := [0x5A4C584901000000, 0, 0, 0, 0, 0, 0, 0]
def withImages (l : List (Nat × Image)) (s : State) : State :=
  s.modLdr fun d => { d with images := foldOver (fun (m : FMap Image) (e : Nat × Image) => m.insert e.1 e.2) d.images l }
def withDigest (s : State) : State := s.modLdr fun l => { l with fwDigest := List.replicate 64 3 }

theorem witness_ImagesLoadLeaveAndAttest_0_0 : ∃ (s : State) (a : Acting) (c : Context), OnContext s a c ∧ a.cmd.w2.toNat < 178 :=
  ⟨(cmdAct .loadImage [0x9000, 177] .accepted [] (base)), cmdRun .loadImage [0x9000, 177] .accepted [],
   theCtx (cmdAct .loadImage [0x9000, 177] .accepted [] (base)) 1, on_context (by decide +kernel), by decide +kernel⟩

theorem witness_ImagesLoadLeaveAndAttest_0_1 : ∃ (s : State) (a : Acting) (c : Context), OnContext s a c ∧
    let img := s.mem.read a.cmd.w1.toNat a.cmd.w2.toNat
    let w := fun k => (wordIn img (8 * k)).toNat
    let signed := (s.ldr.keys.getD (w 0 % 16) none).any fun k => Config.ed448Verify k (asciiBytes "Parnex Zenlux image") (Config.shake256 (img.take
      (img.length - 114))) (img.drop (img.length - 114))
    178 ≤ a.cmd.w2.toNat ∧ (w 0 / 2 ^ 32 ≠ 0x5A4C5849 ∨ w 0 / 2 ^ 24 % 2 ^ 8 ≠ 1 ∨ signed = false) :=
  ⟨(cmdAct .loadImage [0x9000, 178] .accepted [] (base)), cmdRun .loadImage [0x9000, 178] .accepted [],
   theCtx (cmdAct .loadImage [0x9000, 178] .accepted [] (base)) 1, on_context (by decide +kernel), by decide +kernel, .inl (by decide +kernel)⟩

theorem witness_ImagesLoadLeaveAndAttest_0_2 : ∃ (s : State) (a : Acting) (c : Context), OnContext s a c ∧
    let img := s.mem.read a.cmd.w1.toNat a.cmd.w2.toNat
    let w := fun k => (wordIn img (8 * k)).toNat
    let code := w 1 % 2 ^ 32
    178 ≤ a.cmd.w2.toNat ∧ w 0 / 2 ^ 24 = 0x5A4C584901 ∧ w 0 / 2 ^ 12 % 2 ^ 4 = 0 ∧ w 0 / 2 ^ 10 % 2 = 0 ∧ w 0 / 2 ^ 4 % 2 ^ 4 = 0 ∧ w 0 / 2 ^ 16 % 2
      ^ 8 ≤ 1 ∧ code % 32 = 0 ∧ code < 2 ^ 28 ∧ 178 + code + w 1 / 2 ^ 32 ≤ a.cmd.w2.toNat ∧ w 3 / 2 ^ 32 = 0 ∧ w 4 / 2 ^ 32 = 0 ∧ w 5 / 2 ^ 32 = 0 ∧
      w 6 = 0 ∧ w 7 = 0 ∧ none ∈ c.slots ∧ c.slots.length = 16 ∧ s.ldr.nextHandle ≠ 0 ∧ s.ldr.codeTop + code + 511 ≤ 768 * 2 ^ 30 ∧ NoVersions s :=
  ⟨(cmdAct .loadImage [0x9000, 178] .accepted [] (wordsFrom 0x9000 zenHead base)), cmdRun .loadImage [0x9000, 178] .accepted [],
   theCtx (cmdAct .loadImage [0x9000, 178] .accepted [] (wordsFrom 0x9000 zenHead base)) 1, on_context (by decide +kernel),
   also6 (by constructorm* _ ∧ _ <;> decide +kernel) (also6 (by constructorm* _ ∧ _ <;> decide +kernel) (also6 (by constructorm* _ ∧ _ <;> decide +kernel) (by unfold NoVersions; decide +kernel)))⟩

theorem witness_ImagesLoadLeaveAndAttest_1_0 : ∃ (s : State) (a : Acting) (c : Context), OnContext s a c ∧
    let h := a.cmd.w1.toNat
    (∀ i, s.ldr.images.find? h = some i → i.ctx ≠ ctxNamed a) :=
  ⟨(cmdAct .unloadImage [2] .accepted [] (base)), cmdRun .unloadImage [2] .accepted [], theCtx (cmdAct .unloadImage [2] .accepted [] (base)) 1,
   on_context (by decide +kernel), of_none (by decide +kernel)⟩

theorem witness_ImagesLoadLeaveAndAttest_1_1 : ∃ (s : State) (a : Acting) (c : Context), OnContext s a c ∧
    let h := a.cmd.w1.toNat
    ∃ i, s.ldr.images.find? h = some i ∧ i.ctx = ctxNamed a ∧ slotInUse s h i = true :=
  ⟨(cmdAct .unloadImage [1] .accepted [] (base)), cmdRun .unloadImage [1] .accepted [], theCtx (cmdAct .unloadImage [1] .accepted [] (base)) 1,
   on_context (by decide +kernel), wordImage, by constructorm* _ ∧ _ <;> decide +kernel⟩

theorem witness_ImagesLoadLeaveAndAttest_1_2 : ∃ (s : State) (a : Acting) (c : Context), OnContext s a c ∧
    let h := a.cmd.w1.toNat
    ∃ i, s.ldr.images.find? h = some i ∧ i.ctx = ctxNamed a ∧ slotInUse s h i = false :=
  ⟨(cmdAct .unloadImage [1] .accepted [] (launchDone { base with teams := .empty })), cmdRun .unloadImage [1] .accepted [],
   theCtx (cmdAct .unloadImage [1] .accepted [] (launchDone { base with teams := .empty })) 1, on_context (by decide +kernel), wordImage,
   by constructorm* _ ∧ _ <;> decide +kernel⟩

theorem witness_ImagesLoadLeaveAndAttest_2_0 : ∃ (s : State) (a : Acting) (c : Context), OnContext s a c ∧
    let names := fun (v : W64) (i : Image) => s.ldr.images.find? v.toNat = some i ∧ i.ctx = ctxNamed a
    ((∀ i, ¬ names a.cmd.w1 i) ∨ (∀ i, ¬ names a.cmd.w2 i) ∨ a.cmd.w1 = a.cmd.w2) :=
  ⟨(cmdAct .reinstall [1, 1] .accepted [] (base)), cmdRun .reinstall [1, 1] .accepted [], theCtx (cmdAct .reinstall [1, 1] .accepted [] (base)) 1,
   on_context (by decide +kernel), .inr (.inr (by decide +kernel))⟩

theorem witness_ImagesLoadLeaveAndAttest_2_1 : ∃ (s : State) (a : Acting) (c : Context), OnContext s a c ∧
    let names := fun (v : W64) (i : Image) => s.ldr.images.find? v.toNat = some i ∧ i.ctx = ctxNamed a
    ∃ i k, names a.cmd.w1 i ∧ names a.cmd.w2 k ∧ a.cmd.w1 ≠ a.cmd.w2 :=
  ⟨(cmdAct .reinstall [1, 2] .accepted [] (withImages [(2, wordImage)] base)), cmdRun .reinstall [1, 2] .accepted [],
   theCtx (cmdAct .reinstall [1, 2] .accepted [] (withImages [(2, wordImage)] base)) 1, on_context (by decide +kernel), wordImage, wordImage,
   by constructorm* _ ∧ _ <;> decide +kernel⟩

theorem witness_ImagesLoadLeaveAndAttest_3_0 : ∃ (s : State) (a : Acting), OnCommand s a ∧ (a.cmd.ctx = 0 ∨ Owns s a) ∧ NoVersions s ∧ a.cmd.w3 ≠ 0 ∧
    s.ldr.images.find? a.cmd.w3.toNat = none :=
  ⟨acts (base) .attest (aCmd 0 [0x9000, 0x20000, 2]) 64 .accepted [], acting .attest (aCmd 0 [0x9000, 0x20000, 2]) 64 .accepted [],
   on_command (by decide +kernel), .inl (by decide +kernel), by unfold NoVersions; decide +kernel, by constructorm* _ ∧ _ <;> decide +kernel⟩

theorem witness_ImagesLoadLeaveAndAttest_3_1 : ∃ (s : State) (a : Acting), OnCommand s a ∧ (a.cmd.ctx = 0 ∨ Owns s a) ∧ NoVersions s ∧ ∃ digest : List
    Byte, digest.length = 64 ∧ (a.cmd.w3 = 0 ∧ digest = List.replicate 64 0 ∨ a.cmd.w3 ≠ 0 ∧ ∃ i c, s.ldr.images.find? a.cmd.w3.toNat = some i ∧
    s.context? i.ctx = some c ∧ c.func = a.run.func ∧ i.digest = digest) ∧ s.ldr.fwDigest.length = 64 :=
  ⟨acts (withDigest base) .attest (aCmd 0 [0x9000, 0x20000, 0]) 64 .accepted [], acting .attest (aCmd 0 [0x9000, 0x20000, 0]) 64 .accepted [],
   on_command (by decide +kernel), .inl (by decide +kernel), by unfold NoVersions; decide +kernel, List.replicate 64 0, by decide +kernel,
   .inl (by decide +kernel), by decide +kernel⟩

/-- A legal record: image 1, two levels of 3 and 4 teams, one role of one warp. -/
def launchRecord : List Nat :=
  [1, 2 ^ 48 + 2 ^ 40 * Config.steppingId + 3 * 2 ^ 28 + 2 ^ 21 + 2 ^ 19 + 2 ^ 22, 0x1000, 0x2000, 2 + 2 ^ 4 + 2 * 2 ^ 8, 3 + 4 * 2 ^ 32, 0,
    1 + 8 * 2 ^ 5, 0, 0, 0]
def withRecord (r : List Nat) (mxp : Bool) (s : State) : State :=
  (wordsFrom 0x9000 r (s.modLdr fun l => { l with grade := { l.grade with mxp := mxp } })).modFunc 64 fun f => { f with cores := [3] }

theorem witness_LaunchesAreAcceptedAndKilled_0_0 : ∃ (s : State) (a : Acting) (c : Context), OnContext s a c ∧ a.run.state = .accepted ∧
    a.cmd.w1.toNat % 256 ≠ 0 :=
  ⟨(cmdAct .launch [0x9080] .accepted [] (base)), cmdRun .launch [0x9080] .accepted [], theCtx (cmdAct .launch [0x9080] .accepted [] (base)) 1,
   on_context (by decide +kernel), by constructorm* _ ∧ _ <;> decide +kernel⟩

theorem witness_LaunchesAreAcceptedAndKilled_0_1 : ∃ (s : State) (a : Acting) (c : Context), OnContext s a c ∧ a.run.state = .accepted ∧
    let r := (List.range 32).map fun k => s.mem.word (a.cmd.w1.toNat + 8 * k)
    let f := fieldAt r
    let h := f 0 0 64
    a.cmd.w1.toNat % 256 = 0 ∧ (∀ i, s.ldr.images.find? h = some i → i.ctx ≠ ctxNamed a) :=
  ⟨(cmdAct .launch [0x9000] .accepted [] (base)), cmdRun .launch [0x9000] .accepted [], theCtx (cmdAct .launch [0x9000] .accepted [] (base)) 1,
   on_context (by decide +kernel), by decide +kernel, by decide +kernel, of_none (by decide +kernel)⟩

theorem witness_LaunchesAreAcceptedAndKilled_0_2 : ∃ (s : State) (a : Acting) (c : Context), OnContext s a c ∧ a.run.state = .accepted ∧
    let r := (List.range 32).map fun k => s.mem.word (a.cmd.w1.toNat + 8 * k)
    let f := fieldAt r
    let h := f 0 0 64
    a.cmd.w1.toNat % 256 = 0 ∧ ∃ i, s.ldr.images.find? h = some i ∧ i.ctx = ctxNamed a ∧ i.replaced = none ∧ i.unloading = false ∧
    let exts := (List.range (f 4 0 3)).map fun k => f (5 + k / 2) (32 * (k % 2)) 32
    let reserved := f 1 35 5 ≠ 0 ∨ f 1 24 4 ≠ 0 ∨ f 1 0 19 ≠ 0 ∨ f 2 57 7 ≠ 0 ∨ f 3 57 7 ≠ 0 ∨ f 4 16 48 ≠ 0 ∨ f 4 6 2 ≠ 0 ∨ f 4 3 1 ≠ 0 ∨ (∃ k, k < 4
      ∧ f 7 (16 * k + 11) 5 ≠ 0) ∨ f 10 3 61 ≠ 0
    let nest := f 4 0 3 = 0 ∨ 4 < f 4 0 3 ∨ (∃ k, k < 4 ∧ (k < f 4 0 3 ↔ f (5 + k / 2) (32 * (k % 2)) 32 = 0)) ∨ 2 ^ 32 < exts.foldl (· * ·) 1
    let shapes := f 7 0 5 = 0 ∨ ∃ k, k < 4 ∧ (f 7 (16 * k) 5 ≠ 0 ∧ (f 7 (16 * k + 5) 6 = 0 ∨ (0 < k ∧ f 7 (16 * k - 16) 5 = 0) ∨ f (8 + k / 2) (32 *
      (k % 2)) 32 % 32 ≠ 0 ∨ (if i.ir then 32 * i.nf else i.len) ≤ f (8 + k / 2) (32 * (k % 2)) 32) ∨ f 7 (16 * k) 5 = 0 ∧ (f 7 (16 * k + 5) 6 ≠ 0 ∨ f
      (8 + k / 2) (32 * (k % 2)) 32 ≠ 0))
    let bad := f 1 48 16 ≠ i.ctx ∨ f 1 40 8 ≠ i.step ∨ 9 ≤ f 1 28 4 ∨ reserved ∨ nest ∨ shapes
    bad :=
  ⟨(cmdAct .launch [0x9000] .accepted [] (withRecord (launchRecord.set 4 5) true base)), cmdRun .launch [0x9000] .accepted [],
   theCtx (cmdAct .launch [0x9000] .accepted [] (withRecord (launchRecord.set 4 5) true base)) 1, on_context (by decide +kernel), by decide +kernel,
   by decide +kernel, wordImage, by constructorm* _ ∧ _ <;> decide +kernel⟩

theorem witness_LaunchesAreAcceptedAndKilled_0_3 : ∃ (s : State) (a : Acting) (c : Context), OnContext s a c ∧ a.run.state = .accepted ∧
    let r := (List.range 32).map fun k => s.mem.word (a.cmd.w1.toNat + 8 * k)
    let f := fieldAt r
    let h := f 0 0 64
    a.cmd.w1.toNat % 256 = 0 ∧ ∃ i, s.ldr.images.find? h = some i ∧ i.ctx = ctxNamed a ∧ i.replaced = none ∧ i.unloading = false ∧
    let roles := [0, 1, 2, 3].filter fun k => decide (f 7 (16 * k) 5 ≠ 0)
    let exts := (List.range (f 4 0 3)).map fun k => f (5 + k / 2) (32 * (k % 2)) 32
    let ts := f 4 8 8
    let reserved := f 1 35 5 ≠ 0 ∨ f 1 24 4 ≠ 0 ∨ f 1 0 19 ≠ 0 ∨ f 2 57 7 ≠ 0 ∨ f 3 57 7 ≠ 0 ∨ f 4 16 48 ≠ 0 ∨ f 4 6 2 ≠ 0 ∨ f 4 3 1 ≠ 0 ∨ (∃ k, k < 4
      ∧ f 7 (16 * k + 11) 5 ≠ 0) ∨ f 10 3 61 ≠ 0
    let nest := f 4 0 3 = 0 ∨ 4 < f 4 0 3 ∨ (∃ k, k < 4 ∧ (k < f 4 0 3 ↔ f (5 + k / 2) (32 * (k % 2)) 32 = 0)) ∨ 2 ^ 32 < exts.foldl (· * ·) 1
    let shapes := f 7 0 5 = 0 ∨ ∃ k, k < 4 ∧ (f 7 (16 * k) 5 ≠ 0 ∧ (f 7 (16 * k + 5) 6 = 0 ∨ (0 < k ∧ f 7 (16 * k - 16) 5 = 0) ∨ f (8 + k / 2) (32 *
      (k % 2)) 32 % 32 ≠ 0 ∨ (if i.ir then 32 * i.nf else i.len) ≤ f (8 + k / 2) (32 * (k % 2)) 32) ∨ f 7 (16 * k) 5 = 0 ∧ (f 7 (16 * k + 5) 6 ≠ 0 ∨ f
      (8 + k / 2) (32 * (k % 2)) 32 ≠ 0))
    let bad := f 1 48 16 ≠ i.ctx ∨ f 1 40 8 ≠ i.step ∨ 9 ≤ f 1 28 4 ∨ reserved ∨ nest ∨ shapes
    let large := 16 < (roles.map fun k => f 7 (16 * k) 5).foldl (· + ·) 0 ∨ (∃ k, k < 4 ∧ 32 < f 7 (16 * k + 5) 6) ∨ 128 < ts ∨ (f 1 21 1 = 1 ∧
      s.ldr.grade.mxp = false) ∨ (s.func c.func).cores = []
    let edgeless := f 10 0 3 = 0 ∧ ∀ k, 11 ≤ k → k < 32 → r.getD k 0 = 0
    (¬ bad) ∧ edgeless ∧ large ∧ (f 1 23 1 = 0 ∨ i.ir = false) :=
  ⟨(cmdAct .launch [0x9000] .accepted [] (withRecord launchRecord false base)), cmdRun .launch [0x9000] .accepted [],
   theCtx (cmdAct .launch [0x9000] .accepted [] (withRecord launchRecord false base)) 1, on_context (by decide +kernel), by decide +kernel,
   by decide +kernel, wordImage, by constructorm* _ ∧ _ <;> decide +kernel⟩

theorem witness_LaunchesAreAcceptedAndKilled_0_4 : ∃ (s : State) (a : Acting) (c : Context), OnContext s a c ∧ a.run.state = .accepted ∧
    let r := (List.range 32).map fun k => s.mem.word (a.cmd.w1.toNat + 8 * k)
    let f := fieldAt r
    let h := f 0 0 64
    a.cmd.w1.toNat % 256 = 0 ∧ ∃ i, s.ldr.images.find? h = some i ∧ i.ctx = ctxNamed a ∧ i.replaced = none ∧ i.unloading = false ∧
    let roles := [0, 1, 2, 3].filter fun k => decide (f 7 (16 * k) 5 ≠ 0)
    let exts := (List.range (f 4 0 3)).map fun k => f (5 + k / 2) (32 * (k % 2)) 32
    let ts := f 4 8 8
    let reserved := f 1 35 5 ≠ 0 ∨ f 1 24 4 ≠ 0 ∨ f 1 0 19 ≠ 0 ∨ f 2 57 7 ≠ 0 ∨ f 3 57 7 ≠ 0 ∨ f 4 16 48 ≠ 0 ∨ f 4 6 2 ≠ 0 ∨ f 4 3 1 ≠ 0 ∨ (∃ k, k < 4
      ∧ f 7 (16 * k + 11) 5 ≠ 0) ∨ f 10 3 61 ≠ 0
    let nest := f 4 0 3 = 0 ∨ 4 < f 4 0 3 ∨ (∃ k, k < 4 ∧ (k < f 4 0 3 ↔ f (5 + k / 2) (32 * (k % 2)) 32 = 0)) ∨ 2 ^ 32 < exts.foldl (· * ·) 1
    let shapes := f 7 0 5 = 0 ∨ ∃ k, k < 4 ∧ (f 7 (16 * k) 5 ≠ 0 ∧ (f 7 (16 * k + 5) 6 = 0 ∨ (0 < k ∧ f 7 (16 * k - 16) 5 = 0) ∨ f (8 + k / 2) (32 *
      (k % 2)) 32 % 32 ≠ 0 ∨ (if i.ir then 32 * i.nf else i.len) ≤ f (8 + k / 2) (32 * (k % 2)) 32) ∨ f 7 (16 * k) 5 = 0 ∧ (f 7 (16 * k + 5) 6 ≠ 0 ∨ f
      (8 + k / 2) (32 * (k % 2)) 32 ≠ 0))
    let bad := f 1 48 16 ≠ i.ctx ∨ f 1 40 8 ≠ i.step ∨ 9 ≤ f 1 28 4 ∨ reserved ∨ nest ∨ shapes
    let large := 16 < (roles.map fun k => f 7 (16 * k) 5).foldl (· + ·) 0 ∨ (∃ k, k < 4 ∧ 32 < f 7 (16 * k + 5) 6) ∨ 128 < ts ∨ (f 1 21 1 = 1 ∧
      s.ldr.grade.mxp = false) ∨ (s.func c.func).cores = []
    let edgeless := f 10 0 3 = 0 ∧ ∀ k, 11 ≤ k → k < 32 → r.getD k 0 = 0
    (¬ bad) ∧ edgeless ∧ (¬ large) :=
  ⟨(cmdAct .launch [0x9000] .accepted [] (withRecord launchRecord true base)), cmdRun .launch [0x9000] .accepted [],
   theCtx (cmdAct .launch [0x9000] .accepted [] (withRecord launchRecord true base)) 1, on_context (by decide +kernel), by decide +kernel,
   by decide +kernel, wordImage, by constructorm* _ ∧ _ <;> decide +kernel⟩

theorem witness_LaunchesAreAcceptedAndKilled_1 : ∃ (s : State) (a : Acting) (c : Context), OnContext s a c ∧ a.run.state = .running :=
  ⟨(cmdAct .launch [0x9000] .running [] (base)), cmdRun .launch [0x9000] .running [], theCtx (cmdAct .launch [0x9000] .running [] (base)) 1,
   on_context (by decide +kernel), by decide +kernel⟩

/-- Journal entry 1, of a command with a code, of a function, in a state. -/
def otherRun (code func : Nat) (st : CmdState) : CmdRun :=
  { queue := 3, func := func, entry := encodeCommand code (aCmd 1 []), state := st, cur0 := 4, cur1 := 5, clkIn := 1, clkOut := 0, info := [8] }
def killState (r : CmdRun) (st : LaunchState) (killed : Option Nat) : State :=
  acts (base.modLdr fun l => { l with journal := l.journal.insert 1 r, launches := l.launches.modify 1 fun x => { x with state := st, killed := killed } })
    .kill (aCmd 0 [1]) 64 .accepted []
def killRun : Acting := acting .kill (aCmd 0 [1]) 64 .accepted []
def aLaunch (st : LaunchState) (killed : Option Nat) : Launch := { wordLaunch with state := st, killed := killed }

theorem witness_LaunchesAreAcceptedAndKilled_2_0 : ∃ (s : State) (a : Acting), OnCommand s a ∧ (a.cmd.ctx = 0 ∨ Owns s a) ∧
    let j := a.cmd.w1.toNat
    s.ldr.journal.find? j = none :=
  ⟨acts base .kill (aCmd 0 [9]) 64 .accepted [], acting .kill (aCmd 0 [9]) 64 .accepted [], on_command (by decide +kernel), .inl (by decide +kernel),
   by decide +kernel⟩

theorem witness_LaunchesAreAcceptedAndKilled_2_1 : ∃ (s : State) (a : Acting), OnCommand s a ∧ (a.cmd.ctx = 0 ∨ Owns s a) ∧
    let j := a.cmd.w1.toNat
    ∃ k, s.ldr.journal.find? j = some k ∧ j ≠ a.j ∧ k.entry.getD 7 0 ≠ 3 :=
  ⟨killState (otherRun 4 64 .running) .running none, killRun, on_command (by decide +kernel), .inl (by decide +kernel), otherRun 4 64 .running,
   by constructorm* _ ∧ _ <;> decide +kernel⟩

theorem witness_LaunchesAreAcceptedAndKilled_2_2 : ∃ (s : State) (a : Acting), OnCommand s a ∧ (a.cmd.ctx = 0 ∨ Owns s a) ∧
    let j := a.cmd.w1.toNat
    ∃ k, s.ldr.journal.find? j = some k ∧ j ≠ a.j ∧ k.entry.getD 7 0 = 3 ∧ k.func ≠ a.run.func :=
  ⟨killState (otherRun 3 3 .running) .running none, killRun, on_command (by decide +kernel), .inl (by decide +kernel), otherRun 3 3 .running,
   by constructorm* _ ∧ _ <;> decide +kernel⟩

theorem witness_LaunchesAreAcceptedAndKilled_2_3 : ∃ (s : State) (a : Acting), OnCommand s a ∧ (a.cmd.ctx = 0 ∨ Owns s a) ∧
    let j := a.cmd.w1.toNat
    ∃ k, s.ldr.journal.find? j = some k ∧ j ≠ a.j ∧ k.entry.getD 7 0 = 3 ∧ k.func = a.run.func ∧ k.state = .accepted :=
  ⟨killState (otherRun 3 64 .accepted) .running none, killRun, on_command (by decide +kernel), .inl (by decide +kernel), otherRun 3 64 .accepted,
   by constructorm* _ ∧ _ <;> decide +kernel⟩

theorem witness_LaunchesAreAcceptedAndKilled_2_4 : ∃ (s : State) (a : Acting), OnCommand s a ∧ (a.cmd.ctx = 0 ∨ Owns s a) ∧
    let j := a.cmd.w1.toNat
    ∃ k, s.ldr.journal.find? j = some k ∧ j ≠ a.j ∧ k.entry.getD 7 0 = 3 ∧ k.func = a.run.func ∧ ∃ l, k.state ≠ .accepted ∧ s.ldr.launches.find? j =
      some l ∧ (∃ st, l.state = .ended st) :=
  ⟨killState (otherRun 3 64 (.done 0)) (.ended 0) none, killRun, on_command (by decide +kernel), .inl (by decide +kernel), otherRun 3 64 (.done 0),
   also4 (by constructorm* _ ∧ _ <;> decide +kernel) ⟨aLaunch (.ended 0) none, by decide +kernel, by decide +kernel, ⟨0, by decide +kernel⟩⟩⟩

theorem witness_LaunchesAreAcceptedAndKilled_2_5 : ∃ (s : State) (a : Acting), OnCommand s a ∧ (a.cmd.ctx = 0 ∨ Owns s a) ∧
    let j := a.cmd.w1.toNat
    ∃ k, s.ldr.journal.find? j = some k ∧ j ≠ a.j ∧ k.entry.getD 7 0 = 3 ∧ k.func = a.run.func ∧ ∃ l, k.state ≠ .accepted ∧ s.ldr.launches.find? j =
      some l ∧ (l.state = .running ∨ l.state = .waiting) ∧ l.killed ≠ none :=
  ⟨killState (otherRun 3 64 .running) .running (some 3), killRun, on_command (by decide +kernel), .inl (by decide +kernel), otherRun 3 64 .running,
   also4 (by constructorm* _ ∧ _ <;> decide +kernel) ⟨aLaunch .running (some 3), by constructorm* _ ∧ _ <;> decide +kernel⟩⟩

theorem witness_LaunchesAreAcceptedAndKilled_2_6 : ∃ (s : State) (a : Acting), OnCommand s a ∧ (a.cmd.ctx = 0 ∨ Owns s a) ∧
    let j := a.cmd.w1.toNat
    ∃ k, s.ldr.journal.find? j = some k ∧ j ≠ a.j ∧ k.entry.getD 7 0 = 3 ∧ k.func = a.run.func ∧ ∃ l, k.state ≠ .accepted ∧ s.ldr.launches.find? j =
      some l ∧ (l.state = .running ∨ l.state = .waiting) ∧ l.killed = none ∧ s.teams.wf = true ∧ (∀ c, s.context? l.ctx = some c → c.traps = []) :=
  ⟨killState (otherRun 3 64 .running) .waiting none, killRun, on_command (by decide +kernel), .inl (by decide +kernel), otherRun 3 64 .running,
   also4 (by constructorm* _ ∧ _ <;> decide +kernel) ⟨aLaunch .waiting none,
   also5 (by constructorm* _ ∧ _ <;> decide +kernel) (of_some (v := theCtx base 1) (by decide +kernel) (by decide +kernel))⟩⟩

/-! ## Witnesses: pages, debuggers -/

/-- Page 5 stands in frame 9, whose line 72 may be pinned. -/
def page5 (leaf : Nat) (s : State) : State := withPages [(5, leaf)] s
def pinned (s : State) : State := s.modTeam 1 fun t => { t with pins := FMap.empty.insert 72 { count := 1, pages := [(5, placeAt 0x9000)] } }
def leaf5 (leaf : Nat) : Leaf := { level := 0, entry := leaf }

theorem witness_PagesAreInvalidatedMovedAndOpened_0_0 : ∃ (s : State) (a : Acting) (c : Context), OnContext s a c ∧ a.run.info = [] ∧ 2 ≤
    a.cmd.w3.toNat :=
  ⟨(cmdAct .inval [0x5000, 0x1000, 2] .accepted [] (page5 (leafOf 9) base)), cmdRun .inval [0x5000, 0x1000, 2] .accepted [],
   theCtx (cmdAct .inval [0x5000, 0x1000, 2] .accepted [] (page5 (leafOf 9) base)) 1, on_context (by decide +kernel),
   by constructorm* _ ∧ _ <;> decide +kernel⟩

theorem witness_PagesAreInvalidatedMovedAndOpened_0_1 : ∃ (s : State) (a : Acting) (c : Context), OnContext s a c ∧ a.run.info = [] ∧
    let lo := a.cmd.w1.toNat
    let n := a.cmd.w2.toNat
    let frames := rangeFrames s (ctxNamed a) lo n
    let shut := frames.filter fun f => !(tableFrames false s (ctxNamed a) lo n).contains f
    a.cmd.w3.toNat < 2 ∧ (framesPinned s (ctxNamed a) lo n frames = true ∨ (a.cmd.w3 = 0 ∧ ∃ f ∈ shut, frameUsed s f = true)) :=
  ⟨(cmdAct .inval [0x5FFF, 1, 1] .accepted [] (pinned (page5 (leafOf 9) base))), cmdRun .inval [0x5FFF, 1, 1] .accepted [],
   theCtx (cmdAct .inval [0x5FFF, 1, 1] .accepted [] (pinned (page5 (leafOf 9) base))) 1, on_context (by decide +kernel),
   by constructorm* _ ∧ _ <;> decide +kernel⟩

theorem witness_PagesAreInvalidatedMovedAndOpened_0_2 : ∃ (s : State) (a : Acting) (c : Context), OnContext s a c ∧ a.run.info = [] ∧
    let lo := a.cmd.w1.toNat
    let n := a.cmd.w2.toNat
    let frames := rangeFrames s (ctxNamed a) lo n
    let shut := frames.filter fun f => !(tableFrames false s (ctxNamed a) lo n).contains f
    a.cmd.w3.toNat < 2 ∧ framesPinned s (ctxNamed a) lo n frames = false ∧ (a.cmd.w3 = 0 → ∀ f ∈ shut, frameUsed s f = false) ∧
      s.mem.quarantine.length + frames.length ≤ 16384 ∧ s.mem.quarantine.length < 16384 :=
  ⟨(cmdAct .inval [0x5000, 1, 1] .accepted [] (page5 (leafOf 9) base)), cmdRun .inval [0x5000, 1, 1] .accepted [],
   theCtx (cmdAct .inval [0x5000, 1, 1] .accepted [] (page5 (leafOf 9) base)) 1, on_context (by decide +kernel),
   by constructorm* _ ∧ _ <;> decide +kernel⟩

def replyState (f w2 func : Nat) (reqs : FMap PageReq) : State :=
  acts (base.modFunc f fun x => { x with reqs := reqs }) .pageReply (aCmd 0 [7 + f * 2 ^ 16, w2]) func .accepted []
def replyRun (f w2 func : Nat) : Acting := acting .pageReply (aCmd 0 [7 + f * 2 ^ 16, w2]) func .accepted []
def oneReq : PageReq := { ctx := 1, page := 5, clk := 1 }

theorem witness_PagesAreInvalidatedMovedAndOpened_1_0 : ∃ (s : State) (a : Acting), OnFunction s a ∧
    let f := a.cmd.w1.toNat / 2 ^ 16
    (64 < f ∨ 2 < a.cmd.w2.toNat) :=
  ⟨replyState 65 2 64 (.empty), replyRun 65 2 64, on_function (by decide +kernel), by decide +kernel⟩

theorem witness_PagesAreInvalidatedMovedAndOpened_1_1 : ∃ (s : State) (a : Acting), OnFunction s a ∧
    let f := a.cmd.w1.toNat / 2 ^ 16
    f ≤ 64 ∧ a.cmd.w2.toNat ≤ 2 ∧ a.run.func ≠ 64 ∧ a.run.func ≠ f :=
  ⟨replyState 64 2 3 (.empty), replyRun 64 2 3, on_function (by decide +kernel), by constructorm* _ ∧ _ <;> decide +kernel⟩

theorem witness_PagesAreInvalidatedMovedAndOpened_1_2 : ∃ (s : State) (a : Acting), OnFunction s a ∧
    let req := a.cmd.w1.toNat % 2 ^ 16
    let f := a.cmd.w1.toNat / 2 ^ 16
    f ≤ 64 ∧ a.cmd.w2.toNat ≤ 2 ∧ (a.run.func = 64 ∨ a.run.func = f) ∧ (s.func f).reqs.find? req = none :=
  ⟨replyState 3 0 3 (.empty), replyRun 3 0 3, on_function (by decide +kernel), by constructorm* _ ∧ _ <;> decide +kernel⟩

theorem witness_PagesAreInvalidatedMovedAndOpened_1_3 : ∃ (s : State) (a : Acting), OnFunction s a ∧
    let req := a.cmd.w1.toNat % 2 ^ 16
    let f := a.cmd.w1.toNat / 2 ^ 16
    f ≤ 64 ∧ a.cmd.w2.toNat ≤ 2 ∧ (a.run.func = 64 ∨ a.run.func = f) ∧ ∃ q, (s.func f).reqs.find? req = some q :=
  ⟨replyState 64 2 64 (FMap.empty.insert 7 oneReq), replyRun 64 2 64, on_function (by decide +kernel),
   also3 (by constructorm* _ ∧ _ <;> decide +kernel) ⟨oneReq, by decide +kernel⟩⟩

theorem witness_PagesAreInvalidatedMovedAndOpened_2_0 : ∃ (s : State) (a : Acting) (c : Context) (at_ old : Nat) (e : Leaf), OnContext s a c ∧
    a.run.info = [] ∧ ownLeaf s (ctxNamed a) a.cmd.w1.toNat false = some (at_, e) ∧ c.func = 64 ∧ leafAddr e a.cmd.w1.toNat / 4096 = old ∧
    let va := a.cmd.w1.toNat
    let n := pageFrames e
    (e.entry / 2 ^ 6 % 4 ≠ 0 ∨ va % (4096 * n) ≠ 0 ∨ a.cmd.w2.toNat % (4096 * n) ≠ 0 ∨ Config.reservedBase < a.cmd.w2.toNat + 4096 * n) :=
  ⟨(cmdAct .pageMove [0x5000, 0x20FFF] .accepted [] (page5 (leafOf 9) base)), cmdRun .pageMove [0x5000, 0x20FFF] .accepted [],
   theCtx (cmdAct .pageMove [0x5000, 0x20FFF] .accepted [] (page5 (leafOf 9) base)) 1, 0x104028, 9, leaf5 (leafOf 9), on_context (by decide +kernel),
   by constructorm* _ ∧ _ <;> decide +kernel⟩

theorem witness_PagesAreInvalidatedMovedAndOpened_2_1 : ∃ (s : State) (a : Acting) (c : Context) (at_ old : Nat) (e : Leaf), OnContext s a c ∧
    a.run.info = [] ∧ ownLeaf s (ctxNamed a) a.cmd.w1.toNat false = some (at_, e) ∧ c.func = 64 ∧ leafAddr e a.cmd.w1.toNat / 4096 = old ∧
    let va := a.cmd.w1.toNat
    let n := pageFrames e
    let new := a.cmd.w2.toNat / 4096
    e.entry / 2 ^ 6 % 4 = 0 ∧ va % (4096 * n) = 0 ∧ a.cmd.w2.toNat = 4096 * new ∧ new % n = 0 ∧ leafAddr e va = 4096 * old ∧ 4096 * new + 4096 * n ≤
      Config.reservedBase ∧ new < 2 ^ 40 ∧ old = new :=
  ⟨(cmdAct .pageMove [0x5000, 0x9000] .accepted [] (page5 (leafOf 9) base)), cmdRun .pageMove [0x5000, 0x9000] .accepted [],
   theCtx (cmdAct .pageMove [0x5000, 0x9000] .accepted [] (page5 (leafOf 9) base)) 1, 0x104028, 9, leaf5 (leafOf 9), on_context (by decide +kernel),
   by constructorm* _ ∧ _ <;> decide +kernel⟩

theorem witness_PagesAreInvalidatedMovedAndOpened_2_2 : ∃ (s : State) (a : Acting) (c : Context) (at_ old : Nat) (e : Leaf), OnContext s a c ∧
    a.run.info = [] ∧ ownLeaf s (ctxNamed a) a.cmd.w1.toNat false = some (at_, e) ∧ c.func = 64 ∧ leafAddr e a.cmd.w1.toNat / 4096 = old ∧
    let va := a.cmd.w1.toNat
    let n := pageFrames e
    let new := a.cmd.w2.toNat / 4096
    let move : FrameMove := { old := old, new := new, n := n }
    e.entry / 2 ^ 6 % 4 = 0 ∧ va % (4096 * n) = 0 ∧ a.cmd.w2.toNat = 4096 * new ∧ new % n = 0 ∧ leafAddr e va = 4096 * old ∧ 4096 * new + 4096 * n ≤
      Config.reservedBase ∧ new < 2 ^ 40 ∧ old ≠ new ∧ (framesPinned s (ctxNamed a) va (4096 * n) ((List.range n).map fun i => old + i) = true ∨
      move.busy s = true) :=
  ⟨(cmdAct .pageMove [0x5000, 0x20000] .accepted [] (pinned (page5 (leafOf 9) base))), cmdRun .pageMove [0x5000, 0x20000] .accepted [],
   theCtx (cmdAct .pageMove [0x5000, 0x20000] .accepted [] (pinned (page5 (leafOf 9) base))) 1, 0x104028, 9, leaf5 (leafOf 9),
   on_context (by decide +kernel), by constructorm* _ ∧ _ <;> decide +kernel⟩

theorem witness_PagesAreInvalidatedMovedAndOpened_2_3 : ∃ (s : State) (a : Acting) (c : Context) (at_ old : Nat) (e : Leaf), OnContext s a c ∧
    a.run.info = [] ∧ ownLeaf s (ctxNamed a) a.cmd.w1.toNat false = some (at_, e) ∧ c.func = 64 ∧ leafAddr e a.cmd.w1.toNat / 4096 = old ∧
    let va := a.cmd.w1.toNat
    let n := pageFrames e
    let new := a.cmd.w2.toNat / 4096
    let move : FrameMove := { old := old, new := new, n := n }
    let inNew := fun (f : Nat) => new ≤ f ∧ f < new + n
    e.entry / 2 ^ 6 % 4 = 0 ∧ va % (4096 * n) = 0 ∧ a.cmd.w2.toNat = 4096 * new ∧ new % n = 0 ∧ leafAddr e va = 4096 * old ∧ 4096 * new + 4096 * n ≤
      Config.reservedBase ∧ new < 2 ^ 40 ∧ (old + n ≤ new ∨ new + n ≤ old) ∧ framesPinned s (ctxNamed a) va (4096 * n) ((List.range n).map fun i =>
      old + i) = false ∧ move.busy s = false ∧ s.mem.quarantine.length + n ≤ 16384 ∧ s.mem.quarantine.length < 16384 ∧ s.eng.snap.chains.wf = true ∧
      (∀ line ∈ s.eng.snap.chains.keys, ¬ inNew (line / 8)) ∧ (¬ inNew (at_ / 4096)) ∧ s.eng.snap.chains.has (at_ / 512) = false ∧ at_ % 8 = 0 :=
  ⟨(cmdAct .pageMove [0x5000, Config.reservedBase - 4096] .accepted [] (withHeap (page5 (leafOf 9) base))),
   cmdRun .pageMove [0x5000, Config.reservedBase - 4096] .accepted [],
   theCtx (cmdAct .pageMove [0x5000, Config.reservedBase - 4096] .accepted [] (withHeap (page5 (leafOf 9) base))) 1, 0x104028, 9, leaf5 (leafOf 9),
   on_context (by decide +kernel), by constructorm* _ ∧ _ <;> decide +kernel⟩

/-- A leaf that may be opened: V = 0, HEAP bit set. -/
def shut : Nat := leafOf 9 - 1 + 2 ^ 11

theorem witness_PagesAreInvalidatedMovedAndOpened_3_0 : ∃ (s : State) (a : Acting) (c : Context), OnContext s a c ∧
    let va := a.cmd.w1.toNat
    let n := a.cmd.w2.toNat
    (va % 4096 ≠ 0 ∨ n % 4096 ≠ 0 ∨ fieldAt s.ldr.device 2 0 32 = 0) :=
  ⟨(cmdAct .verOpen [0x5000, 0x1000] .accepted [] (page5 (leafOf 9) base)), cmdRun .verOpen [0x5000, 0x1000] .accepted [],
   theCtx (cmdAct .verOpen [0x5000, 0x1000] .accepted [] (page5 (leafOf 9) base)) 1, on_context (by decide +kernel), by decide +kernel⟩

theorem witness_PagesAreInvalidatedMovedAndOpened_3_1 : ∃ (s : State) (a : Acting) (c : Context), OnContext s a c ∧
    let va := a.cmd.w1.toNat
    let n := a.cmd.w2.toNat
    va % 4096 = 0 ∧ n % 4096 = 0 ∧ fieldAt s.ldr.device 2 0 32 ≠ 0 ∧ (∃ k, k < n / 4096 ∧ openable s (ctxNamed a) (va + 4096 * k) = none) :=
  ⟨(cmdAct .verOpen [0x5000, 0x1000] .accepted [] (withHeap (page5 (leafOf 9) base))), cmdRun .verOpen [0x5000, 0x1000] .accepted [],
   theCtx (cmdAct .verOpen [0x5000, 0x1000] .accepted [] (withHeap (page5 (leafOf 9) base))) 1, on_context (by decide +kernel),
   also3 (by constructorm* _ ∧ _ <;> decide +kernel) (⟨0, by decide +kernel⟩)⟩

theorem witness_PagesAreInvalidatedMovedAndOpened_3_2 : ∃ (s : State) (a : Acting) (c : Context), OnContext s a c ∧
    let va := a.cmd.w1.toNat
    let n := a.cmd.w2.toNat
    va % 4096 = 0 ∧ n % 4096 = 0 ∧ fieldAt s.ldr.device 2 0 32 ≠ 0 ∧ ∃ at_ e frame, n = 4096 ∧ openable s (ctxNamed a) va = some (at_, e, frame) ∧
      e.entry / 2 ^ 5 % 2 = 0 ∧ at_ % 8 = 0 ∧ at_ / 4096 ≠ frame ∧ s.eng.snap.chains.has (at_ / 512) = false :=
  ⟨(cmdAct .verOpen [0x5000, 0x1000] .accepted [] (withHeap (page5 shut base))), cmdRun .verOpen [0x5000, 0x1000] .accepted [],
   theCtx (cmdAct .verOpen [0x5000, 0x1000] .accepted [] (withHeap (page5 shut base))) 1, on_context (by decide +kernel),
   also3 (by constructorm* _ ∧ _ <;> decide +kernel) ⟨0x104028, leaf5 shut, 9, by constructorm* _ ∧ _ <;> decide +kernel⟩⟩

def debugged (s : State) : State := modCtx1 (fun c => { c with debugQueue := some 4 }) s
def revoked (s : State) : State := withCfg 4 0x52903002 (s.modLdr fun l => { l with launches := .empty })
def aGroup (halted : Bool) (edge : Nat) : HaltGroup :=
  { ctx := 1, scope := 0, launch := 1, warps := [w0], edge := edge, halted := halted, issuer := none }
/-- Group 3 of the context; the warp is halted. -/
def halting (g : HaltGroup) (s : State) : State :=
  ((debugged s).modLdr fun l => { l with halts := FMap.empty.insert 3 g }).modWarp w0 fun x => { x with halted := some 7 }

theorem witness_DebuggersHaltReadAndWrite_0_0 : ∃ (s : State) (a : Acting) (c : Context), OnContext s a c ∧ ∃ q, c.debugQueue = some q ∧ q ≠
    a.run.queue :=
  ⟨(cmdAct .debugTake [] .accepted [] (modCtx1 (fun c => { c with debugQueue := some 5 }) base)), cmdRun .debugTake [] .accepted [],
   theCtx (cmdAct .debugTake [] .accepted [] (modCtx1 (fun c => { c with debugQueue := some 5 }) base)) 1, on_context (by decide +kernel), 5,
   by constructorm* _ ∧ _ <;> decide +kernel⟩

theorem witness_DebuggersHaltReadAndWrite_0_1 : ∃ (s : State) (a : Acting) (c : Context), OnContext s a c ∧ (c.debugQueue = none ∨ c.debugQueue = some
    a.run.queue) :=
  ⟨(cmdAct .debugTake [] .accepted [] (base)), cmdRun .debugTake [] .accepted [], theCtx (cmdAct .debugTake [] .accepted [] (base)) 1,
   on_context (by decide +kernel), by decide +kernel⟩

theorem witness_DebuggersHaltReadAndWrite_0_2 : ∃ (s : State) (a : Acting) (c : Context), OnContext s a c ∧ c.debugQueue = some a.run.queue ∧ (∀ e ∈
    s.ldr.halts.entries, e.2.ctx ≠ ctxNamed a) :=
  ⟨(cmdAct .debugGive [] .accepted [] (debugged base)), cmdRun .debugGive [] .accepted [],
   theCtx (cmdAct .debugGive [] .accepted [] (debugged base)) 1, on_context (by decide +kernel), by constructorm* _ ∧ _ <;> decide +kernel⟩

theorem witness_DebuggersHaltReadAndWrite_1_0 : ∃ (s : State) (a : Acting), OnCommand s a ∧ a.run.func = 64 ∧ s.context? (ctxNamed a) = none :=
  ⟨acts (base) .debugRevoke (aCmd 3 []) 64 .accepted [], acting .debugRevoke (aCmd 3 []) 64 .accepted [], on_command (by decide +kernel),
   by constructorm* _ ∧ _ <;> decide +kernel⟩

theorem witness_DebuggersHaltReadAndWrite_1_1 : ∃ (s : State) (a : Acting), OnCommand s a ∧ a.run.func = 64 ∧ ∃ c, s.context? (ctxNamed a) = some c ∧
    c.debugQueue = none :=
  ⟨acts (base) .debugRevoke (aCmd 1 []) 64 .accepted [], acting .debugRevoke (aCmd 1 []) 64 .accepted [], on_command (by decide +kernel),
   by decide +kernel, theCtx base 1, by constructorm* _ ∧ _ <;> decide +kernel⟩

theorem witness_DebuggersHaltReadAndWrite_1_2 : ∃ (s : State) (a : Acting), OnCommand s a ∧ a.run.func = 64 ∧ ∃ c, s.context? (ctxNamed a) = some c ∧
    c.debugQueue ≠ none ∧ (c.cfg.getD 4 0).getLsbD 1 = true ∧ openLaunches s (ctxNamed a) = [] :=
  ⟨acts (revoked (debugged base)) .debugRevoke (aCmd 1 []) 64 .accepted [], acting .debugRevoke (aCmd 1 []) 64 .accepted [],
   on_command (by decide +kernel), by decide +kernel, theCtx (revoked (debugged base)) 1, by constructorm* _ ∧ _ <;> decide +kernel⟩

theorem witness_DebuggersHaltReadAndWrite_1_3 : ∃ (s : State) (a : Acting), OnCommand s a ∧ a.run.func = 64 ∧ ∃ c, s.context? (ctxNamed a) = some c ∧
    c.debugQueue ≠ none ∧ (c.cfg.getD 4 0).getLsbD 1 = false ∧ (∀ e ∈ s.ldr.halts.entries, e.2.ctx ≠ ctxNamed a) :=
  ⟨acts (debugged base) .debugRevoke (aCmd 1 []) 64 .accepted [], acting .debugRevoke (aCmd 1 []) 64 .accepted [], on_command (by decide +kernel),
   by decide +kernel, theCtx (debugged base) 1, by constructorm* _ ∧ _ <;> decide +kernel⟩

theorem witness_DebuggersHaltReadAndWrite_2_0 : ∃ (s : State) (a : Acting) (c : Context), OnContext s a c ∧ c.debugQueue = some a.run.queue ∧
    let scope := a.cmd.w2.toNat
    a.run.info = [] ∧ (3 < scope ∨ 2 ^ 32 ≤ a.cmd.w4.toNat ∨ 16 ≤ a.cmd.w5.toNat) :=
  ⟨(cmdAct .debugHalt [0, 0, 1, 0, 16] .accepted [] (debugged base)), cmdRun .debugHalt [0, 0, 1, 0, 16] .accepted [],
   theCtx (cmdAct .debugHalt [0, 0, 1, 0, 16] .accepted [] (debugged base)) 1, on_context (by decide +kernel),
   by constructorm* _ ∧ _ <;> decide +kernel⟩

theorem witness_DebuggersHaltReadAndWrite_2_1 : ∃ (s : State) (a : Acting) (c : Context), OnContext s a c ∧ c.debugQueue = some a.run.queue ∧
    let scope := a.cmd.w2.toNat
    a.run.info = [] ∧ scope ≤ 2 ∧ (∀ l, s.ldr.launches.find? a.cmd.w3.toNat = some l → l.ctx ≠ ctxNamed a) :=
  ⟨(cmdAct .debugHalt [0, 2, 2, 0, 0] .accepted [] (debugged base)), cmdRun .debugHalt [0, 2, 2, 0, 0] .accepted [],
   theCtx (cmdAct .debugHalt [0, 2, 2, 0, 0] .accepted [] (debugged base)) 1, on_context (by decide +kernel),
   also3 (by constructorm* _ ∧ _ <;> decide +kernel) (of_none (by decide +kernel))⟩

theorem witness_DebuggersHaltReadAndWrite_2_2 : ∃ (s : State) (a : Acting) (c : Context), OnContext s a c ∧ c.debugQueue = some a.run.queue ∧
    let scope := a.cmd.w2.toNat
    let mine := fun (e : Nat × Team) => e ∈ s.teams.entries ∧ e.2.ctx = ctxNamed a ∧ e.2.dead = false ∧ (scope ≤ 2 → e.2.launch = a.cmd.w3.toNat) ∧
      (scope ≤ 1 → e.2.index = a.cmd.w4.toNat)
    ∃ l, a.run.info = [] ∧ (scope = 2 ∨ scope = 3 ∨ (scope ≤ 1 ∧ ∃ e, mine e ∧ ∃ x, e.2.warps[if scope = 0 then a.cmd.w5.toNat else 0]? = some x)) ∧
      (scope ≤ 2 → s.ldr.launches.find? a.cmd.w3.toNat = some l ∧ l.ctx = ctxNamed a) ∧ a.cmd.w4.toNat < 2 ^ 32 ∧ a.cmd.w5.toNat < 16 :=
  ⟨(cmdAct .debugHalt [0, 3, 0, 0xFFFFFFFF, 15] .accepted [] (debugged base)), cmdRun .debugHalt [0, 3, 0, 0xFFFFFFFF, 15] .accepted [],
   theCtx (cmdAct .debugHalt [0, 3, 0, 0xFFFFFFFF, 15] .accepted [] (debugged base)) 1, on_context (by decide +kernel), by decide +kernel, wordLaunch,
   by decide +kernel, .inr (.inl (by decide +kernel)), by constructorm* _ ∧ _ <;> decide +kernel⟩

theorem witness_DebuggersHaltReadAndWrite_2_2_b : ∃ (s : State) (a : Acting) (c : Context), OnContext s a c ∧ c.debugQueue = some a.run.queue ∧
    let scope := a.cmd.w2.toNat
    let mine := fun (e : Nat × Team) => e ∈ s.teams.entries ∧ e.2.ctx = ctxNamed a ∧ e.2.dead = false ∧ (scope ≤ 2 → e.2.launch = a.cmd.w3.toNat) ∧
      (scope ≤ 1 → e.2.index = a.cmd.w4.toNat)
    ∃ l, a.run.info = [] ∧ (scope = 2 ∨ scope = 3 ∨ (scope ≤ 1 ∧ ∃ e, mine e ∧ ∃ x, e.2.warps[if scope = 0 then a.cmd.w5.toNat else 0]? = some x)) ∧
      (scope ≤ 2 → s.ldr.launches.find? a.cmd.w3.toNat = some l ∧ l.ctx = ctxNamed a) ∧ a.cmd.w4.toNat < 2 ^ 32 ∧ a.cmd.w5.toNat < 16 :=
  ⟨(cmdAct .debugHalt [0, 0, 1, 0, 0] .accepted [] (debugged base)), cmdRun .debugHalt [0, 0, 1, 0, 0] .accepted [],
   theCtx (cmdAct .debugHalt [0, 0, 1, 0, 0] .accepted [] (debugged base)) 1, on_context (by decide +kernel), by decide +kernel, wordLaunch,
   by decide +kernel, .inr (.inr ⟨by decide +kernel, (1, theTeam base 1), by decide +kernel, theWarp base, by decide +kernel⟩),
   by constructorm* _ ∧ _ <;> decide +kernel⟩

theorem witness_DebuggersHaltReadAndWrite_2_3 : ∃ (s : State) (a : Acting) (c : Context), OnContext s a c ∧ c.debugQueue = some a.run.queue ∧ ∃ id r,
    a.run.info = id :: r ∧ s.ldr.halts.find? id = none :=
  ⟨(cmdAct .debugHalt [0, 0, 1, 0, 0] .running [3] (debugged base)), cmdRun .debugHalt [0, 0, 1, 0, 0] .running [3],
   theCtx (cmdAct .debugHalt [0, 0, 1, 0, 0] .running [3] (debugged base)) 1, on_context (by decide +kernel), by decide +kernel, 3, [],
   by constructorm* _ ∧ _ <;> decide +kernel⟩

theorem witness_DebuggersHaltReadAndWrite_2_4 : ∃ (s : State) (a : Acting) (c : Context), OnContext s a c ∧ c.debugQueue = some a.run.queue ∧ ∃ id r,
    a.run.info = id :: r ∧ ∃ g, s.ldr.halts.find? id = some g ∧ g.halted = true ∧ g.edge < s.clk :=
  ⟨(cmdAct .debugHalt [0, 0, 1, 0, 0] .running [3] (halting (aGroup true 9) base)), cmdRun .debugHalt [0, 0, 1, 0, 0] .running [3],
   theCtx (cmdAct .debugHalt [0, 0, 1, 0, 0] .running [3] (halting (aGroup true 9) base)) 1, on_context (by decide +kernel), by decide +kernel, 3, [],
   by decide +kernel, aGroup true 9, by constructorm* _ ∧ _ <;> decide +kernel⟩

theorem witness_DebuggersHaltReadAndWrite_2_5 : ∃ (s : State) (a : Acting) (c : Context), OnContext s a c ∧ c.debugQueue = some a.run.queue ∧ ∃ id r,
    a.run.info = id :: r ∧ ∃ g, s.ldr.halts.find? id = some g ∧ (g.halted = false ∨ s.clk ≤ g.edge) :=
  ⟨(cmdAct .debugHalt [0, 0, 1, 0, 0] .running [3] (halting (aGroup true 10) base)), cmdRun .debugHalt [0, 0, 1, 0, 0] .running [3],
   theCtx (cmdAct .debugHalt [0, 0, 1, 0, 0] .running [3] (halting (aGroup true 10) base)) 1, on_context (by decide +kernel), by decide +kernel, 3,
   [], by decide +kernel, aGroup true 10, by constructorm* _ ∧ _ <;> decide +kernel⟩

theorem witness_DebuggersHaltReadAndWrite_3_0 : ∃ (s : State) (a : Acting) (c : Context), OnContext s a c ∧ c.debugQueue = some a.run.queue ∧ (∀ g,
    s.ldr.halts.find? a.cmd.w2.toNat = some g → g.ctx ≠ ctxNamed a) :=
  ⟨(cmdAct .debugResume [0, 4] .accepted [] (halting (aGroup true 9) base)), cmdRun .debugResume [0, 4] .accepted [],
   theCtx (cmdAct .debugResume [0, 4] .accepted [] (halting (aGroup true 9) base)) 1, on_context (by decide +kernel), by decide +kernel,
   of_none (by decide +kernel)⟩

theorem witness_DebuggersHaltReadAndWrite_3_1 : ∃ (s : State) (a : Acting) (c : Context), OnContext s a c ∧ c.debugQueue = some a.run.queue ∧ ∃ g,
    s.ldr.halts.find? a.cmd.w2.toNat = some g ∧ g.ctx = ctxNamed a ∧ g.halted = false :=
  ⟨(cmdAct .debugResume [0, 3] .accepted [] (halting (aGroup false 9) base)), cmdRun .debugResume [0, 3] .accepted [],
   theCtx (cmdAct .debugResume [0, 3] .accepted [] (halting (aGroup false 9) base)) 1, on_context (by decide +kernel), by decide +kernel,
   aGroup false 9, by constructorm* _ ∧ _ <;> decide +kernel⟩

theorem witness_DebuggersHaltReadAndWrite_3_2 : ∃ (s : State) (a : Acting) (c : Context), OnContext s a c ∧ c.debugQueue = some a.run.queue ∧ ∃ g w t
    x at_, s.ldr.halts.find? a.cmd.w2.toNat = some g ∧ g.ctx = ctxNamed a ∧ g.halted = true ∧ g.warps = [w] ∧ s.team? w.team = some t ∧ t.status =
    .resident ∧ s.warp? w = some x ∧ x.halted = some at_ ∧ x.held = [] ∧ (s.cfgWord t.ctx 3).toNat < 2 ^ 12 ∧ (∀ e ∈ s.ldr.halts.entries, e.1 ≠
    a.cmd.w2.toNat → w ∉ e.2.warps) :=
  ⟨(cmdAct .debugResume [0, 3] .accepted [] (halting (aGroup true 9) base)), cmdRun .debugResume [0, 3] .accepted [],
   theCtx (cmdAct .debugResume [0, 3] .accepted [] (halting (aGroup true 9) base)) 1, on_context (by decide +kernel), by decide +kernel,
   aGroup true 9, w0, theTeam (halting (aGroup true 9) base) 1, theWarp (halting (aGroup true 9) base), 7, by constructorm* _ ∧ _ <;> decide +kernel⟩

def theItem (kind n : Nat) : Nat := kind * 2 ^ 56 + n
def savingTeam (s : State) : State := s.modTeam 1 fun t => { t with status := .saving }

theorem witness_DebuggersHaltReadAndWrite_4_0 : ∃ (s : State) (a : Acting) (c : Context) (g : HaltGroup) (r : WRef) (t : Team) (x : Warp), OnContext s
    a c ∧ c.debugQueue = some a.run.queue ∧ OnItem s a g r t x ∧
    let kind := a.cmd.w3.toNat / 2 ^ 56
    let len := a.cmd.w5.toNat
    (12 < kind ∨ (kind ≠ 7 ∧ len ≠ [4, 4, 2, 8, 16, 36, 64, 0, 8, 1024, 2, 512, 4096].getD kind 0)) :=
  ⟨(cmdAct .debugRead [0, 3, theItem 13 (0), 0x9008, 4] .accepted [] (halting (aGroup true 9) base)),
   cmdRun .debugRead [0, 3, theItem 13 (0), 0x9008, 4] .accepted [],
   theCtx (cmdAct .debugRead [0, 3, theItem 13 (0), 0x9008, 4] .accepted [] (halting (aGroup true 9) base)) 1, aGroup true 9, w0,
   theTeam (halting (aGroup true 9) base) 1, theWarp (halting (aGroup true 9) base), on_context (by decide +kernel), by decide +kernel,
   by constructor <;> decide +kernel, by decide +kernel⟩

theorem witness_DebuggersHaltReadAndWrite_4_0_b : ∃ (s : State) (a : Acting) (c : Context) (g : HaltGroup) (r : WRef) (t : Team) (x : Warp), OnContext
    s a c ∧ c.debugQueue = some a.run.queue ∧ OnItem s a g r t x ∧
    let kind := a.cmd.w3.toNat / 2 ^ 56
    let len := a.cmd.w5.toNat
    (12 < kind ∨ (kind ≠ 7 ∧ len ≠ [4, 4, 2, 8, 16, 36, 64, 0, 8, 1024, 2, 512, 4096].getD kind 0)) :=
  ⟨(cmdAct .debugRead [0, 3, theItem 0 (0), 0x9008, 5] .accepted [] (halting (aGroup true 9) base)),
   cmdRun .debugRead [0, 3, theItem 0 (0), 0x9008, 5] .accepted [],
   theCtx (cmdAct .debugRead [0, 3, theItem 0 (0), 0x9008, 5] .accepted [] (halting (aGroup true 9) base)) 1, aGroup true 9, w0,
   theTeam (halting (aGroup true 9) base) 1, theWarp (halting (aGroup true 9) base), on_context (by decide +kernel), by decide +kernel,
   by constructor <;> decide +kernel, by decide +kernel⟩

theorem witness_DebuggersHaltReadAndWrite_4_1 : ∃ (s : State) (a : Acting) (c : Context) (g : HaltGroup) (r : WRef) (t : Team) (x : Warp), OnContext s
    a c ∧ c.debugQueue = some a.run.queue ∧ OnItem s a g r t x ∧
    let kind := a.cmd.w3.toNat / 2 ^ 56
    (kind = 10 ∨ kind = 12) :=
  ⟨(cmdAct .debugRead [0, 3, theItem 10 (0), 0x9008, 2] .accepted [] (halting (aGroup true 9) base)),
   cmdRun .debugRead [0, 3, theItem 10 (0), 0x9008, 2] .accepted [],
   theCtx (cmdAct .debugRead [0, 3, theItem 10 (0), 0x9008, 2] .accepted [] (halting (aGroup true 9) base)) 1, aGroup true 9, w0,
   theTeam (halting (aGroup true 9) base) 1, theWarp (halting (aGroup true 9) base), on_context (by decide +kernel), by decide +kernel,
   by constructor <;> decide +kernel, by decide +kernel⟩

theorem witness_DebuggersHaltReadAndWrite_4_2 : ∃ (s : State) (a : Acting) (c : Context) (g : HaltGroup) (r : WRef) (t : Team) (x : Warp), OnContext s
    a c ∧ c.debugQueue = some a.run.queue ∧ OnItem s a g r t x ∧
    let kind := a.cmd.w3.toNat / 2 ^ 56
    let n := a.cmd.w3.toNat % 2 ^ 32
    let len := a.cmd.w5.toNat
    (kind = 0 → n < x.budget) ∧ (kind = 1 ∨ kind = 2 ∨ kind = 0) ∧ len = [4, 4, 2].getD kind 0 ∧ t.status = .saving :=
  ⟨(cmdAct .debugWrite [0, 3, theItem 0 (1), 0x9008, 4] .accepted [] (savingTeam (halting (aGroup true 9) base))),
   cmdRun .debugWrite [0, 3, theItem 0 (1), 0x9008, 4] .accepted [],
   theCtx (cmdAct .debugWrite [0, 3, theItem 0 (1), 0x9008, 4] .accepted [] (savingTeam (halting (aGroup true 9) base))) 1, aGroup true 9, w0,
   theTeam (savingTeam (halting (aGroup true 9) base)) 1, theWarp (savingTeam (halting (aGroup true 9) base)), on_context (by decide +kernel),
   by decide +kernel, by constructor <;> decide +kernel, by constructorm* _ ∧ _ <;> decide +kernel⟩

theorem witness_DebuggersHaltReadAndWrite_4_3 : ∃ (s : State) (a : Acting) (c : Context) (g : HaltGroup) (r : WRef) (t : Team) (x : Warp), OnContext s
    a c ∧ c.debugQueue = some a.run.queue ∧ OnItem s a g r t x ∧
    let kind := a.cmd.w3.toNat / 2 ^ 56
    let n := a.cmd.w3.toNat % 2 ^ 32
    let len := a.cmd.w5.toNat
    kind = 0 ∧ len = 4 ∧ x.budget ≤ n :=
  ⟨(cmdAct .debugRead [0, 3, theItem 0 ((theWarp base).budget), 0x9008, 4] .accepted [] (halting (aGroup true 9) base)),
   cmdRun .debugRead [0, 3, theItem 0 ((theWarp base).budget), 0x9008, 4] .accepted [], theCtx (cmdAct .debugRead [0, 3, theItem 0 ((theWarp
   base).budget), 0x9008, 4] .accepted [] (halting (aGroup true 9) base)) 1, aGroup true 9, w0, theTeam (halting (aGroup true 9) base) 1,
   theWarp (halting (aGroup true 9) base), on_context (by decide +kernel), by decide +kernel, by constructor <;> decide +kernel,
   by constructorm* _ ∧ _ <;> decide +kernel⟩

theorem witness_DebuggersHaltReadAndWrite_4_4 : ∃ (s : State) (a : Acting) (c : Context) (g : HaltGroup) (r : WRef) (t : Team) (x : Warp), OnContext s
    a c ∧ c.debugQueue = some a.run.queue ∧ OnItem s a g r t x ∧
    let kind := a.cmd.w3.toNat / 2 ^ 56
    let n := a.cmd.w3.toNat % 2 ^ 32
    let len := a.cmd.w5.toNat
    kind = 0 ∧ len = 4 ∧ n < x.budget ∧ x.lanes.length = 64 ∧ t.status ≠ .saving :=
  ⟨(cmdAct .debugWrite [0, 3, theItem 0 ((theWarp base).budget - 1), 0x9008, 4] .accepted [] (halting (aGroup true 9) base)),
   cmdRun .debugWrite [0, 3, theItem 0 ((theWarp base).budget - 1), 0x9008, 4] .accepted [], theCtx (cmdAct .debugWrite [0, 3, theItem 0 ((theWarp
   base).budget - 1), 0x9008, 4] .accepted [] (halting (aGroup true 9) base)) 1, aGroup true 9, w0, theTeam (halting (aGroup true 9) base) 1,
   theWarp (halting (aGroup true 9) base), on_context (by decide +kernel), by decide +kernel, by constructor <;> decide +kernel,
   by constructorm* _ ∧ _ <;> decide +kernel⟩

theorem witness_DebuggersHaltReadAndWrite_4_5 : ∃ (s : State) (a : Acting) (c : Context) (g : HaltGroup) (r : WRef) (t : Team) (x : Warp), OnContext s
    a c ∧ c.debugQueue = some a.run.queue ∧ OnItem s a g r t x ∧
    let kind := a.cmd.w3.toNat / 2 ^ 56
    let len := a.cmd.w5.toNat
    kind = 1 ∧ len = 4 :=
  ⟨(cmdAct .debugRead [0, 3, theItem 1 (0), 0x9008, 4] .accepted [] (halting (aGroup true 9) base)),
   cmdRun .debugRead [0, 3, theItem 1 (0), 0x9008, 4] .accepted [],
   theCtx (cmdAct .debugRead [0, 3, theItem 1 (0), 0x9008, 4] .accepted [] (halting (aGroup true 9) base)) 1, aGroup true 9, w0,
   theTeam (halting (aGroup true 9) base) 1, theWarp (halting (aGroup true 9) base), on_context (by decide +kernel), by decide +kernel,
   by constructor <;> decide +kernel, by constructorm* _ ∧ _ <;> decide +kernel⟩

theorem witness_DebuggersHaltReadAndWrite_4_6 : ∃ (s : State) (a : Acting) (c : Context) (g : HaltGroup) (r : WRef) (t : Team) (x : Warp), OnContext s
    a c ∧ c.debugQueue = some a.run.queue ∧ OnItem s a g r t x ∧
    let kind := a.cmd.w3.toNat / 2 ^ 56
    let len := a.cmd.w5.toNat
    kind = 2 ∧ len = 2 :=
  ⟨(cmdAct .debugRead [0, 3, theItem 2 (0), 0x9008, 2] .accepted [] (halting (aGroup true 9) base)),
   cmdRun .debugRead [0, 3, theItem 2 (0), 0x9008, 2] .accepted [],
   theCtx (cmdAct .debugRead [0, 3, theItem 2 (0), 0x9008, 2] .accepted [] (halting (aGroup true 9) base)) 1, aGroup true 9, w0,
   theTeam (halting (aGroup true 9) base) 1, theWarp (halting (aGroup true 9) base), on_context (by decide +kernel), by decide +kernel,
   by constructor <;> decide +kernel, by constructorm* _ ∧ _ <;> decide +kernel⟩

theorem witness_DebuggersHaltReadAndWrite_4_7 : ∃ (s : State) (a : Acting) (c : Context) (g : HaltGroup) (r : WRef) (t : Team) (x : Warp), OnContext s
    a c ∧ c.debugQueue = some a.run.queue ∧ OnItem s a g r t x ∧
    let kind := a.cmd.w3.toNat / 2 ^ 56
    let n := a.cmd.w3.toNat % 2 ^ 32
    let len := a.cmd.w5.toNat
    kind = 3 ∧ len = 8 ∧ n < 15 :=
  ⟨(cmdAct .debugRead [0, 3, theItem 3 (14), 0x9008, 8] .accepted [] (halting (aGroup true 9) base)),
   cmdRun .debugRead [0, 3, theItem 3 (14), 0x9008, 8] .accepted [],
   theCtx (cmdAct .debugRead [0, 3, theItem 3 (14), 0x9008, 8] .accepted [] (halting (aGroup true 9) base)) 1, aGroup true 9, w0,
   theTeam (halting (aGroup true 9) base) 1, theWarp (halting (aGroup true 9) base), on_context (by decide +kernel), by decide +kernel,
   by constructor <;> decide +kernel, by constructorm* _ ∧ _ <;> decide +kernel⟩

theorem witness_DebuggersHaltReadAndWrite_4_8 : ∃ (s : State) (a : Acting) (c : Context) (g : HaltGroup) (r : WRef) (t : Team) (x : Warp), OnContext s
    a c ∧ c.debugQueue = some a.run.queue ∧ OnItem s a g r t x ∧
    let kind := a.cmd.w3.toNat / 2 ^ 56
    let n := a.cmd.w3.toNat % 2 ^ 32
    let len := a.cmd.w5.toNat
    ∃ u off, kind = 4 ∧ len = 16 ∧ itemPort n = some (u, off) ∧ (off = offY ∨ off = offY2) ∧ populated s t u = true ∧ t.status ≠ .saving :=
  ⟨(cmdAct .debugWrite [0, 3, theItem 4 (0x205), 0x9008, 16] .accepted [] (halting (aGroup true 9) base)),
   cmdRun .debugWrite [0, 3, theItem 4 (0x205), 0x9008, 16] .accepted [],
   theCtx (cmdAct .debugWrite [0, 3, theItem 4 (0x205), 0x9008, 16] .accepted [] (halting (aGroup true 9) base)) 1, aGroup true 9, w0,
   theTeam (halting (aGroup true 9) base) 1, theWarp (halting (aGroup true 9) base), on_context (by decide +kernel), by decide +kernel,
   by constructor <;> decide +kernel, 0, 5, by constructorm* _ ∧ _ <;> decide +kernel⟩

theorem witness_DebuggersHaltReadAndWrite_4_9 : ∃ (s : State) (a : Acting) (c : Context) (g : HaltGroup) (r : WRef) (t : Team) (x : Warp), OnContext s
    a c ∧ c.debugQueue = some a.run.queue ∧ OnItem s a g r t x ∧
    let kind := a.cmd.w3.toNat / 2 ^ 56
    let n := a.cmd.w3.toNat % 2 ^ 32
    let len := a.cmd.w5.toNat
    kind = 7 ∧ n + len ≤ t.tsSize ∧ t.status ≠ .saving :=
  ⟨(cmdAct .debugWrite [0, 3, theItem 7 ((theTeam base 1).tsSize - 8), 0x9008, 8] .accepted [] (halting (aGroup true 9) base)),
   cmdRun .debugWrite [0, 3, theItem 7 ((theTeam base 1).tsSize - 8), 0x9008, 8] .accepted [], theCtx (cmdAct .debugWrite [0, 3, theItem 7 ((theTeam
   base 1).tsSize - 8), 0x9008, 8] .accepted [] (halting (aGroup true 9) base)) 1, aGroup true 9, w0, theTeam (halting (aGroup true 9) base) 1,
   theWarp (halting (aGroup true 9) base), on_context (by decide +kernel), by decide +kernel, by constructor <;> decide +kernel,
   by constructorm* _ ∧ _ <;> decide +kernel⟩

theorem witness_DebuggersHaltReadAndWrite_4_10 : ∃ (s : State) (a : Acting) (c : Context) (g : HaltGroup) (r : WRef) (t : Team) (x : Warp), OnContext
    s a c ∧ c.debugQueue = some a.run.queue ∧ OnItem s a g r t x ∧
    let kind := a.cmd.w3.toNat / 2 ^ 56
    let len := a.cmd.w5.toNat
    kind = 10 ∧ len = 2 :=
  ⟨(cmdAct .debugWrite [0, 3, theItem 10 (0), 0x9008, 2] .accepted [] (halting (aGroup true 9) base)),
   cmdRun .debugWrite [0, 3, theItem 10 (0), 0x9008, 2] .accepted [],
   theCtx (cmdAct .debugWrite [0, 3, theItem 10 (0), 0x9008, 2] .accepted [] (halting (aGroup true 9) base)) 1, aGroup true 9, w0,
   theTeam (halting (aGroup true 9) base) 1, theWarp (halting (aGroup true 9) base), on_context (by decide +kernel), by decide +kernel,
   by constructor <;> decide +kernel, by constructorm* _ ∧ _ <;> decide +kernel⟩

theorem witness_DebuggersHaltReadAndWrite_5_0 : ∃ (s : State) (a : Acting) (c : Context), OnContext s a c ∧ c.debugQueue = some a.run.queue ∧
    let mode := a.cmd.w5.toNat
    let quad := a.cmd.w2.toNat / 256
    let size := a.cmd.w4.toNat
    (4 ≤ quad ∨ 2 < mode ∨ (mode ≠ 0 ∧ ∀ k, k ≤ 16 → size ≠ 2 ^ (8 + k))) :=
  ⟨(cmdAct .debugLog [0, 0x400, 0x7000, 0x100, 1] .accepted [] (debugged base)), cmdRun .debugLog [0, 0x400, 0x7000, 0x100, 1] .accepted [],
   theCtx (cmdAct .debugLog [0, 0x400, 0x7000, 0x100, 1] .accepted [] (debugged base)) 1, on_context (by decide +kernel),
   by constructorm* _ ∧ _ <;> decide +kernel⟩

theorem witness_DebuggersHaltReadAndWrite_5_1 : ∃ (s : State) (a : Acting) (c : Context), OnContext s a c ∧ c.debugQueue = some a.run.queue ∧
    let mode := a.cmd.w5.toNat
    let core := a.cmd.w2.toNat % 256
    let quad := a.cmd.w2.toNat / 256
    let size := a.cmd.w4.toNat
    quad < 4 ∧ mode ≤ 2 ∧ (mode ≠ 0 → ∃ k, k ≤ 16 ∧ size = 2 ^ (8 + k)) ∧ ((s.core core).quad quad).log.mode ≠ 1 :=
  ⟨(cmdAct .debugLog [0, 0x3FF, 0x7000, 0x1000000, 2] .accepted [] (debugged base)), cmdRun .debugLog [0, 0x3FF, 0x7000, 0x1000000, 2] .accepted [],
   theCtx (cmdAct .debugLog [0, 0x3FF, 0x7000, 0x1000000, 2] .accepted [] (debugged base)) 1, on_context (by decide +kernel),
   also3 (by constructorm* _ ∧ _ <;> decide +kernel) ⟨fun _ => ⟨16, by decide +kernel⟩, by decide +kernel⟩⟩

/-! ## Witnesses: teams -/

def teamLaunch (total next : Nat) : Launch := { wordLaunch with total := total, next := next, extents := [total] }
def withLaunch (total next : Nat) (cores : List Nat) (s : State) : State :=
  (s.modLdr fun d => { d with launches := FMap.empty.insert 1 (teamLaunch total next) }).modFunc 64 fun f => { f with cores := cores }
def placing (s : State) : State := { s with subject := .num 64 }
def cand1 (t : Option Nat) (i : Nat) : Candidate := { launch := 1, team := t, index := i }
def savedOne (s : State) : State := s.modTeam 1 fun t => { t with status := .saved, savedAt := 4, wake := true }

theorem witness_TeamsStartSaveAndRetire_0_0 : ∃ (s : State) (f : Nat), s.subject = .num f ∧ candidates s f = [] :=
  ⟨placing (withLaunch 1 1 [0] base), 64, by constructorm* _ ∧ _ <;> decide +kernel⟩

theorem witness_TeamsStartSaveAndRetire_0_1 : ∃ (s : State) (f : Nat), s.subject = .num f ∧ ∃ (c : Candidate) (r : List Candidate) (l : Launch) (core
    : Nat) (i : Image), candidates s f = c :: r ∧ s.ldr.launches.find? c.launch = some l ∧ chooseCore s c.launch l = some core ∧ s.ldr.images.find?
    l.image = some i ∧ s.ldr.halts.entries = [] ∧ l.acec = false ∧ i.slot < 16 ∧ ∃ k ∈ (s.func (s.funcOf l.ctx)).cores, fits s c.launch l k [] = true
    :=
  ⟨placing (withLaunch 2 1 [0, 1] base), 64, by decide +kernel, cand1 none 1, [], teamLaunch 2 1, 1, wordImage,
   also6 (by constructorm* _ ∧ _ <;> decide +kernel) ⟨by decide +kernel, 1, by constructorm* _ ∧ _ <;> decide +kernel⟩⟩

theorem witness_TeamsStartSaveAndRetire_0_2 : ∃ (s : State) (f : Nat), s.subject = .num f ∧ ∃ (c : Candidate) (r : List Candidate) (l : Launch) (core
    : Nat) (i : Image), candidates s f = c :: r ∧ s.ldr.launches.find? c.launch = some l ∧ chooseCore s c.launch l = some core ∧ s.ldr.images.find?
    l.image = some i ∧ s.ldr.halts.entries = [] ∧ l.acec = false ∧ i.slot < 16 ∧ c.team = none :=
  ⟨placing (withLaunch 2 1 [0, 1] base), 64, by decide +kernel, cand1 none 1, [], teamLaunch 2 1, 1, wordImage,
   by constructorm* _ ∧ _ <;> decide +kernel⟩

theorem witness_TeamsStartSaveAndRetire_0_3 : ∃ (s : State) (f : Nat), s.subject = .num f ∧ ∃ (c : Candidate) (r : List Candidate) (l : Launch) (core
    : Nat) (i : Image), candidates s f = c :: r ∧ s.ldr.launches.find? c.launch = some l ∧ chooseCore s c.launch l = some core ∧ s.ldr.images.find?
    l.image = some i ∧ s.ldr.halts.entries = [] ∧ l.acec = false ∧ i.slot < 16 ∧ ∃ (n : Nat) (t : Team), c.team = some n ∧ s.team? n = some t ∧
    t.launch = c.launch ∧ (∀ x ∈ t.warps, x.handlers = []) ∧ (s.cfgWord t.ctx 3).toNat < 2 ^ 12 :=
  ⟨placing (savedOne (withLaunch 1 1 [0] base)), 64, by decide +kernel, cand1 (some 1) 0, [], teamLaunch 1 1, 0, wordImage,
   also6 (by constructorm* _ ∧ _ <;> decide +kernel) ⟨by decide +kernel, 1, theTeam (savedOne (withLaunch 1 1 [0] base)) 1,
   by constructorm* _ ∧ _ <;> decide +kernel⟩⟩

def asked (l : List Nat) (s : State) : State := { s with subject := .teams 0 l 1 }
def savingCore (l : List Nat) (s : State) : State := s.modCore 0 fun k => { k with save := l }
def savingOne (at_ : Nat) (s : State) : State := savingCore [1] (s.modTeam 1 fun t => { t with status := .saving, savedAt := at_ })
theorem named_one {s : State} {l : List Nat} (m : 1 ∈ l) (h : (s.team? 1).any (fun t => decide (t.core = 0 ∧ t.status = .resident ∧ t.dead = false)) = true) :
    ∃ n, n ∈ l ∧ ∃ t, s.team? n = some t ∧ t.core = 0 ∧ t.status = .resident ∧ t.dead = false := by
  cases e : s.team? 1 with
  | none => rw [e] at h; cases h
  | some t => rw [e] at h; exact ⟨1, m, t, e, of_decide_eq_true h⟩

theorem witness_TeamsStartSaveAndRetire_1_0 : ∃ (s : State) (core src : Nat) (l : List Nat), s.subject = .teams core l src ∧ s.teams.wf = true ∧
    let named := fun n => n ∈ l ∧ ∃ t, s.team? n = some t ∧ t.core = core ∧ t.status = .resident ∧ t.dead = false
    (∀ n, ¬ named n) :=
  ⟨asked [] base, 0, 1, [], by decide +kernel, by decide +kernel, fun _ h => List.not_mem_nil h.1⟩

theorem witness_TeamsStartSaveAndRetire_1_1 : ∃ (s : State) (core src : Nat) (l : List Nat), s.subject = .teams core l src ∧ s.teams.wf = true ∧
    let named := fun n => n ∈ l ∧ ∃ t, s.team? n = some t ∧ t.core = core ∧ t.status = .resident ∧ t.dead = false
    l.Nodup ∧ (∃ n, named n) ∧ (s.core core).save = [] :=
  ⟨asked [1, 9] base, 0, 1, [1, 9], also3 (by constructorm* _ ∧ _ <;> decide +kernel) ⟨named_one (by decide +kernel) (by decide +kernel),
   by decide +kernel⟩⟩

theorem witness_TeamsStartSaveAndRetire_1_2 : ∃ (s : State) (core src : Nat) (l : List Nat), s.subject = .teams core l src ∧ s.teams.wf = true ∧
    let named := fun n => n ∈ l ∧ ∃ t, s.team? n = some t ∧ t.core = core ∧ t.status = .resident ∧ t.dead = false
    (∃ n, named n) ∧ (s.core core).save ≠ [] :=
  ⟨asked [1] (savingCore [4] base), 0, 1, [1], by decide +kernel, by decide +kernel, named_one (by decide +kernel) (by decide +kernel),
   by decide +kernel⟩

def onCore0 (s : State) : State := { s with subject := .num 0 }
def onTeam1 (s : State) : State := { s with subject := .num 1 }
def quietLanes (s : State) : State := s.modWarp w0 fun x => { x with lanes := x.lanes.map fun y => { y with live := false } }
/-- The team has waited on its monitors, and a team of the launch fits nowhere. -/
def waitingTeam (n : Nat) : State := (withLaunch 3 2 [0] base).modTeam 1 fun t => { t with monWait := n, index := 1 }

theorem witness_TeamsStartSaveAndRetire_2_0 : ∃ (s : State) (core : Nat), s.subject = .num core ∧ ((∃ n ∈ (s.core core).save, saveReady s n = false) ∨
    (s.core core).save = []) :=
  ⟨onCore0 (savingOne 11 base), 0, by decide +kernel, .inl (by decide +kernel)⟩

theorem witness_TeamsStartSaveAndRetire_2_0_b : ∃ (s : State) (core : Nat), s.subject = .num core ∧ ((∃ n ∈ (s.core core).save, saveReady s n = false)
    ∨ (s.core core).save = []) :=
  ⟨onCore0 base, 0, by decide +kernel, .inr (by decide +kernel)⟩

theorem witness_TeamsStartSaveAndRetire_2_1 : ∃ (s : State) (core : Nat), s.subject = .num core ∧ ∃ (n : Nat) (t : Team), (s.core core).save = [n] ∧
    (s.core core).saveQueue = [] ∧ (s.core core).saveKill = [] ∧ saveReady s n = true ∧ s.team? n = some t ∧ t.core = core ∧ (∀ x ∈ t.warps,
    x.handlers = [] ∧ ∀ o ∈ x.ops, ¬ (o.unit = 12 ∧ o.opc = 2)) :=
  ⟨onCore0 (savingOne 10 base), 0, by decide +kernel, 1, theTeam (savingOne 10 base) 1, by constructorm* _ ∧ _ <;> decide +kernel⟩

theorem witness_TeamsStartSaveAndRetire_3_0 : ∃ (s : State) (n : Nat) (t : Team), s.subject = .num n ∧ s.team? n = some t ∧ mayRetire s n t = false :=
  ⟨onTeam1 base, 1, theTeam base 1, by constructorm* _ ∧ _ <;> decide +kernel⟩

theorem witness_TeamsStartSaveAndRetire_3_1 : ∃ (s : State) (n : Nat) (t : Team), s.subject = .num n ∧ s.team? n = some t ∧ ∃ l : Launch, mayRetire s
    n t = true ∧ s.ldr.launches.find? t.launch = some l ∧ l.state = .running :=
  ⟨onTeam1 (quietLanes base), 1, theTeam (quietLanes base) 1, by decide +kernel, by decide +kernel, wordLaunch,
   by constructorm* _ ∧ _ <;> decide +kernel⟩

theorem witness_TeamsStartSaveAndRetire_4_0 : ∃ (s : State) (n : Nat) (t : Team), s.subject = .num n ∧ s.team? n = some t ∧
    let limit := 2 ^ ((s.cfgWord t.ctx 4).toNat / 2 ^ 10 % 2 ^ 6)
    (t.status ≠ .resident ∨ t.monWait < limit ∨ roomWanted s t = false) :=
  ⟨onTeam1 (waitingTeam 4095), 1, theTeam (waitingTeam 4095) 1, by constructorm* _ ∧ _ <;> decide +kernel⟩

theorem witness_TeamsStartSaveAndRetire_4_1 : ∃ (s : State) (n : Nat) (t : Team), s.subject = .num n ∧ s.team? n = some t ∧
    let limit := 2 ^ ((s.cfgWord t.ctx 4).toNat / 2 ^ 10 % 2 ^ 6)
    t.status = .resident ∧ t.dead = false ∧ limit ≤ t.monWait ∧ (s.core t.core).save = [] ∧ roomWanted s t = true :=
  ⟨onTeam1 (waitingTeam 4096), 1, theTeam (waitingTeam 4096) 1, by constructorm* _ ∧ _ <;> decide +kernel⟩

/-! ## Witnesses: the supervisor -/

def entryRun (i : Instr) (st : CmdState) (info : List Nat) : CmdRun := aRun i (aCmd 1 [1, 2, 3, 4, 5, 6, 0x20000]) 64 st info
def cmdQueue : Queue := { func := 64, host := false, base := 0, size := 4, producer := 0, consumer := 0, irq := false }
def withEntry (c : CmdRun) (s : State) : State :=
  { s.modLdr fun d => { d with journal := FMap.empty.insert 1 c, queues := FMap.empty.insert 4 cmdQueue } with subject := .num 1 }
/-- The context exports since clk 3. -/
def exportingCtx (s : State) : State := withCfg 6 0x5008 (withPages [(5, leafOf 9)] (modCtx1 (fun c => { c with exporting := some 3 }) s))
def exportState (clk : Nat) : State := { withEntry (entryRun .ctxExport .running [1]) (exportingCtx base) with clk := clk }

theorem witness_SupervisorCompletesAndWatches_0_0 : ∃ (s : State) (j st : Nat) (c : CmdRun), s.subject = .num j ∧ s.ldr.journal.find? j = some c ∧
    c.state = .done st :=
  ⟨withEntry (entryRun .launch (.done 0) []) base, 1, 0, entryRun .launch (.done 0) [], by constructorm* _ ∧ _ <;> decide +kernel⟩

theorem witness_SupervisorCompletesAndWatches_0_1 : ∃ (s : State) (j st : Nat) (c : CmdRun), s.subject = .num j ∧ s.ldr.journal.find? j = some c ∧ ∃ q
    : Queue, c.state = .complete st ∧ s.ldr.queues.find? c.queue = some q ∧ NoVersions s ∧ c.entry.length = 64 :=
  ⟨withEntry (entryRun .attest (.complete 255) []) base, 1, 255, entryRun .attest (.complete 255) [], by decide +kernel, by decide +kernel, cmdQueue,
   by decide +kernel, by decide +kernel, by unfold NoVersions; decide +kernel, by decide +kernel⟩

theorem witness_SupervisorCompletesAndWatches_1 : ∃ (s : State) (j : Nat) (c : CmdRun) (l : Launch), s.subject = .num j ∧ s.ldr.journal.find? j = some
    c ∧ c.state = .running ∧ c.entry.getD 7 0 = 3 ∧ s.ldr.launches.find? j = some l :=
  ⟨withEntry (entryRun .launch .running []) base, 1, entryRun .launch .running [], wordLaunch, by constructorm* _ ∧ _ <;> decide +kernel⟩

theorem witness_SupervisorCompletesAndWatches_2_0 : ∃ (s : State) (j k ctx : Nat) (c : CmdRun) (x : Context), s.subject = .num j ∧ s.ldr.journal.find?
    j = some c ∧ c.state = .running ∧ c.entry.getD 7 0 = 0x10 ∧ c.info = [1] ∧ c.entry.length = 64 ∧ ctx = natOfBytes ((c.entry.drop 4).take 2) ∧
    s.context? ctx = some x ∧ x.exporting = some k ∧
    let limit := k + 2 ^ ((s.cfgWord ctx 4).toNat / 2 ^ 16 % 2 ^ 6)
    s.clk ≤ limit :=
  ⟨exportState (3 + 2 ^ 16), 1, 3, 1, entryRun .ctxExport .running [1], theCtx (exportState (3 + 2 ^ 16)) 1,
   by constructorm* _ ∧ _ <;> decide +kernel⟩

theorem witness_SupervisorCompletesAndWatches_2_1 : ∃ (s : State) (j k ctx : Nat) (c : CmdRun) (x : Context), s.subject = .num j ∧ s.ldr.journal.find?
    j = some c ∧ c.state = .running ∧ c.entry.getD 7 0 = 0x10 ∧ c.info = [1] ∧ c.entry.length = 64 ∧ ctx = natOfBytes ((c.entry.drop 4).take 2) ∧
    s.context? ctx = some x ∧ x.exporting = some k ∧
    let limit := k + 2 ^ ((s.cfgWord ctx 4).toNat / 2 ^ 16 % 2 ^ 6)
    ∃ p : Place, limit < s.clk ∧ translate s ctx (s.cfgWord ctx 6).toNat true false = .ok p ∧ p.tgt = 0 ∧ NoVersions s :=
  ⟨exportState (4 + 2 ^ 16), 1, 3, 1, entryRun .ctxExport .running [1], theCtx (exportState (4 + 2 ^ 16)) 1,
   also6 (by constructorm* _ ∧ _ <;> decide +kernel) (also3 (by constructorm* _ ∧ _ <;> decide +kernel) ⟨placeAt 0x9008, by decide +kernel, by rfl,
   by decide +kernel, by unfold NoVersions; decide +kernel⟩)⟩

def serving (r n : Nat) : State :=
  { base.modWarp w0 fun x => { x with handlers := [aHandler r n] } with subject := .timeout (.handler w0) }
def held (r : Nat) : CtxTrap := { warp := w0, trap := aTrapOf r, pc := .empty, reads := [], values := [], since := some 3 }
def heldState (clk r : Nat) : State :=
  { modCtx1 (fun c => { c with traps := [held 3, held r] }) base with clk := clk, subject := .timeout (.context 1) }
def watched (n : Nat) : State := onTeam1 (base.modTeam 1 fun t => { t with barWait := n })
def scanned (clk : Nat) : State := onTeam1 { modCtx1 (fun c => { c with scanSince := some 1 }) base with clk := clk }
def aHalt (h : Bool) (edge : Nat) : HaltGroup :=
  { ctx := 1, scope := 0, launch := 1, warps := [w0], edge := edge, halted := h, issuer := none }
def haltState (h : Bool) (edge : Nat) : State := { base.modLdr fun l => { l with halts := FMap.empty.insert 3 (aHalt h edge) } with subject := .num 3 }

theorem witness_SupervisorCompletesAndWatches_3_0 : ∃ (s : State) (w : WRef) (t : Team) (x : Warp) (h : Handler) (r : List Handler), s.subject =
    .timeout (.handler w) ∧ s.team? w.team = some t ∧ s.warp? w = some x ∧ x.handlers = h :: r ∧
    let limit := 2 ^ ((s.cfgWord t.ctx 4).toNat / (if h.rung = 0 then 2 ^ 27 else 2 ^ 22) % 2 ^ 5)
    (h.served < limit ∨ t.status ≠ .resident) :=
  ⟨serving 0 1023, w0, theTeam (serving 0 1023) 1, theWarp (serving 0 1023), aHandler 0 1023, [], by constructorm* _ ∧ _ <;> decide +kernel⟩

theorem witness_SupervisorCompletesAndWatches_3_1 : ∃ (s : State) (w : WRef) (t : Team) (x : Warp) (h : Handler) (r : List Handler), s.subject =
    .timeout (.handler w) ∧ s.team? w.team = some t ∧ s.warp? w = some x ∧ x.handlers = h :: r ∧
    let limit := 2 ^ ((s.cfgWord t.ctx 4).toNat / (if h.rung = 0 then 2 ^ 27 else 2 ^ 22) % 2 ^ 5)
    limit ≤ h.served ∧ t.status = .resident :=
  ⟨serving 1 1024, w0, theTeam (serving 1 1024) 1, theWarp (serving 1 1024), aHandler 1 1024, [], by constructorm* _ ∧ _ <;> decide +kernel⟩

theorem witness_SupervisorCompletesAndWatches_4_0 : ∃ (s : State) (ctx : Nat) (c : Context), s.subject = .timeout (.context ctx) ∧ s.context? ctx =
    some c ∧
    let late := fun (v : CtxTrap) => v.trap.rung = 2 ∧ ∃ k, v.since = some k ∧ k + 2 ^ ((s.cfgWord ctx 4).toNat / 2 ^ 16 % 2 ^ 6) < s.clk
    (∀ v ∈ c.traps, ¬ late v) :=
  ⟨heldState (3 + 2 ^ 16) 2, 1, theCtx (heldState (3 + 2 ^ 16) 2) 1, by constructorm* _ ∧ _ <;> decide +kernel⟩

theorem witness_SupervisorCompletesAndWatches_4_1 : ∃ (s : State) (ctx : Nat) (c : Context), s.subject = .timeout (.context ctx) ∧ s.context? ctx =
    some c ∧
    let late := fun (v : CtxTrap) => v.trap.rung = 2 ∧ ∃ k, v.since = some k ∧ k + 2 ^ ((s.cfgWord ctx 4).toNat / 2 ^ 16 % 2 ^ 6) < s.clk
    ∃ (before after : List CtxTrap) (v : CtxTrap) (t : Team), c.traps = before ++ v :: after ∧ (∀ u ∈ before, ¬ late u) ∧ late v ∧ s.team? v.warp.team
      = some t ∧ t.ctx = ctx ∧ (s.cfgWord ctx 3).toNat < 2 ^ 12 :=
  ⟨heldState (4 + 2 ^ 16) 2, 1, theCtx (heldState (4 + 2 ^ 16) 2) 1, by decide +kernel, by decide +kernel, [held 3], [], held 2, theTeam base 1,
   by constructorm* _ ∧ _ <;> decide +kernel⟩

theorem witness_SupervisorCompletesAndWatches_5 : ∃ (s : State), s.subject = .timeout .device ∧ (∃ c ∈ s.ldr.contexts.entries, ∃ v ∈ c.2.traps,
    v.trap.rung = 4 ∧ v.since ≠ none) :=
  ⟨{ heldState 10 4 with subject := .timeout .device }, by constructorm* _ ∧ _ <;> decide +kernel⟩

theorem witness_SupervisorCompletesAndWatches_6_0 : ∃ (s : State) (n : Nat) (t : Team) (x : Warp) (c : Context), s.subject = .num n ∧ s.team? n = some
    t ∧ t.warps[0]? = some x ∧ s.context? t.ctx = some c ∧ (s.cfgWord t.ctx 3).toNat < 2 ^ 12 ∧
    let limit := 2 ^ ((s.cfgWord t.ctx 4).toNat / 2 ^ 22 % 2 ^ 5)
    (t.status ≠ .resident ∨ t.barWait < limit) :=
  ⟨watched 1023, 1, theTeam (watched 1023) 1, theWarp (watched 1023), theCtx (watched 1023) 1, by constructorm* _ ∧ _ <;> decide +kernel⟩

theorem witness_SupervisorCompletesAndWatches_6_1 : ∃ (s : State) (n : Nat) (t : Team) (x : Warp) (c : Context), s.subject = .num n ∧ s.team? n = some
    t ∧ t.warps[0]? = some x ∧ s.context? t.ctx = some c ∧ (s.cfgWord t.ctx 3).toNat < 2 ^ 12 ∧
    let limit := 2 ^ ((s.cfgWord t.ctx 4).toNat / 2 ^ 22 % 2 ^ 5)
    t.status = .resident ∧ limit ≤ t.barWait :=
  ⟨watched 1024, 1, theTeam (watched 1024) 1, theWarp (watched 1024), theCtx (watched 1024) 1, by constructorm* _ ∧ _ <;> decide +kernel⟩

theorem witness_SupervisorCompletesAndWatches_7_0 : ∃ (s : State) (ctx k : Nat) (c : Context), s.subject = .num ctx ∧ s.context? ctx = some c ∧
    c.scanSince = some k ∧ (s.clk % 2 ^ 20 ≠ 0 ∨ s.clk < k + 2 ^ 20) :=
  ⟨scanned (2 ^ 20), 1, 1, theCtx (scanned (2 ^ 20)) 1, by constructorm* _ ∧ _ <;> decide +kernel⟩

theorem witness_SupervisorCompletesAndWatches_7_1 : ∃ (s : State) (ctx k : Nat) (c : Context), s.subject = .num ctx ∧ s.context? ctx = some c ∧
    c.scanSince = some k ∧ ∃ (n : Nat) (t : Team) (x : Warp) (r : List (Nat × Team)), s.clk % 2 ^ 20 = 0 ∧ k + 2 ^ 20 ≤ s.clk ∧ s.teams.entries = (n,
    t) :: r ∧ t.ctx = ctx ∧ t.dead = false ∧ t.warps[0]? = some x ∧ (s.cfgWord ctx 3).toNat < 2 ^ 12 :=
  ⟨scanned (2 ^ 21), 1, 1, theCtx (scanned (2 ^ 21)) 1, also3 (by constructorm* _ ∧ _ <;> decide +kernel) ⟨1, theTeam base 1, theWarp base, [],
   by constructorm* _ ∧ _ <;> decide +kernel⟩⟩

theorem witness_SupervisorCompletesAndWatches_8_0 : ∃ (s : State) (id : Nat) (g : HaltGroup), s.subject = .num id ∧ s.ldr.halts.find? id = some g ∧
    (s.cfgWord g.ctx 3).toNat < 2 ^ 12 ∧ (g.halted = true ∨ s.clk < g.edge) :=
  ⟨haltState false 11, 3, aHalt false 11, by constructorm* _ ∧ _ <;> decide +kernel⟩

theorem witness_SupervisorCompletesAndWatches_8_1 : ∃ (s : State) (id : Nat) (g : HaltGroup), s.subject = .num id ∧ s.ldr.halts.find? id = some g ∧
    (s.cfgWord g.ctx 3).toNat < 2 ^ 12 ∧ g.halted = false ∧ g.edge ≤ s.clk ∧ (∀ w ∈ g.warps, s.ctxOf w.team = g.ctx) ∧ g.warps.Nodup :=
  ⟨haltState false 10, 3, aHalt false 10, by constructorm* _ ∧ _ <;> decide +kernel⟩

/-! ## Witnesses: decoding, turns, choices, traps -/

/-- The bundle of spec/02_bundles_and_ports.md's example. -/
def exBytes : List Byte :=
  [0x44, 0x20, 0x03, 0x00, 0x00, 0xE0, 0xF0, 0x04, 0x02, 0x00, 0xF0, 0xF0, 0xFB, 0xFF, 0xDF, 0x01, 0x28, 0x00, 0x00, 0x20, 0xB0, 0xF0, 0x00, 0x00,
    0x00, 0x00, 0x00, 0x78, 0x56, 0x34, 0x12, 0x00]
def exInstr : Instr :=
  match decode exBytes with
  | .ok i => i
  | _ => .haltEdge
def exBundle : Bundle :=
  match exInstr with
  | .bundleIssue b => b
  | _ => { sw := false, d := 0, lv := 0, im := 0, moves := [], slot5 := .none }
/-- The warp stands at the example, and its quad's turn is next. -/
def exState : State := { State.reset.placeBundle exBytes with clk := 10, nextId := 5, agenda := [] }
def exTurn : State := { exState with agenda := [.issue 0 0] }
def exCands : List Cand := (lookQuad { exTurn with agenda := [] } 0 0).1
def exLooked : State := (lookQuad { exTurn with agenda := [] } 0 0).2
def exGrant : List Cand := (grantQuad exLooked 0 0 exCands).1
def exGranted : State := (grantQuad exLooked 0 0 exCands).2
def exCand : Cand := (choosePick exGrant).getD noCand
theorem ex_looked : lookQuad { exTurn with agenda := [] } 0 0 = (exCands, exLooked) := by
  unfold exCands exLooked
  exact (Prod.eta _).symm
theorem ex_granted : grantQuad exLooked 0 0 exCands = (exGrant, exGranted) := by
  unfold exGrant exGranted
  exact (Prod.eta _).symm
def exIssue : State := { exState with issuing := some w0 }

def codeOf (i : Instr) (c : Cmd) : List Byte := (encode i c).getD []

theorem witness_DecodingUndoesEncoding_0 : ∃ (i : Instr) (c : Cmd) (bs : List Byte), i.wf = true ∧ (toBundle i = none → i.operandsOk c = true) ∧
    encode i c = some bs ∧ toBundle i = none :=
  ⟨.launch, aCmd 0xFFFF [2 ^ 64 - 1], codeOf .launch (aCmd 0xFFFF [2 ^ 64 - 1]), by constructorm* _ ∧ _ <;> decide +kernel⟩

theorem witness_DecodingUndoesEncoding_0_b : ∃ (i : Instr) (c : Cmd) (bs : List Byte), i.wf = true ∧ (toBundle i = none → i.operandsOk c = true) ∧
    encode i c = some bs :=
  ⟨.intAdd64 0 trig, aCmd 0 [], codeOf (.intAdd64 0 trig) (aCmd 0 []), by constructorm* _ ∧ _ <;> decide +kernel⟩

theorem witness_DecodingUndoesEncoding_1 : ∃ (bs : List Byte) (i : Instr), decode bs = .ok i ∧ toBundle i = none :=
  ⟨codeOf .pageReply (aCmd 0 [7]), .pageReply, by rfl, by decide +kernel⟩

theorem witness_IllegalBundlesAreRefused_0_0 : ∃ bs : List Byte, bs.length = 32 ∧
    let v := natOfBytes bs
    HeaderFails v :=
  ⟨List.replicate 32 0xFF, by decide +kernel, by unfold HeaderFails; decide +kernel⟩

theorem witness_IllegalBundlesAreRefused_0_1 : ∃ bs : List Byte, bs.length = 32 ∧
    let v := natOfBytes bs
    (¬ HeaderFails v) ∧ (∀ k, k < 6 → ¬ SlotFails v k) :=
  ⟨exBytes, by decide +kernel, by unfold HeaderFails; decide +kernel, by unfold SlotFails SourceFails; decide +kernel⟩

theorem witness_IllegalBundlesAreRefused_0_2 : ∃ bs : List Byte, bs.length = 32 ∧
    let v := natOfBytes bs
    (¬ HeaderFails v) ∧ (∃ k, k < 6 ∧ SlotFails v k) :=
  ⟨List.replicate 31 0 ++ [1], by decide +kernel, by unfold HeaderFails; decide +kernel,
   ⟨5, by decide +kernel, by unfold SlotFails SourceFails; decide +kernel⟩⟩

theorem witness_StepRunsTheDecodedInstruction_0 : ∃ (s : State) (core quad : Nat) (r : List Turn) (cs gs : List Cand) (s1 s2 t : State) (c : Cand) (i
    : Instr), s.inbox = [] ∧ s.agenda = .issue core quad :: r ∧ lookQuad { s with agenda := r } core quad = (cs, s1) ∧ grantQuad s1 core quad cs =
    (gs, s2) ∧ choosePick gs = some c ∧ c.act = .run i ∧ exec i { s2 with issuing := some c.w } = .next t :=
  ⟨exTurn, 0, 0, [], exCands, exGrant, exLooked, exGranted, after exInstr { exGranted with issuing := some exCand.w }, exCand, exInstr,
   by decide +kernel, by decide +kernel, ex_looked, ex_granted, by decide +kernel, by decide +kernel, next_of (by decide +kernel)⟩

theorem witness_StepRunsTheDecodedInstruction_1 : ∃ (s : State) (core quad : Nat) (c : Cand) (i : Instr), c ∈ (lookQuad s core quad).1 ∧ c.act = .run
    i :=
  ⟨exTurn, 0, 0, exCands.headD noCand, exInstr, by constructorm* _ ∧ _ <;> decide +kernel⟩

/-- The image, changed; its code is fetched. -/
def imageState (f : Image → Image) : State := exState.modLdr fun l => { l with images := l.images.modify 1 f }

theorem witness_StepRunsTheDecodedInstruction_2_0 : ∃ (s : State) (core ctx h : Nat) (pc : W32) (g : Image), handleAt s ctx (pc.toNat / 2 ^ 28) = some
    h ∧ s.ldr.images.find? h = some g ∧
    let off := pc.toNat % 2 ^ 28
    g.len < off + 32 :=
  ⟨imageState fun i => i, 0, 1, 1, 0x1E1, wordImage, by constructorm* _ ∧ _ <;> decide +kernel⟩

theorem witness_StepRunsTheDecodedInstruction_2_1 : ∃ (s : State) (core ctx h : Nat) (pc : W32) (g : Image), handleAt s ctx (pc.toNat / 2 ^ 28) = some
    h ∧ s.ldr.images.find? h = some g ∧
    let off := pc.toNat % 2 ^ 28
    off + 32 ≤ g.len ∧ g.exec = false :=
  ⟨imageState fun i => { i with exec := false }, 0, 1, 1, 0x1E0, { wordImage with exec := false }, by constructorm* _ ∧ _ <;> decide +kernel⟩

theorem witness_StepRunsTheDecodedInstruction_2_2 : ∃ (s : State) (core ctx h : Nat) (pc : W32) (g : Image), handleAt s ctx (pc.toNat / 2 ^ 28) = some
    h ∧ s.ldr.images.find? h = some g ∧
    let off := pc.toNat % 2 ^ 28
    off + 32 ≤ g.len ∧ g.exec = true ∧ g.va = none ∧ (∀ l, (s.core core).buffer.find? (bufferKey h off) = some l → l =
      { tgt := 0, dev := 0, pa := (g.base + off) / 512 * 512, olds := [] }) :=
  ⟨imageState fun i => i, 0, 1, 1, 0x1E0, wordImage, by constructorm* _ ∧ _ <;> decide +kernel⟩

theorem witness_StepRunsTheDecodedInstruction_2_3 : ∃ (s : State) (core ctx h : Nat) (pc : W32) (g : Image), handleAt s ctx (pc.toNat / 2 ^ 28) = some
    h ∧ s.ldr.images.find? h = some g ∧
    let off := pc.toNat % 2 ^ 28
    ∃ va k, off + 32 ≤ g.len ∧ g.exec = true ∧ g.va = some va ∧ (∀ own, ∃ e, fetchPlace s ctx (va + off) own = .error e ∧ e.kind = k) :=
  ⟨imageState fun i => { i with va := some 0x5000 }, 0, 1, 1, 0x1E0, { wordImage with va := some 0x5000 }, by decide +kernel, by decide +kernel,
   0x5000, 0, also3 (by constructorm* _ ∧ _ <;> decide +kernel) (fun own => ⟨{ kind := 0, s2 := false }, by cases own <;> rfl, rfl⟩)⟩

def evState : State := { exState with agenda := [.event .haltEdge (.num 3)] }
def killEntry : CmdRun := aRun .kill (aCmd 0 [3]) 64 .accepted []
def cmdState : State := { exState with agenda := [.command 5], ldr := { exState.ldr with journal := FMap.empty.insert 5 killEntry } }
def inState : State := { exState with inbox := [.step .haltEdge (.num 3)] }

theorem witness_StepRunsTheDecodedInstruction_3 : ∃ (s t : State) (i : Instr) (sub : Subject) (r : List Turn), s.inbox = [] ∧ s.agenda = .event i sub
    :: r ∧ exec i { s with agenda := r, subject := sub } = .next t :=
  ⟨evState, after .haltEdge { evState with agenda := [], subject := .num 3 }, .haltEdge, .num 3, [], by decide +kernel, by decide +kernel,
   next_of (by decide +kernel)⟩

theorem witness_StepRunsTheDecodedInstruction_4 : ∃ (s t : State) (j : Nat) (c : CmdRun) (i : Instr) (r : List Turn), s.inbox = [] ∧ s.agenda =
    .command j :: r ∧ s.ldr.journal.find? j = some c ∧ decode c.entry = .ok i ∧ c.entry.length = 64 ∧ exec i { s with agenda := r, curCmd := some j }
    = .next t :=
  ⟨cmdState, after .kill { cmdState with agenda := [], curCmd := some 5 }, 5, killEntry, .kill, [],
   also3 (by constructorm* _ ∧ _ <;> decide +kernel) ⟨by rfl, by decide +kernel, next_of (by decide +kernel)⟩⟩

theorem witness_StepRunsTheDecodedInstruction_5 : ∃ (s t : State) (i : Instr) (sub : Subject) (r : List Stimulus), s.inbox = .step i sub :: r ∧ exec i
    { s with inbox := r, subject := sub } = .next t :=
  ⟨inState, after .haltEdge { inState with inbox := [], subject := .num 3 }, .haltEdge, .num 3, [], by decide +kernel, next_of (by decide +kernel)⟩

theorem witness_StepRunsTheDecodedInstruction_6 : ∃ s : State, s.inbox = [] ∧ s.agenda = [] :=
  ⟨exState, by constructorm* _ ∧ _ <;> decide +kernel⟩

/-- The warp, all of whose lanes have waited, without a handler. -/
def aged (n : Nat) : Warp := { theWarp base with lanes := (theWarp base).lanes.map fun y => { y with age := n } }
theorem no_handlers {x : Warp} {P : Handler → Prop} (e : x.handlers = []) : ∀ h r, x.handlers = h :: r → P h := by
  intro h r k
  rw [e] at k
  cases k
theorem aged_below (n : Nat) (h : (decide (0 < 256) && (aged n).lanes.all fun y => decide (y.age < 256)) = true) : ∀ l, ((aged n).lane l).age < 256 :=
  fun l => of_decide_eq_true (all_lanes (p := fun y => decide (y.age < 256)) h l)
def threeCands : List Cand := [aCand 1 3 4 false 5, aCand 2 1 7 true 511, aCand 3 9 0 false 512]

theorem witness_LanesAndWarpsAreChosen_0_0 : ∃ x : Warp, x.w32 = false ∧ ∃ c, x.choose = some c :=
  ⟨aged 255, by decide +kernel, choiceOf base (aged 255), by decide +kernel⟩

theorem witness_LanesAndWarpsAreChosen_0_1 : ∃ x : Warp, x.w32 = false ∧
    let may := fun l => l < 64 ∧ (x.lane l).live = true ∧ (x.lane l).wait = none ∧ ∀ h r, x.handlers = h :: r → h.lanes.getLsbD l = true
    ∃ c, x.choose = some c ∧ (∀ l, may l → (x.lane l).age < 256) ∧ ∃ l, may l :=
  ⟨aged 255, by decide +kernel, choiceOf base (aged 255), by decide +kernel, fun l _ => aged_below 255 (by decide +kernel) l, 63,
   ⟨by decide +kernel, by decide +kernel, by decide +kernel, no_handlers (by decide +kernel)⟩⟩

theorem witness_LanesAndWarpsAreChosen_0_2 : ∃ x : Warp, x.w32 = false ∧
    let may := fun l => l < 64 ∧ (x.lane l).live = true ∧ (x.lane l).wait = none ∧ ∀ h r, x.handlers = h :: r → h.lanes.getLsbD l = true
    ∃ c, x.choose = some c ∧ (∃ l, may l ∧ 256 ≤ (x.lane l).age) :=
  ⟨aged 256, by decide +kernel, choiceOf base (aged 256), by decide +kernel,
   ⟨0, ⟨by decide +kernel, by decide +kernel, by decide +kernel, no_handlers (by decide +kernel)⟩, by decide +kernel⟩⟩

theorem witness_LanesAndWarpsAreChosen_1 : ∃ cs : List Cand, (∀ c ∈ cs, c.prio ≤ 7 ∧ c.readyWait < 2 ^ 64) ∧ ∃ c, pickOf cs = some c :=
  ⟨threeCands, by decide +kernel, aCand 3 9 0 false 512, by decide +kernel⟩

theorem witness_DelayHoldsTheNextBundle_0 : ∃ (s s' : State) (w : WRef) (x x' : Warp) (b : Bundle), s.issuing = some w ∧ s.warp? w = some x ∧ exec
    (.bundleIssue b) s = .next s' ∧ s'.warp? w = some x' ∧ x'.committed = x.committed + 1 :=
  ⟨exIssue, after (.bundleIssue exBundle) exIssue, w0, theWarp exIssue, theWarp (after (.bundleIssue exBundle) exIssue), exBundle, by decide +kernel,
   by decide +kernel, next_of (by decide +kernel), by constructorm* _ ∧ _ <;> decide +kernel⟩

def delayed (n : Nat) : State := { exState.modWarp w0 (fun x => { x with delayTo := n }) with subject := .warp w0 }

theorem witness_DelayHoldsTheNextBundle_1 : ∃ (s : State) (w : WRef) (x : Warp), s.subject = .warp w ∧ s.warp? w = some x ∧ s.clk < x.delayTo :=
  ⟨delayed 11, w0, theWarp (delayed 11), by constructorm* _ ∧ _ <;> decide +kernel⟩

theorem witness_DelayHoldsTheNextBundle_2 : ∃ (s : State) (core quad : Nat) (c : Cand), c ∈ (lookQuad s core quad).1 :=
  ⟨exTurn, 0, 0, exCands.headD noCand, by decide +kernel⟩

theorem witness_ThrottleFollowsDeflections_1 : ∃ (s : State) (r out : Nat) (f : Flit) (m : Message), s.subject = .num r ∧ r < 72 ∧
    s.eng.fab.flits.filter (fun g => decide (g.router = r)) = [f] ∧ s.message? f.msg = some m ∧ m.xd = false ∧ m.dst < 72 ∧ (¬ (m.dst = r ∧ m.dstEp /
    4 ∉ (s.router r).eject)) ∧ (meshWays r m.dst).find? (fun o => !(s.router r).taken.contains o) = none ∧ ([0, 1, 2, 3].find? fun o => meshHas r o &&
    !(s.router r).taken.contains o) = some out :=
  ⟨flitState 27 (aMsg 28 3) [1], 27, 0, aFlit 27, aMsg 28 3, by constructorm* _ ∧ _ <;> decide +kernel⟩

theorem witness_ThrottleFollowsDeflections_2 : ∃ (s : State) (r : Nat), s.clk % 256 = 0 :=
  ⟨{ base with clk := 256 }, 71, by decide +kernel⟩

theorem witness_ThrottleFollowsDeflections_3 : ∃ (s : State) (r : Nat), s.subject = .num r :=
  ⟨{ base with subject := .num 71 }, 71, by decide +kernel⟩

def bankHandler : Handler := { aHandler 1 3 with guards := List.replicate 15 3 }
def trapState (v0 v1 : Nat) (hs : List Handler) (permits : Nat) : State :=
  (((withCtx2 base).modLdr fun l =>
      { l with images := l.images.modify 1 fun i => { i with tvec0 := BitVec.ofNat 32 v0, tvec1 := BitVec.ofNat 32 v1 } }).modCore 0
    fun k => { k with permits := permits }).modWarp w0 fun x => { x with handlers := hs }
def aReq : TrapReq := TrapReq.pre 0x03 8 1 [0, 63] 0x20

theorem witness_TrapsEnterAndHandlersReturn_0 : ∃ (s : State) (w : WRef) (q : TrapReq) (t : Team) (x : Warp) (r : Nat), OnTrap s w q t x ∧ EntersAt s
    t x q r ∧ r ≤ 1 ∧ (x.handlers ≠ [] ∨ 0 < (s.core t.core).permits) :=
  ⟨(trapState 0x100 0x200 [] 1), w0, aReq, theTeam (trapState 0x100 0x200 [] 1) 1, theWarp (trapState 0x100 0x200 [] 1), 0,
   by constructor <;> decide +kernel, enters_at (by decide +kernel), by constructorm* _ ∧ _ <;> decide +kernel⟩

theorem witness_TrapsEnterAndHandlersReturn_0_b : ∃ (s : State) (w : WRef) (q : TrapReq) (t : Team) (x : Warp) (r : Nat), OnTrap s w q t x ∧ EntersAt
    s t x q r ∧ r ≤ 1 ∧ (x.handlers ≠ [] ∨ 0 < (s.core t.core).permits) :=
  ⟨(trapState 0x100 0x200 [aHandler 0 3] 0), w0, aReq, theTeam (trapState 0x100 0x200 [aHandler 0 3] 0) 1,
   theWarp (trapState 0x100 0x200 [aHandler 0 3] 0), 1, by constructor <;> decide +kernel, enters_at (by decide +kernel),
   by constructorm* _ ∧ _ <;> decide +kernel⟩

theorem witness_TrapsEnterAndHandlersReturn_1 : ∃ (s : State) (w : WRef) (q : TrapReq) (t : Team) (x : Warp) (r : Nat), OnTrap s w q t x ∧ EntersAt s
    t x q r ∧ r ≤ 1 ∧ x.handlers = [] ∧ (s.core t.core).permits = 0 :=
  ⟨(trapState 0 0x200 [] 0), w0, aReq, theTeam (trapState 0 0x200 [] 0) 1, theWarp (trapState 0 0x200 [] 0), 1, by constructor <;> decide +kernel,
   enters_at (by decide +kernel), by constructorm* _ ∧ _ <;> decide +kernel⟩

theorem witness_TrapsEnterAndHandlersReturn_2_0 : ∃ (s : State) (w : WRef) (q : TrapReq) (t : Team) (x : Warp) (r : Nat), OnTrap s w q t x ∧ EntersAt
    s t x q r ∧ 2 ≤ r ∧ ∃ j, j ≠ w.team :=
  ⟨(trapState 0 0 [] 4), w0, aReq, theTeam (trapState 0 0 [] 4) 1, theWarp (trapState 0 0 [] 4), 2, by constructor <;> decide +kernel,
   enters_at (by decide +kernel), by decide +kernel, 2, by decide +kernel⟩

theorem witness_TrapsEnterAndHandlersReturn_2_1 : ∃ (s : State) (w : WRef) (q : TrapReq) (t : Team) (x : Warp) (r : Nat), OnTrap s w q t x ∧ EntersAt
    s t x q r ∧ 2 ≤ r ∧ ∃ c y, s.context? c = some y :=
  ⟨(trapState 0 0 [] 4), w0, aReq, theTeam (trapState 0 0 [] 4) 1, theWarp (trapState 0 0 [] 4), 2, by constructor <;> decide +kernel,
   enters_at (by decide +kernel), by decide +kernel, 2, theCtx (withCtx2 base) 2, by decide +kernel⟩

theorem witness_TrapsEnterAndHandlersReturn_2_2 : ∃ (s : State) (w : WRef) (q : TrapReq) (t : Team) (x : Warp) (r : Nat), OnTrap s w q t x ∧ EntersAt
    s t x q r ∧ 2 ≤ r ∧ ∃ n u, (n, u) ∈ s.teams.entries ∧ stopsContext s r t.ctx u.ctx ∧ u.status = .resident :=
  ⟨(trapState 0 0 [aHandler 1 3] 4), w0, aReq, theTeam (trapState 0 0 [aHandler 1 3] 4) 1, theWarp (trapState 0 0 [aHandler 1 3] 4), 2,
   by constructor <;> decide +kernel, enters_at (by decide +kernel), by decide +kernel, 1, theTeam (trapState 0 0 [aHandler 1 3] 4) 1,
   by decide +kernel, by unfold stopsContext; decide +kernel, by decide +kernel⟩

def retOp : Op := { anOp 17 2 [anItem 1 0 0 .go none 0, anItem 2 0 0 .go none 0] with clk := 9 }
def retState : State := laneOn (trapState 0x100 0x200 [bankHandler, aHandler 0 3] 4) retOp 1

theorem witness_TrapsEnterAndHandlersReturn_3 : ∃ (s : State) (p : Pick) (t : Team) (h : Handler) (rest : List Handler) (i : Item) (more : List Item),
    OnLane s p ∧ p.op.unit = 17 ∧ p.op.opc = 2 ∧ p.op.clk < s.clk ∧ p.op.items = i :: more ∧ s.team? p.w.team = some t ∧ (s.cfgWord t.ctx 3).toNat < 2
    ^ 12 ∧ p.warp.handlers = h :: rest ∧ p.warp.owesPermit = false ∧ (∀ u ∈ handlerUnits, ∀ e ∈ (p.warp.unit u).y.entries ++ (p.warp.unit
    u).y2.entries, (e.2.filled = true ∧ e.2.tag = 0) ∨ (u = 17 ∧ (p.warp.unit 17).last.find? e.1 = some p.op.id)) ∧ h.ports.wf = true ∧ (∀ u, u ∉
    handlerUnits → h.ports.find? u = none) :=
  ⟨retState, lanePick retState retOp (anItem 1 0 0 .go none 0), theTeam retState 1, bankHandler, [aHandler 0 3], anItem 1 0 0 .go none 0,
   [anItem 2 0 0 .go none 0], on_lane (by decide +kernel),
   also6 (by constructorm* _ ∧ _ <;> decide +kernel) (also4 (by constructorm* _ ∧ _ <;> decide +kernel) (fun _ _ => rfl))⟩

end Sys2Proof.Tests
end

section
/-! PROOFS. The pace of a warp: its mode, the clk from which its delay lets it issue, and its count of committed bundles
(spec/02_bundles_and_ports.md R96). Nothing that a bundle writes or starts changes a pace; the commit alone does. -/

namespace Sys2Proof.Machine

/-- What R96 speaks of: scheduled mode, the end of the delay, and the bundles that have committed. -/
structure Pace where
  sched : Bool
  delayTo : Nat
  committed : BitVec 48

/-- The pace of a warp. -/
def Warp.pace (x : Warp) : Pace := { sched := x.sched, delayTo := x.delayTo, committed := x.committed }

/-- The paces of a team's warps, by number. -/
def Team.paces (t : Team) : List Pace := t.warps.map Warp.pace

/-- The pace of the warp that `w` names, if there is one. -/
def State.pace (s : State) (w : WRef) : Option Pace := (s.warp? w).map Warp.pace

/-- The same warps are there, each at its pace. -/
structure SamePace (s s' : State) : Prop where
  pace : ∀ w, s'.pace w = s.pace w

/-! ## Changes of a warp that keep its pace -/

@[simp] theorem Warp.pace_modLane (x : Warp) (l : Nat) (f : Lane → Lane) : (x.modLane l f).pace = x.pace := rfl
@[simp] theorem Warp.pace_modHalf (x : Warp) (h : Nat) (f : Half → Half) : (x.modHalf h f).pace = x.pace := rfl
@[simp] theorem Warp.pace_trigger (x : Warp) (u id l : Nat) : (x.trigger u id l).pace = x.pace := rfl
@[simp] theorem Warp.pace_tidy (x : Warp) : x.tidy.pace = x.pace := rfl
@[simp] theorem Warp.pace_enterHandler (clk rung : Nat) (vec : W32) (q : TrapReq) (x : Warp) :
    (enterHandler clk rung vec q x).pace = x.pace := rfl

@[simp] theorem Warp.pace_fill (x : Warp) (u id l : Nat) (y y2 : Elem) : (x.fill u id l y y2).pace = x.pace := by
  unfold Warp.fill
  split <;> rfl

@[simp] theorem Warp.pace_seqFill (x : Warp) (id l : Nat) (v : W64) : (seqFill x id l v).pace = x.pace := x.pace_fill _ _ _ _ _

/-- Changes that keep the pace keep it in a row. -/
theorem Warp.pace_foldOver {α : Type} {f : Warp → α → Warp} (h : ∀ x a, (f x a).pace = x.pace) (l : List α) (x : Warp) :
    (foldOver f x l).pace = x.pace :=
  foldOver_keeps (fun y => y.pace = x.pace) f l x rfl fun y a e => (h y a).trans e

/-- Steps of lanes change lanes and loops alone. -/
theorem Stepped.pace {x y : Warp} (h : Stepped x y) : y.pace = x.pace := by
  have e := congrArg Warp.pace h.eq
  exact e

@[simp] theorem Warp.pace_leaveLevel (x : Warp) (l k : Nat) : (x.leaveLevel l k).pace = x.pace := (leaveLevel_stepped x l k).pace
@[simp] theorem Warp.pace_completeLane (n : Nat) (x : Warp) (l k : Nat) : (x.completeLane n l k).pace = x.pace :=
  (completeLane_stepped n x l k).pace
@[simp] theorem Warp.pace_stepLanes (x : Warp) (pc : W32) (ls : List Nat) : (x.stepLanes pc ls).pace = x.pace :=
  (stepLanes_stepped x pc ls).pace

/-! ## Writes of a bundle -/

theorem writeDst_pace (x : Warp) (d : RDst) (l : Nat) (v : W64) : (writeDst x d l v).pace = x.pace := by
  cases d with
  | guard k => unfold writeDst; dsimp only; split <;> rfl
  | reg n => rfl
  | pair n => rfl
  | flags => rfl
  | operand u off => rfl

/-- A write that also mends poison keeps the pace: both steps change other fields. -/
theorem writeMove_pace (clk : Nat) (d : RDst) (vs : List (Nat × W64)) (x : Warp) : (writeMove clk d vs x).pace = x.pace := by
  have written : (foldOver (fun y (v : Nat × W64) => writeDst y d v.1 v.2) x vs).pace = x.pace :=
    Warp.pace_foldOver (fun y v => writeDst_pace y d v.1 v.2) vs x
  unfold writeMove
  dsimp only
  generalize foldOver (fun y (v : Nat × W64) => writeDst y d v.1 v.2) x vs = y at written ⊢
  have mended (p : List (Nat × Nat)) : (if y.poison.isEmpty then y else { y with poison := p }).pace = x.pace := by
    split <;> exact written
  cases d with
  | flags =>
    dsimp only
    split
    · exact mended _
    · exact mended _
  | reg n => exact mended _
  | pair n => exact mended _
  | guard k => exact mended _
  | operand u off => exact mended _

theorem writeAll_pace (s : State) (t : Team) (wn : Nat) (x : Warp) (active : W64) (pc : W32) (ls : List Nat) (ms : List RMove) :
    (writeAll s t wn x active pc ls ms).pace = x.pace := by
  refine Warp.pace_foldOver (fun y m => ?_) ms x
  split
  · rfl
  · exact writeMove_pace _ _ _ y

theorem advanceStreams_pace (x : Warp) (ls : List Nat) (ms : List RMove) (w : Warp) : (advanceStreams x ls ms w).pace = w.pace := by
  obtain ⟨m, e⟩ := advanceStreams_eq x ls ms w
  rw [e]
  rfl

theorem countSlots_pace (pc : W32) (h : Nat) (insts : List Nat) (x w : Warp) : (countSlots pc h insts x w).pace = w.pace := by
  obtain ⟨m, e⟩ := countSlots_eq pc h insts x w
  rw [e]
  rfl

/-! ## Changes of the state -/

theorem State.warp?_of_teams {s s' : State} (h : s'.teams = s.teams) (w : WRef) : s'.warp? w = s.warp? w := by
  unfold State.warp? State.team?
  rw [h]

theorem State.pace_eq_paces (s : State) (w : WRef) : s.pace w = (s.team? w.team).bind fun t => t.paces[w.warp]? := by
  unfold State.pace State.warp? Team.paces
  cases s.team? w.team <;> simp

theorem State.pace_modWarp (s : State) (v w : WRef) (f : Warp → Warp) :
    (s.modWarp w f).pace v = if v = w then (s.warp? w).map fun x => (f x).pace else s.pace v := by
  unfold State.pace
  rw [State.warp?_modWarp]
  split
  · exact Option.map_map ..
  · rfl

/-- A change of a warp that acts on its pace. -/
theorem State.pace_modWarp_same (s : State) (w : WRef) {f : Warp → Warp} {g : Pace → Pace} (h : ∀ x, (f x).pace = g x.pace) :
    (s.modWarp w f).pace w = (s.pace w).map g := by
  rw [State.pace_modWarp, if_pos rfl, State.pace, Option.map_map]
  exact congrFun (congrArg Option.map (funext h)) _

namespace SamePace

theorem refl (s : State) : SamePace s s := ⟨fun _ => rfl⟩

theorem trans {s t u : State} (h : SamePace s t) (g : SamePace t u) : SamePace s u := ⟨fun w => (g.pace w).trans (h.pace w)⟩

/-- A change outside the teams. -/
theorem of_teams {s s' : State} (h : s'.teams = s.teams) : SamePace s s' :=
  ⟨fun w => by rw [State.pace, State.pace, State.warp?_of_teams h]⟩

theorem setTeam {s : State} {n : Nat} {t u : Team} (ht : s.team? n = some t) (hp : u.paces = t.paces) :
    SamePace s (s.setTeam n u) := by
  refine ⟨fun w => ?_⟩
  rw [State.pace_eq_paces, State.pace_eq_paces]
  by_cases h : w.team = n
  · rw [h, ht, State.team?_setTeam_same, Option.bind_some, Option.bind_some, hp]
  · rw [State.team?_setTeam_other _ _ h]

theorem modTeam (s : State) (n : Nat) {f : Team → Team} (h : ∀ t, (f t).paces = t.paces) : SamePace s (s.modTeam n f) := by
  unfold State.modTeam
  split
  · next t ht => exact setTeam ht (h t)
  · exact refl s

theorem modWarp (s : State) (w : WRef) {f : Warp → Warp} (h : ∀ x, (f x).pace = x.pace) : SamePace s (s.modWarp w f) := by
  refine ⟨fun v => ?_⟩
  rw [State.pace_modWarp]
  split
  · next e => rw [e, State.pace, funext h]
  · rfl

theorem setWarp {s : State} {w : WRef} {x y : Warp} (hx : s.warp? w = some x) (hp : y.pace = x.pace) :
    SamePace s (s.setWarp w y) := by
  refine ⟨fun v => ?_⟩
  rw [State.setWarp, State.pace_modWarp]
  split
  · next e => rw [e, State.pace, hx]; exact congrArg some hp
  · rfl

/-- Steps that each keep every pace keep it in a row. -/
theorem foldOver {α : Type} {f : State → α → State} {l : List α} (h : ∀ s, ∀ a ∈ l, SamePace s (f s a)) (s : State) :
    SamePace s (foldOver f s l) := by
  induction l generalizing s with
  | nil => exact refl s
  | cons a r ih => exact (h s a List.mem_cons_self).trans (ih (fun t b hb => h t b (List.mem_cons_of_mem a hb)) _)

end SamePace

/-! ## Records of a trap or a trigger -/

theorem countEvent_teams (s : State) (c ev : Nat) : (countEvent s c ev).teams = s.teams := by
  unfold countEvent
  dsimp only
  split <;> rfl

theorem keepOldCode_teams (s : State) (tgt dev : Nat) (l : List (Nat × Byte)) : (keepOldCode s tgt dev l).teams = s.teams := by
  unfold keepOldCode
  split <;> rfl

/-- New unspecified items take free values and change deques. -/
theorem spoilDeques_teams (s : State) (l : List (Nat × Byte)) : (spoilDeques s l).teams = s.teams := by
  unfold spoilDeques
  refine foldOver_keeps (fun t => t.teams = s.teams) _ _ s rfl fun t e ht => ?_
  dsimp only
  split
  · exact foldOver_keeps (fun (a : List W64 × State) => a.2.teams = s.teams) _ _ _ ht fun _ _ ha => ha
  · exact ht

theorem writeEverywhere_teams (s : State) (job : Option Nat) (l : List (Nat × Byte)) : (writeEverywhere s job l).teams = s.teams := by
  unfold writeEverywhere
  rw [State.pushTurns_teams, spoilDeques_teams]
  exact keepOldCode_teams s 0 0 l

theorem trace_teams (s : State) (r : TraceReq) : (trace s r).2.teams = s.teams := by
  unfold trace
  dsimp only
  split
  · rfl
  · split
    · rfl
    · split
      · dsimp only
        split
        · exact writeEverywhere_teams _ _ _
        · rfl
      · rfl

theorem traceWarp_teams (s : State) (w : WRef) (type : Nat) (value : W64) (pc : W32) : (traceWarp s w type value pc).2.teams = s.teams := by
  unfold traceWarp
  split
  · exact trace_teams _ _
  · rfl

theorem haltBy_teams (s : State) (w : WRef) (pc : W32) (a : W64) : (haltBy s w pc a).2.teams = s.teams := by
  unfold haltBy
  dsimp only
  split <;> rfl

/-! ## Traps -/

theorem backOff_samePace (s : State) (w : WRef) : SamePace s (backOff s w) := .modWarp s w fun _ => rfl

theorem noteTrap_samePace (s : State) (w : WRef) (q : TrapReq) : SamePace s (noteTrap s w q) := by
  unfold noteTrap
  split
  · exact .of_teams ((trace_teams _ _).trans (countEvent_teams _ _ _))
  · exact .refl s

theorem giveUpPermit_samePace (s : State) (w : WRef) : SamePace s (giveUpPermit s w) := by
  unfold giveUpPermit
  split
  · split
    · exact (SamePace.of_teams (State.modCore_teams ..)).trans (.modWarp _ w fun _ => rfl)
    · exact .refl s
  · exact .refl s

theorem contextTrap_teams (s : State) (w : WRef) (rung : Nat) (q : TrapReq) (values : List W64) :
    (contextTrap s w rung q values).teams = s.teams := by
  unfold contextTrap
  split <;> rfl

/-- A trap delivered or held back keeps every pace: the delay of the trapping warp stays as the commit left it. -/
theorem takeTrap_samePace (s : State) (w : WRef) (q : TrapReq) : SamePace s (takeTrap s w q) := by
  unfold takeTrap
  split
  · dsimp only
    split
    · exact backOff_samePace s w
    · refine (noteTrap_samePace s w q).trans ?_
      split
      · refine SamePace.trans ?_ (.modWarp _ w fun x => Warp.pace_enterHandler _ _ _ q x)
        split
        · exact .of_teams (State.modCore_teams ..)
        · exact .refl _
      · exact (giveUpPermit_samePace _ w).trans (.of_teams (contextTrap_teams ..))
  · exact .refl s

end Sys2Proof.Machine
end

section
/-! PROOFS. What a trigger starts keeps the pace of every warp, opcode by opcode. -/

namespace Sys2Proof.Machine

/-- The start of an operation keeps the pace of every warp. -/
structure OpSpec.KeepsPace (o : OpSpec) : Prop where
  start : ∀ s b, SamePace s (o.start s b)

/-! ## Lane units -/

theorem startFill_samePace (u opc lat : Nat) (res : State → Warp → Begin → List LaneRes) (s : State) (b : Begin) :
    SamePace s (startFill u opc lat res s b) := .modWarp s b.w fun _ => rfl

/-- A result that also holds a unit of the quad. -/
theorem startFill_modQuad_samePace (u opc lat : Nat) (res : State → Warp → Begin → List LaneRes) (s : State) (b : Begin)
    (c q : Nat) (f : Quad → Quad) : SamePace s ((startFill u opc lat res s b).modQuad c q f) :=
  (startFill_samePace u opc lat res s b).trans (.of_teams (State.modQuad_teams ..))

theorem mulOp_keepsPace (opc : Nat) (f : W64 → W64 → W64 → W64) : (mulOp opc f).KeepsPace := ⟨startFill_samePace _ _ _ _⟩

theorem startDivision_samePace (opc : Nat) (signed : Bool) (f : W64 → W64 → W64 × W64) (s : State) (b : Begin) :
    SamePace s (startDivision opc signed f s b) := by
  unfold startDivision
  split
  · exact .refl s
  · exact startFill_modQuad_samePace ..

theorem divOp_keepsPace (opc : Nat) (signed : Bool) (f : W64 → W64 → W64 × W64) : (divOp opc signed f).KeepsPace :=
  ⟨startDivision_samePace opc signed f⟩

theorem startSfn_samePace (opc lat : Nat) (f : FEnv → W64 → W64 → FRes) (s : State) (b : Begin) :
    SamePace s (startSfn opc lat f s b) := by
  unfold startSfn
  exact startFill_modQuad_samePace ..

theorem sfnOp_keepsPace (opc lat : Nat) (f : FEnv → W64 → W64 → FRes) : (sfnOp opc lat f).KeepsPace := ⟨startSfn_samePace opc lat f⟩

theorem startFma_samePace (u : Fin 2) (opc : Nat) (f : FEnv → W64 → W64 → W64 → FRes) (s : State) (b : Begin) :
    SamePace s (startFma u opc f s b) := by
  unfold startFma
  exact startFill_modQuad_samePace ..

theorem fmaOp_keepsPace (u : Fin 2) (opc : Nat) (f : FEnv → W64 → W64 → W64 → FRes) : (fmaOp u opc f).KeepsPace :=
  ⟨startFma_samePace u opc f⟩

theorem intOps_keepPace (u : Fin 2) : (intOps u).Forall OpSpec.KeepsPace := by
  simp only [intOps, List.Forall]
  and_intros <;> exact ⟨startFill_samePace _ _ _ _⟩

theorem mulOps_keepPace : mulOps.Forall OpSpec.KeepsPace := by
  simp only [mulOps, List.Forall]
  exact ⟨mulOp_keepsPace .., mulOp_keepsPace .., mulOp_keepsPace .., mulOp_keepsPace .., mulOp_keepsPace .., mulOp_keepsPace ..,
    mulOp_keepsPace .., mulOp_keepsPace .., mulOp_keepsPace .., divOp_keepsPace .., divOp_keepsPace .., divOp_keepsPace ..,
    divOp_keepsPace ..⟩

theorem fmaOps_keepPace (u : Fin 2) : (fmaOps u).Forall OpSpec.KeepsPace := by
  simp only [fmaOps, List.Forall]
  and_intros <;> exact fmaOp_keepsPace ..

theorem cmpOps_keepPace : cmpOps.Forall OpSpec.KeepsPace := by
  simp only [cmpOps, List.Forall]
  and_intros <;> exact ⟨startFill_samePace _ _ _ _⟩

theorem sfnOps_keepPace : sfnOps.Forall OpSpec.KeepsPace := by
  simp only [sfnOps, List.Forall]
  and_intros <;> exact sfnOp_keepsPace ..

/-- Packs differ from the other conversions in their check alone. -/
theorem cvtOps_keepPace : cvtOps.Forall OpSpec.KeepsPace := by
  simp only [cvtOps, List.Forall]
  and_intros <;> exact ⟨startFill_samePace _ _ _ _⟩

/-! ## Memory and snap -/

theorem toArbiter_paces (o : Op) (warp : Nat) (t : Team) : (toArbiter o warp t).paces = t.paces := by
  unfold toArbiter
  dsimp only
  split <;> rfl

theorem mustRead_pace (u n : Nat) (ls : List Nat) (x : Warp) : (mustRead u n ls x).pace = x.pace := by
  unfold mustRead
  split <;> rfl

theorem parkMonitor_pace (n id : Nat) (ls : List Nat) (x : Warp) : (parkMonitor n id ls x).pace = x.pace := by
  unfold parkMonitor
  split
  · exact Warp.pace_foldOver (fun y l => y.pace_modLane l _) ls x
  · rfl

theorem enqueue_pace (o : Op) (x : Warp) : (enqueue o x).pace = x.pace := by
  unfold enqueue
  split <;> rfl

/-- A memory operation joins its warp, the store queue or the arbiter, and may park lanes. -/
theorem startMem_samePace (u n : Nat) (s : State) (b : Begin) : SamePace s (startMem u n s b) := by
  unfold startMem
  split
  · exact .refl s
  · next x hx =>
    refine (SamePace.setWarp hx ?_).trans (.modTeam _ _ (toArbiter_paces _ _))
    rw [enqueue_pace, parkMonitor_pace]
    exact mustRead_pace u n b.lanes (cancelLoads u b.lanes x)

theorem memOp_keepsPace (u : Fin 2) (n : Nat) : (memOp u n).KeepsPace := ⟨startMem_samePace (unitMem u) n⟩

theorem memOps_keepPace (u : Fin 2) : (memOps u).Forall OpSpec.KeepsPace := by
  simp only [memOps, List.Forall]
  and_intros <;> exact memOp_keepsPace ..

theorem startOp_samePace (u n : Nat) (stage : Stage) (mode : Warp → Begin → W64) (s : State) (b : Begin) :
    SamePace s (startOp u n stage mode s b) := .modWarp s b.w fun _ => rfl

theorem snapOps_keepPace : snapOps.Forall OpSpec.KeepsPace := by
  simp only [snapOps, List.Forall]
  and_intros <;> exact ⟨startOp_samePace _ _ _ _⟩

/-! ## The copy engine -/

theorem takeCopyClk_samePace (s : State) (w : WRef) : SamePace s (takeCopyClk s w) := .of_teams (State.modCore_teams ..)

theorem modJob_samePace (s : State) (team j : Nat) (f : Job → Job) : SamePace s (s.modJob team j f) := .modTeam s team fun _ => rfl

theorem fillVal_samePace (s : State) (w : WRef) (u id l : Nat) (y y2 : W64) : SamePace s (fillVal s w u id l y y2) :=
  .modWarp s w fun x => x.pace_fill ..

theorem addCopyOp_samePace (n : Nat) (s : State) (b : Begin) (items : List Item) : SamePace s (addCopyOp n s b items) :=
  .modWarp s b.w fun _ => rfl

theorem submitCopy_samePace (n : Nat) (b : Begin) (s : State) (l : Nat) : SamePace s (submitCopy n b s l) := by
  unfold submitCopy
  split
  · next t x _ _ =>
    have submitted (j : Job) : SamePace s ((takeId s).2.modTeam b.w.team fun t => { t with jobs := t.jobs ++ [j] }) :=
      (SamePace.of_teams (State.takeId_teams s)).trans (.modTeam _ _ fun _ => rfl)
    dsimp only
    split
    · exact (submitted _).trans (.modWarp _ _ fun _ => rfl)
    · exact submitted _
  · exact .refl s

theorem startCopy_samePace (n : Nat) (s : State) (b : Begin) : SamePace s (startCopy n s b) :=
  (takeCopyClk_samePace s b.w).trans (.foldOver (fun s l _ => submitCopy_samePace n b s l) _)

theorem unbindStream_samePace (s : State) (w : WRef) (k : Nat) :
    SamePace s (s.modWarp w fun x => { x with streams := x.streams.erase k }) := .modWarp s w fun _ => rfl

theorem closeLane_samePace (b : Begin) (s : State) (l : Nat) : SamePace s (closeLane b s l) := by
  unfold closeLane
  split
  · next t x _ _ =>
    dsimp only
    split
    · exact fillVal_samePace ..
    · refine (unbindStream_samePace s b.w (x.port unitCp offA l).toNat).trans ?_
      split
      · exact fillVal_samePace ..
      · exact (modJob_samePace ..).trans (.modWarp _ _ fun _ => rfl)
  · exact .refl s

theorem cancelLane_samePace (b : Begin) (s : State) (l : Nat) : SamePace s (cancelLane b s l) := by
  have cancelled (js : List Job) : SamePace s (foldOver (fun s j => s.modJob b.w.team j.id Job.cancels) s js) :=
    .foldOver (fun s (j : Job) _ => modJob_samePace s b.w.team j.id Job.cancels) s
  unfold cancelLane
  split
  · dsimp only
    split
    · exact (cancelled _).trans (fillVal_samePace ..)
    · exact (cancelled _).trans (.modWarp _ _ fun _ => rfl)
  · exact .refl s

theorem startStop_samePace (n : Nat) {f : Begin → State → Nat → State} (h : ∀ b s l, SamePace s (f b s l)) (s : State) (b : Begin) :
    SamePace s (startStop n f s b) := by
  have added : SamePace s (addCopyOp n (takeCopyClk s b.w) b []) := (takeCopyClk_samePace s b.w).trans (addCopyOp_samePace ..)
  exact (added.trans (.foldOver (fun s l _ => h b s l) _)).trans (.modWarp _ _ Warp.pace_tidy)

theorem startBarWait_samePace (s : State) (b : Begin) : SamePace s (startBarWait s b) := by
  unfold startBarWait
  dsimp only
  refine (takeCopyClk_samePace s b.w).trans ?_
  split
  · exact .refl _
  · exact (addCopyOp_samePace ..).trans (.modWarp _ _ fun x => Warp.pace_foldOver (fun y l => y.pace_modLane l _) b.lanes x)

theorem startPoll_samePace (s : State) (b : Begin) : SamePace s (startPoll s b) := by
  unfold startPoll
  dsimp only
  refine (takeCopyClk_samePace s b.w).trans ?_
  split
  · exact .refl _
  · exact addCopyOp_samePace ..

theorem cpOps_keepPace : cpOps.Forall OpSpec.KeepsPace := by
  simp only [cpOps, List.Forall]
  have job (n : Nat) : (copyOp n (startCopy n)).KeepsPace := ⟨startCopy_samePace n⟩
  exact ⟨job 0, job 1, job 2, job 3, job 4, job 5, job 6, job 7, job 8, ⟨startStop_samePace 9 closeLane_samePace⟩, job 10, job 11,
    ⟨startBarWait_samePace⟩, job 13, job 14, ⟨startStop_samePace 15 cancelLane_samePace⟩, ⟨startPoll_samePace⟩⟩

/-! ## The matrix engine -/

theorem takeMxClk_samePace (s : State) (w : WRef) : SamePace s (takeMxClk s w) := .of_teams (State.modCore_teams ..)

theorem startMx_samePace (n : Nat) (s : State) (b : Begin) : SamePace s (startMx n s b) := by
  unfold startMx
  dsimp only
  refine (takeMxClk_samePace s b.w).trans ?_
  split
  · next t x ht hx => exact (SamePace.of_teams (State.takeId_teams _)).trans (.setTeam ht rfl)
  · exact .refl _

theorem startScaleSet_samePace (s : State) (b : Begin) : SamePace s (startScaleSet s b) := by
  unfold startScaleSet
  dsimp only
  refine (takeMxClk_samePace s b.w).trans ?_
  split
  · next t x ht hx =>
    refine SamePace.trans (.setTeam ht ?_) (.modWarp _ _ fun _ => rfl)
    rfl
  · exact .refl _

theorem startMxWait_samePace (s : State) (b : Begin) : SamePace s (startMxWait s b) := by
  unfold startMxWait
  dsimp only
  refine (takeMxClk_samePace s b.w).trans ?_
  split
  · next t x ht hx =>
    refine SamePace.trans (.setTeam ht ?_) (.modWarp _ _ fun _ => rfl)
    rfl
  · exact .refl _

theorem mxOps_keepPace : mxOps.Forall OpSpec.KeepsPace := by
  simp only [mxOps, List.Forall]
  have job (n : Nat) : (mxOp n (startMx n)).KeepsPace := ⟨startMx_samePace n⟩
  exact ⟨job 0, job 1, job 2, job 3, job 4, job 5, job 6, job 7, job 8, ⟨startScaleSet_samePace⟩, ⟨startMxWait_samePace⟩, job 11,
    job 12, job 13⟩

/-! ## Operations performed at homes -/

theorem startHome_samePace (u n : Nat) (st : Stage) (s : State) (b : Begin) : SamePace s (startHome u n st s b) :=
  .modWarp s b.w fun _ => rfl

theorem startWalking_samePace (u n : Nat) (walks : Item → Bool) (s : State) (b : Begin) : SamePace s (startWalking u n walks s b) :=
  .modWarp s b.w fun _ => rfl

/-- An operation of tell or tq joins its warp, whichever of its items walk. -/
theorem tellOps_keepPace : tellOps.Forall OpSpec.KeepsPace := by
  simp only [tellOps, List.Forall]
  and_intros <;> exact ⟨fun s b => startWalking_samePace _ _ _ s b⟩

theorem tqOps_keepPace : tqOps.Forall OpSpec.KeepsPace := by
  simp only [tqOps, List.Forall]
  and_intros <;> exact ⟨fun s b => startWalking_samePace _ _ _ s b⟩

theorem startAce_samePace (n : Nat) (s : State) (b : Begin) : SamePace s (startAce n s b) := by
  refine .modWarp s b.w fun x => ?_
  dsimp only
  split
  · exact Warp.pace_foldOver (fun y l => y.pace_modLane l _) b.lanes _
  · rfl

theorem aceOps_keepPace : aceOps.Forall OpSpec.KeepsPace := by
  simp only [aceOps, List.Forall]
  and_intros <;> exact ⟨startAce_samePace _⟩

/-! ## The supervisor port -/

theorem supKnown_samePace (n : Nat) (s : State) (b : Begin) (res : Nat → W64 × W64) : SamePace s (supKnown n s b res) :=
  .modWarp s b.w fun _ => rfl

/-- csr.wr writes SCHK and not the mode, mark may write a trace record, halt asks for a halt: none touches a pace. -/
theorem startKnown_samePace (n : Nat) (s : State) (b : Begin) : SamePace s (startKnown n s b) := by
  unfold startKnown
  split
  · exact .refl s
  · dsimp only
    split_ifs
    · exact supKnown_samePace ..
    · exact (supKnown_samePace ..).trans (.modWarp _ _ fun _ => rfl)
    · exact (SamePace.of_teams (traceWarp_teams ..)).trans (supKnown_samePace ..)
    · exact supKnown_samePace ..
    · exact (SamePace.of_teams (haltBy_teams ..)).trans (supKnown_samePace ..)
    · exact supKnown_samePace ..

theorem supOp_keepsPace (n : Nat) : (supOp n).KeepsPace := by
  refine ⟨fun s b => ?_⟩
  unfold supOp
  dsimp only
  split
  · exact startHome_samePace ..
  · exact startKnown_samePace ..

theorem supOps_keepPace : supOps.Forall OpSpec.KeepsPace := by
  simp only [supOps, List.Forall]
  and_intros <;> exact supOp_keepsPace _

/-! ## The sequencer -/

theorem eachLane_samePace {f : Begin → Nat → Warp → Warp} (h : ∀ b l x, (f b l x).pace = x.pace) (s : State) (b : Begin) :
    SamePace s (eachLane f s b) := .modWarp s b.w fun x => Warp.pace_foldOver (fun y l => h b l y) b.lanes x

theorem transferLane_pace (rel call : Bool) (b : Begin) (l : Nat) (x : Warp) : (transferLane rel call b l x).pace = x.pace := by
  unfold transferLane
  simp

theorem popLane_pace (jump : Bool) (b : Begin) (l : Nat) (x : Warp) : (popLane jump b l x).pace = x.pace := by
  unfold popLane
  split
  · rfl
  · simp

theorem openLoop_pace (b : Begin) (p : List Nat) (x : Warp) : (openLoop b p x).pace = x.pace := by
  unfold openLoop
  split
  · rfl
  · dsimp only
    split
    · exact Warp.pace_foldOver (fun y l => by simp) _ x
    · exact Warp.pace_foldOver (fun y l => by simp) _ _

theorem startLoop_samePace (s : State) (b : Begin) : SamePace s (startLoop s b) := by
  refine .modWarp s b.w fun x => ?_
  dsimp only
  have skipped (ls : List Nat) :
      (foldOver (fun y l => y.modLane l fun z => { z with pc := loopExit b.pc (y.port unitSeq offB l) }) x ls).pace = x.pace :=
    Warp.pace_foldOver (fun y l => y.pace_modLane l _) ls x
  split
  · rw [openLoop_pace, openLoop_pace, skipped]
  · rw [openLoop_pace, skipped]

theorem brkLane_pace (b : Begin) (l : Nat) (x : Warp) : (brkLane b l x).pace = x.pace := by
  unfold brkLane
  dsimp only
  split
  · rfl
  · simp

theorem contLane_pace (b : Begin) (l : Nat) (x : Warp) : (contLane b l x).pace = x.pace := by
  unfold contLane
  simp

/-- A change of one warp of a team that keeps its pace. -/
theorem map_pace_modifyAt {f : Warp → Warp} (h : ∀ x, (f x).pace = x.pace) (k : Nat) (l : List Warp) :
    (modifyAt f k l).map Warp.pace = l.map Warp.pace := by
  induction l generalizing k with
  | nil => cases k <;> rfl
  | cons x r ih => cases k <;> simp [modifyAt, h, ih]

theorem arriveLane_paces (isBar : Bool) (wn k : Nat) (roles : BitVec 4) (id l : Nat) (t : Team) :
    (arriveLane isBar wn k roles id l t).paces = t.paces := by
  unfold arriveLane
  dsimp only
  split
  · exact map_pace_modifyAt (fun x => x.pace_modLane l _) wn t.warps
  · split
    · exact map_pace_modifyAt (fun x => x.pace_modLane l _) wn t.warps
    · exact map_pace_modifyAt (fun x => x.pace_seqFill ..) wn t.warps

theorem startBar_samePace (isBar : Bool) (s : State) (b : Begin) : SamePace s (startBar isBar s b) := by
  unfold startBar
  split
  · next t x l0 r ht hx hl =>
    refine SamePace.trans (.setTeam ht ?_) (.of_teams (State.pushTurns_teams ..))
    exact foldOver_keeps (fun u => u.paces = t.paces) _ _ t rfl fun u l e => (arriveLane_paces _ _ _ _ _ l u).trans e
  · exact .refl s

theorem endLane_pace (l : Nat) (x : Warp) : (endLane l x).pace = x.pace := by
  unfold endLane
  simp

theorem retireWarp_pace (x : Warp) : (retireWarp x).pace = x.pace := by
  unfold retireWarp
  split <;> rfl

/-- Retired lanes leave their loops; the turns that follow are other steps. -/
theorem startEnd_samePace (s : State) (b : Begin) : SamePace s (startEnd s b) := by
  unfold startEnd
  dsimp only
  refine SamePace.trans (.modWarp s b.w fun x => (retireWarp_pace _).trans (Warp.pace_foldOver (fun y l => endLane_pace l y) b.lanes x)) ?_
  split
  · split
    · exact .of_teams rfl
    · exact .of_teams rfl
  · exact .refl _

theorem startYield_samePace (s : State) (b : Begin) : SamePace s (startYield s b) :=
  .modWarp s b.w fun _ => Warp.pace_foldOver (fun y _ => y.pace_seqFill ..) b.lanes _

theorem seqOps_keepPace : seqOps.Forall OpSpec.KeepsPace := by
  simp only [seqOps, List.Forall]
  have transfer (opc : Nat) (rel call : Bool) : (transferOp opc rel call).KeepsPace := ⟨eachLane_samePace (transferLane_pace rel call)⟩
  refine ⟨transfer 0 false false, transfer 1 true false, transfer 2 false true, transfer 3 true true,
    ⟨eachLane_samePace (popLane_pace true)⟩, ⟨startLoop_samePace⟩, ⟨eachLane_samePace brkLane_pace⟩, ⟨eachLane_samePace contLane_pace⟩,
    ⟨startEnd_samePace⟩, ⟨startYield_samePace⟩, ⟨startBar_samePace true⟩, ⟨startBar_samePace false⟩, ⟨?setfmt⟩, ⟨?trap⟩, ⟨?rspush⟩,
    ⟨eachLane_samePace (popLane_pace false)⟩⟩
  case setfmt => exact eachLane_samePace fun b l x => by simp
  case trap => exact eachLane_samePace fun b l x => x.pace_seqFill ..
  case rspush => exact eachLane_samePace fun b l x => by simp

/-! ## Every opcode -/

theorem opTable_keepPace (u : Nat) : (opTable u).Forall OpSpec.KeepsPace := by
  unfold opTable
  split
  · exact intOps_keepPace 0
  · exact intOps_keepPace 1
  · exact mulOps_keepPace
  · exact fmaOps_keepPace 0
  · exact fmaOps_keepPace 1
  · exact cmpOps_keepPace
  · exact sfnOps_keepPace
  · exact cvtOps_keepPace
  · exact memOps_keepPace 0
  · exact memOps_keepPace 1
  · exact mxOps_keepPace
  · exact cpOps_keepPace
  · exact snapOps_keepPace
  · exact tellOps_keepPace
  · exact tqOps_keepPace
  · exact aceOps_keepPace
  · exact seqOps_keepPace
  · exact supOps_keepPace
  · trivial

end Sys2Proof.Machine
end

section
/-! PROOFS. What an issue does to the pace of its warp, and which warps a quad looks at (spec/02_bundles_and_ports.md R96). -/

namespace Sys2Proof.Machine

/-! ## The issue of a bundle -/

/-- The pace after a performed issue in clk `clk`, by whether the bundle commits. -/
def Pace.issued (clk : Nat) (commits : Bool) (p : Pace) : Pace :=
  { p with delayTo := Nat.max p.delayTo (clk + 1), committed := if commits then p.committed + 1 else p.committed }

/-- The pace after a commit in clk `clk` with delay count `d` (R96). -/
def Pace.committedAt (clk d : Nat) (p : Pace) : Pace :=
  { p with delayTo := if p.sched then clk + 1 + d else clk + 1, committed := p.committed + 1 }

/-- A destination that is a trigger is an operation of its unit's table. -/
theorem bundleDest_keepsPace {s : State} {t : Team} {x : Warp} {code : Nat} {o : OpSpec} (h : bundleDest s t x code = .ok (.trig o)) :
    o.KeepsPace := by
  unfold bundleDest at h
  split at h
  · next u n _ =>
    split at h
    · cases h
    · split at h
      · next p hp =>
        cases h
        exact List.forall_iff_forall_mem.mp (opTable_keepPace u) _ (List.mem_of_getElem? hp)
      · cases h
  · split at h <;> cases h

theorem bundleMove_keepsPace {b : Bundle} {s : State} {t : Team} {x : Warp} {slot : Nat} {m : Move} {r : RSrc} {o : OpSpec}
    (h : (bundleMove b s t x slot m).res = .ok (r, .trig o)) : o.KeepsPace := by
  unfold bundleMove at h
  dsimp only at h
  split at h
  · next hd =>
    cases h
    exact bundleDest_keepsPace hd
  · cases h
  · cases h

/-- The triggers of a bundle are operations of the tables, whose starts keep every pace. -/
theorem triggersOf_keepPace (b : Bundle) (s : State) (t : Team) (x : Warp) (ls : List Nat) :
    ∀ y ∈ triggersOf x ls (bundleMoves b s t x), y.2.1.KeepsPace := by
  intro y hy
  obtain ⟨m, hm, hy⟩ := List.mem_filterMap.mp hy
  obtain ⟨i, hi⟩ := List.mem_iff_getElem?.mp hm
  rw [bundleMoves, mapIdx_getElem?] at hi
  obtain ⟨m', -, rfl⟩ := Option.map_eq_some_iff.mp hi
  split at hy
  · next hr =>
    cases hy
    exact bundleMove_keepsPace hr
  · cases hy

theorem startAll_samePace {ts : List (Nat × OpSpec × List Nat)} (h : ∀ y ∈ ts, y.2.1.KeepsPace) (s : State) (w : WRef) (pre : Warp)
    (ls : List Nat) (pc : W32) : SamePace s (startAll s w pre ls pc ts) := by
  unfold startAll
  refine .foldOver (fun s y hy => ?_) s
  have keeps : y.2.1.KeepsPace := by
    simp only [List.mem_append, List.mem_filter] at hy
    obtain (⟨m, -⟩ | ⟨m, -⟩) | ⟨m, -⟩ := hy <;> exact h y m
  split
  · exact .refl s
  · refine SamePace.trans (.of_teams (State.takeId_teams s)) (SamePace.trans (.modWarp _ w fun x => ?_) (keeps.start _ _))
    exact Warp.pace_foldOver (fun z l => z.pace_trigger ..) y.2.2 x

theorem afterIssue_pace (s : State) (w : WRef) (c : Choice) (commits : Bool) :
    (afterIssue s w c commits).pace w = (s.pace w).map (Pace.issued s.clk commits) := by
  unfold afterIssue
  dsimp only
  rw [State.pace_modWarp_same (g := Pace.issued s.clk commits)]
  · rw [SamePace.pace (.modTeam s w.team fun t => ?_) w]
    split
    · simp [Team.paces, Warp.pace]
    · rfl
  · intro x
    simp [Pace.issued, Warp.pace, Warp.updateAges]

theorem skipMoves_pace (s : State) (w : WRef) (c : Choice) :
    (skipMoves s w c).pace w = (s.pace w).map (Pace.issued s.clk false) := by
  have stepped : SamePace s (s.modWarp w fun y => y.stepLanes c.pc c.active) := .modWarp s w fun x => x.pace_stepLanes ..
  rw [skipMoves, afterIssue_pace, stepped.pace, State.modWarp_clk]

/-- The pace of a warp whose delay is set in clk `clk` with delay count `d` (R96). -/
def Pace.delayed (clk d : Nat) (p : Pace) : Pace := { p with delayTo := if p.sched then clk + 1 + d else clk + 1 }

/-- The last steps of a commit, on a state in which its effects have left every pace: the bundle is counted, the delay set. -/
theorem afterIssue_delay_pace {s s4 : State} (h : SamePace s s4) (w : WRef) (c : Choice) {clk d : Nat} {f : Warp → Warp}
    (hf : ∀ y, (f y).pace = y.pace.delayed clk d) :
    ((afterIssue s4 w c true).modWarp w f).pace w = (s.pace w).map (Pace.committedAt clk d) := by
  rw [State.pace_modWarp_same _ _ hf, afterIssue_pace, h.pace, Option.map_map]
  rfl

theorem writeScale_samePace (s : State) (n clk : Nat) (l : List (Nat × BitVec 8)) :
    SamePace s (s.modTeam n fun t => t.writeScale clk l) := .modTeam s n fun _ => rfl

/-- A commit counts its bundle and delays the warp's next one; its writes, starts and traps leave the pace (R96). -/
theorem commitMoves_pace {s : State} {w : WRef} {x : Warp} {ms : List RMove} {ls : List Nat} (hx : s.warp? w = some x)
    (hk : ∀ y ∈ triggersOf x ls ms, y.2.1.KeepsPace) (t : Team) (c : Choice) (h : Header) :
    (commitMoves s w t x c h ms ls).pace w = (s.pace w).map (Pace.committedAt s.clk h.d) := by
  unfold commitMoves
  dsimp only
  refine Eq.trans (SamePace.pace (s := ?taken) ?trapped w) ?_
  case trapped =>
    split
    · exact takeTrap_samePace ..
    · exact .refl _
  rw [(SamePace.of_teams (countEvent_teams ..)).pace]
  refine afterIssue_delay_pace ?effects w c fun _ => rfl
  refine SamePace.trans ?_ (.modWarp _ w fun y => y.pace_stepLanes ..)
  refine SamePace.trans (t := ?started) ?_ ?configures
  case configures =>
    split
    · exact writeScale_samePace ..
    · exact .refl _
  refine SamePace.trans (.setWarp hx ?_) (startAll_samePace hk ..)
  rw [Warp.pace_foldOver fun y k => countSlots_pace .., advanceStreams_pace, writeAll_pace]

/-- What an issue does to the pace of its warp: nothing, or what every performed issue does, or what a commit does. -/
theorem issueMoves_pace {s : State} {w : WRef} {x : Warp} {ms : State → Team → Warp → List RMove} (hw : s.issuing = some w)
    (hx : s.warp? w = some x) (hk : ∀ t ls, ∀ y ∈ triggersOf x ls (ms s t x), y.2.1.KeepsPace) (h : Header) :
    (issueMoves s h ms).pace w = s.pace w ∨ (issueMoves s h ms).pace w = (s.pace w).map (Pace.issued s.clk false) ∨
      (issueMoves s h ms).pace w = (s.pace w).map (Pace.committedAt s.clk h.d) := by
  unfold issueMoves
  simp only [hw, hx]
  split
  · next t _ _ e =>
    cases e
    split
    · exact .inl rfl
    · next c _ =>
      split
      · exact .inl ((takeTrap_samePace ..).pace w)
      · refine .inl (SamePace.pace (.modWarp _ _ ?_) w)
        exact fun _ => rfl
      · exact .inl rfl
      · exact .inr (.inl (skipMoves_pace s w c))
      · split
        · exact .inl ((backOff_samePace s w).pace w)
        · split
          · refine .inl (SamePace.pace (.trans (.modWarp _ _ ?_) (.of_teams (State.modQuad_teams ..))) w)
            exact fun _ => rfl
          · exact .inr (.inr (commitMoves_pace hx (hk t _) t c h))
  · exact .inl rfl

/-- R96 for a bundle: where its issue counts it as committed, the delay ends D clk after the clk that follows, or ignores D. -/
theorem bundleIssue_delayTo {s s' : State} {w : WRef} {x x' : Warp} {b : Bundle} (hw : s.issuing = some w) (hx : s.warp? w = some x)
    (hs : exec (.bundleIssue b) s = .next s') (hx' : s'.warp? w = some x') (hc : x'.committed = x.committed + 1) :
    x'.delayTo = s.clk + 1 + if x.sched then b.d.toNat else 0 := by
  cases hs
  have pace : s.pace w = some x.pace := congrArg (Option.map Warp.pace) hx
  have pace' := congrArg (Option.map Warp.pace) hx'
  have uncounted : x'.committed ≠ x.committed := by
    rw [hc, Ne, BitVec.add_right_eq_self]
    decide
  rcases issueMoves_pace hw hx (fun t ls => triggersOf_keepPace b s t x ls) (bundleHeader b) with e | e | e
  · exact absurd (congrArg Pace.committed (Option.some.inj (pace'.symm.trans (e.trans pace)))) uncounted
  · rw [pace] at e
    exact absurd (congrArg Pace.committed (Option.some.inj (pace'.symm.trans e))) uncounted
  · rw [pace] at e
    have delay : x'.delayTo = if x.sched then s.clk + 1 + b.d.toNat else s.clk + 1 :=
      congrArg Pace.delayTo (Option.some.inj (pace'.symm.trans e))
    rw [delay]
    split <;> rfl

/-! ## The end of a delay -/

theorem modifyAt_eq_of_getElem? {α : Type} {l : List α} {k : Nat} {a : α} (f : α → α) (h : l[k]? = some a) :
    modifyAt f k l = modifyAt (fun _ => f a) k l := by
  apply List.ext_getElem?
  intro i
  rw [modifyAt_getElem?, modifyAt_getElem?]
  split
  · next e => rw [e, h]; rfl
  · rfl

theorem State.modWarp_eq_setWarp {s : State} {w : WRef} {x : Warp} (hx : s.warp? w = some x) (f : Warp → Warp) :
    s.modWarp w f = s.setWarp w (f x) := by
  unfold State.warp? at hx
  unfold State.setWarp State.modWarp State.modTeam
  split
  · next t ht =>
    rw [ht] at hx
    exact congrArg (fun l => s.setTeam w.team { t with warps := l }) (modifyAt_eq_of_getElem? f hx)
  · rfl

/-- DELAY_EXPIRY before the end of the delay changes nothing (notes/assumptions/6.md). -/
theorem delayExpiry_early {s : State} {w : WRef} {x : Warp} (hs : s.subject = .warp w) (hx : s.warp? w = some x)
    (h : s.clk < x.delayTo) : exec .delayExpiry s = .next (s.setWarp w x) := by
  have subject : subjectWarp s = some w := by rw [subjectWarp, hs]
  have held : holdOver s.clk x.delayTo = x.delayTo := if_neg (Nat.not_le.mpr h)
  change onSubjectWarp (fun clk x => { x with delayTo := holdOver clk x.delayTo }) s = _
  rw [onSubjectWarp, subject]
  dsimp only
  rw [State.modWarp_eq_setWarp hx, held]

/-! ## The warps that a quad looks at -/

/-- A step that changes neither a team nor the clk. -/
structure SameTeams (s s' : State) : Prop where
  teams : s'.teams = s.teams
  clk : s'.clk = s.clk

theorem SameTeams.refl (s : State) : SameTeams s s := ⟨rfl, rfl⟩

theorem SameTeams.trans {s t u : State} (h : SameTeams s t) (g : SameTeams t u) : SameTeams s u :=
  ⟨g.teams.trans h.teams, g.clk.trans h.clk⟩

theorem codePlace_sameTeams (s : State) (ctx off : Nat) (i : Image) : SameTeams s (codePlace s ctx off i).2 := by
  unfold codePlace
  split
  · exact .refl s
  · split
    · exact .refl s
    · split
      · exact .refl s
      · exact ⟨rfl, rfl⟩

theorem freeBelow_sameTeams (s : State) (n : Nat) : SameTeams s (freeBelow s n).2 := by
  unfold freeBelow
  split <;> exact ⟨rfl, rfl⟩

/-- A fetch takes free values and fills the core's bundle buffer. -/
theorem fetch_sameTeams (s : State) (core ctx : Nat) (pc : W32) : SameTeams s (fetch s core ctx pc).2 := by
  unfold fetch
  dsimp only
  split
  · exact .refl s
  · split
    · exact .refl s
    · next i _ =>
      have placed := codePlace_sameTeams s ctx (pc.toNat % 2 ^ 28) i
      split
      · next h =>
        rw [h] at placed
        exact placed
      · next h =>
        rw [h] at placed
        split
        · exact ⟨placed.teams, placed.clk⟩
        · exact placed.trans (freeBelow_sameTeams ..)

theorem readBundle_sameTeams (s : State) (core ctx : Nat) (c : Choice) : SameTeams s (readBundle s core ctx c).2 := by
  have fetched := fetch_sameTeams s core ctx c.pc
  unfold readBundle
  split
  · next h =>
    rw [h] at fetched
    exact fetched
  · next h =>
    rw [h] at fetched
    split <;> exact fetched

/-- A candidate is of the warp that was looked at. -/
theorem standing_w {s : State} {core quad : Nat} {w : WRef} {x : Warp} {i : Instr} {c : Cand}
    (h : standing s core quad w x i = some c) : c.w = w := by
  unfold standing at h
  split at h
  · cases h
  · dsimp only at h
    split_ifs at h <;> cases h <;> rfl

theorem mayIssue_delayTo {s : State} {w : WRef} {t : Team} {x : Warp} (h : mayIssue s w t x = true) : x.delayTo ≤ s.clk := by
  simp only [mayIssue, Bool.and_eq_true, decide_eq_true_eq] at h
  tauto

/-- A look at a warp changes no team, and gives a candidate only where the warp's delay has ended. -/
theorem lookAt_spec (s : State) (core quad : Nat) (w : WRef) (t : Team) (x : Warp) :
    SameTeams s (lookAt s core quad w t x).2 ∧
      ∀ c, (lookAt s core quad w t x).1 = some c → c.w = w ∧ x.delayTo ≤ s.clk := by
  unfold lookAt
  split
  · exact ⟨.refl s, fun c h => nomatch h⟩
  · next may =>
    have ended := mayIssue_delayTo (Decidable.not_not.mp may)
    split
    · exact ⟨.refl s, fun c h => nomatch h⟩
    · next c _ =>
      have read := readBundle_sameTeams s core t.ctx c
      split
      · exact ⟨.refl s, fun c h => nomatch h⟩
      · split
        · next h =>
          rw [h] at read
          refine ⟨read, fun c h => ⟨?_, ended⟩⟩
          cases h
          rfl
        · next h =>
          rw [h] at read
          exact ⟨read, fun c h => ⟨standing_w h, ended⟩⟩

/-- What holds of the candidates of a list of warps: each is of a warp whose delay has ended. -/
theorem lookAll_delayTo {core quad : Nat} {ws : List WRef} {s : State} {c : Cand} (h : c ∈ (lookAll core quad ws s).1) :
    ∃ x, s.warp? c.w = some x ∧ x.delayTo ≤ s.clk := by
  induction ws generalizing s with
  | nil => cases h
  | cons w r ih =>
    unfold lookAll at h
    split at h
    · next t x _ hx =>
      obtain ⟨same, look⟩ := lookAt_spec s core quad w t x
      dsimp only at h
      rcases List.mem_append.mp h with h | h
      · have found : ∃ d, (lookAt s core quad w t x).1 = some d ∧ c.w = d.w := by
          split at h
          · obtain ⟨d, hd, rfl⟩ := List.mem_map.mp h
            exact ⟨d, Option.mem_toList.mp hd, rfl⟩
          · exact ⟨c, Option.mem_toList.mp h, rfl⟩
        obtain ⟨d, hd, e⟩ := found
        obtain ⟨hw, ended⟩ := look d hd
        exact ⟨x, by rw [e, hw, hx], ended⟩
      · obtain ⟨y, hy, ended⟩ := ih h
        exact ⟨y, by rw [← hy, State.warp?_of_teams same.teams], by rw [← same.clk]; exact ended⟩
    · exact ih h

theorem lookQuad_delayTo {s : State} {core quad : Nat} {c : Cand} (h : c ∈ (lookQuad s core quad).1) :
    ∃ x, s.warp? c.w = some x ∧ x.delayTo ≤ s.clk :=
  lookAll_delayTo (List.mem_filter.mp h).1

/-- Settles O55: only a commit counts a bundle, and it sets the delay from D in scheduled mode and ignores D in interlocked mode; the
hold lasts to its clk, and a quad looks for candidates among the warps whose hold is over. -/
theorem delayHoldsTheNextBundle : Obligations.DelayHoldsTheNextBundle :=
  ⟨fun _ _ _ _ _ _ => bundleIssue_delayTo, fun _ _ _ => delayExpiry_early, fun _ _ _ _ => lookQuad_delayTo⟩

end Sys2Proof.Machine
end

section
/-! PROOFS. A bundle of one trigger of a lane unit commits: its lanes, its reads, its checks (spec/02_bundles_and_ports.md R89 to R92). -/

namespace Sys2Proof.Machine

/-! ## The choice of lanes (spec/01_engines_together.md R24) -/

theorem candidates_lt {x : Warp} {l : Nat} (h : l ∈ x.candidates) : l < 64 := by
  simpa [laneNums] using (List.mem_filter.mp h).1

theorem candidates_live {x : Warp} {l : Nat} (h : l ∈ x.candidates) : (x.lane l).live = true := by
  have live := (List.mem_filter.mp h).2
  simp only [Bool.and_eq_true] at live
  exact live.1.1

theorem candidates_nodup (x : Warp) : x.candidates.Nodup := List.nodup_range.filter _

/-- A choice takes its lanes among the candidates, none twice. -/
structure Choice.Among (c : Choice) (x : Warp) : Prop where
  cand : ∀ l ∈ c.cand, l ∈ x.candidates
  active : ∀ l ∈ c.active, l ∈ x.candidates
  nodup : c.active.Nodup

theorem chooseFrom_among {x : Warp} {cand : List Nat} (h : ∀ l ∈ cand, l ∈ x.candidates) (nodup : cand.Nodup) (half : Nat) :
    (x.chooseFrom cand half).Among x :=
  ⟨h, fun l hl => h l (List.mem_filter.mp hl).1, nodup.filter _⟩

theorem choose_among {x : Warp} {c : Choice} (h : x.choose = some c) : c.Among x := by
  have part (p : Nat → Bool) (half : Nat) : (x.chooseFrom (x.candidates.filter p) half).Among x :=
    chooseFrom_among (fun l hl => (List.mem_filter.mp hl).1) ((candidates_nodup x).filter p) half
  unfold Warp.choose at h
  dsimp only at h
  split at h
  · cases h
  · split at h
    · cases h
      exact chooseFrom_among (fun _ hl => hl) (candidates_nodup x) 0
    · split at h
      · cases h; exact part _ 0
      · split at h
        · cases h; exact part _ 1
        · split at h
          · cases h
            obtain ⟨-, activeLow, nodupLow⟩ := part (fun l => decide (l < 32)) 0
            obtain ⟨-, activeHigh, nodupHigh⟩ := part (fun l => decide (32 ≤ l)) 1
            refine ⟨fun l hl => hl, fun l hl => (List.mem_append.mp hl).elim (activeLow l) (activeHigh l), ?_⟩
            refine nodupLow.append nodupHigh fun l low high => ?_
            simp only [Warp.chooseFrom, List.mem_filter, decide_eq_true_eq] at low high
            omega
          · split at h
            · cases h; exact part _ 0
            · cases h; exact part _ 1

theorem chooseAt_among {x : Warp} {clk : Nat} {c : Choice} (h : x.chooseAt clk = some c) : c.Among x := by
  unfold Warp.chooseAt at h
  split at h
  · exact choose_among h
  · dsimp only at h
    split at h
    · exact choose_among h
    · cases h
      exact ⟨fun l hl => (List.mem_filter.mp hl).1, fun l hl => (List.mem_filter.mp hl).1, (candidates_nodup x).filter _⟩

namespace Scene.Of

variable {k : Scene} {s : State} {t : Trig} {u n : Nat}

theorem among (h : k.Of s t u n) : k.c.Among k.x := chooseAt_among h.choice

theorem ls_active (h : k.Of s t u n) {l : Nat} (hl : l ∈ k.ls) : l ∈ k.c.active := (List.mem_filter.mp (h.lanes ▸ hl)).1

theorem ls_nodup (h : k.Of s t u n) : k.ls.Nodup := h.lanes ▸ h.among.nodup.filter _

theorem ls_lt (h : k.Of s t u n) {l : Nat} (hl : l ∈ k.ls) : l < 64 := candidates_lt (h.among.active l (h.ls_active hl))

end Scene.Of

/-! ## The move of a lone trigger -/

/-- What the pipeline asks of an opcode of a lane unit, but for its checks, its acceptance and its effect: no result port counts as
read, no lane's PC is set (R157, R202). -/
structure OpSpec.OfLanes (o : OpSpec) (u n : Nat) : Prop where
  unit : o.unit = u
  opc : o.opc = n
  lane : u < 8
  reads : o.reads = readsNone
  setsPc : o.setsPc = setsNone

/-- The move of a lone trigger of an operation, its source resolved. -/
def Scene.move (k : Scene) (t : Trig) (o : OpSpec) : RMove := { slot := 0, g := t.g.toNat, ng := t.ng, res := .ok (k.r, .trig o) }

section
variable {k : Scene} {s : State} {t : Trig} {u n : Nat} {o : OpSpec}

theorem loneMove_eq (h : k.Of s t u n) (ho : o.OfLanes u n) : loneMove (.trig o) t s k.tm k.x = [k.move t o] := by
  have there : populated s k.tm o.unit = true := by
    have : o.unit ≠ unitMx := by rw [ho.unit]; exact fun e => absurd (e ▸ ho.lane) (by decide)
    simp [populated, this]
  simp [loneMove, Scene.move, h.source, there]

theorem performers_move (h : k.Of s t u n) : performers k.x (k.move t o) k.c.active = k.ls := by
  have unguarded : (t.g.toNat = 15) = (t.g = 15) := propext ⟨fun e => BitVec.eq_of_toNat_eq e, fun e => by rw [e]; rfl⟩
  have same : performs k.x (k.move t o) = takesPart k.x t.g t.ng := by
    funext l
    simp only [performs, takesPart, Scene.move, unguarded]
  rw [h.lanes, performers, same]

theorem triggersOf_move (h : k.Of s t u n) : triggersOf k.x k.c.active [k.move t o] = [(0, o, k.ls)] := by
  rw [← performers_move (o := o) h]
  rfl

/-! ## Its reads (R36, R92; spec/05_memory_ports.md R223) -/

/-- A source that reads a result port reads .y or .y2 (R82). -/
theorem loneSource_result {s : State} {t : Team} {x : Warp} {src : Src} {v off : Nat} (h : loneSource s t x src = some (.result v off)) :
    off < 6 := by
  cases src with
  | imm v => cases h
  | const v => cases h
  | port c =>
    simp only [loneSource, resolveSrc] at h
    split at h
    · split at h <;> cases h
    split at h
    · cases h
    split at h
    · cases h
    split at h
    · cases h
    split at h
    · split at h <;> cases h
    split at h
    · cases h
    split at h
    · cases h
    split at h
    · cases h
    split at h
    · cases h; omega
    split at h <;> cases h

theorem landing_lt (u n : Nat) : landing u n < 3 := by
  unfold landing
  split_ifs <;> decide

/-- The result elements that a source reads in a lane. -/
def RSrc.elems (l : Nat) : RSrc → List ElemRef
  | .result u off => [{ unit := u, off := off, lane := l, idx := 0 }]
  | _ => []

/-- The elements of a source that can bear a tag in a lane: those of a result port, and a stream's (R36, R85). -/
def RSrc.tagged (x : Warp) (l : Nat) : RSrc → List ElemRef
  | .stream j => [streamRef x j l]
  | r => r.elems l

theorem readsOf_move (ho : o.OfLanes u n) (l : Nat) : readsOf k.x (k.move t o) l = k.r.elems l := by
  simp only [readsOf, Scene.move, ho.reads, readsNone, List.map_nil, List.append_nil]
  cases k.r <;> rfl

/-- A trigger of a lane unit traps on the tags of its source alone. -/
theorem tagReads_move (ho : o.OfLanes u n) (l : Nat) : tagReads k.x (k.move t o) l = k.r.tagged k.x l := by
  have notMem : ¬ (o.unit = 8 ∨ o.unit = 9) := by
    have := ho.lane
    rw [ho.unit]
    omega
  simp only [tagReads, Scene.move, notMem, if_false, readsOf, List.append_nil]
  cases k.r <;> rfl

/-- A source that a lane can read now is filled. -/
theorem elem_filled {x : Warp} {r : RSrc} {l : Nat} (h : readable x r l = true) {e : ElemRef} (he : e ∈ r.elems l) :
    (x.elem e.unit e.off l).filled = true := by
  cases r with
  | result u off =>
    cases List.mem_singleton.mp he
    simp only [readable, Bool.and_eq_true] at h
    exact h.1.1
  | _ => cases he

/-- A source that a lane can read now bears no tag. -/
theorem elem_untagged {x : Warp} {r : RSrc} {l : Nat} (h : readable x r l = true) (port : ∀ u off, r = .result u off → off < 6)
    {e : ElemRef} (he : e ∈ r.tagged x l) : x.tagOf e = 0 := by
  cases r with
  | result u off =>
    cases List.mem_singleton.mp he
    simp only [readable, Bool.and_eq_true, beq_iff_eq] at h
    rw [Warp.tagOf, if_neg (Nat.not_le.mpr (port u off rfl)), h.1.2]
  | stream j =>
    cases List.mem_singleton.mp he
    simp only [readable, Bool.and_eq_true, beq_iff_eq] at h
    simp [Warp.tagOf, streamRef, h.1.2]
  | _ => cases he

/-- Nothing that a source reads in a lane that can read it now is poisoned. -/
theorem source_clean {x : Warp} {r : RSrc} {l : Nat} (h : readable x r l = true) {code : Nat}
    (hc : code ∈ srcCodes r ∨ code ∈ (r.tagged x l).map fun e => portCode e.unit e.off) : x.poison.contains (code, l) = false := by
  simp only [readable, Bool.and_eq_true, Bool.not_eq_true', List.any_eq_false, List.mem_append, Bool.not_eq_true] at h
  refine h.2 code ?_
  cases r with
  | result u off => exact .inl (hc.elim id id)
  | stream j => exact hc
  | _ => exact hc.imp_right fun m => by cases m

/-- The operand and mode ports that the operation finds, and those of its source, are not poisoned in the lanes that perform it. -/
theorem readsPoison_move (h : k.Of s t u n) (ho : o.OfLanes u n) {l : Nat} (hl : l ∈ k.ls) :
    readsPoison k.x [k.move t o] (k.move t o) l = false := by
  have performs : performs k.x (k.move t o) l = true := by
    rw [← performers_move (o := o) h] at hl
    exact (List.mem_filter.mp hl).2
  have clean : ∀ code ∈ readCodes k.x [k.move t o] (k.move t o) l, k.x.poison.contains (code, l) = false := by
    intro code hc
    have source : (k.move t o).res = .ok (k.r, .trig o) := rfl
    simp only [readCodes, source, tagReads_move ho, List.mem_append, List.mem_filter] at hc
    rcases hc with hc | ⟨port, kept⟩
    · exact source_clean (h.reads l hl) hc
    · obtain ⟨off, hoff, rfl⟩ := List.mem_map.mp port
      have lt : ∀ j ∈ [offA, offB, offC, offM], j < 4 := by decide
      rw [ho.unit] at kept ⊢
      refine h.clean l hl off (lt off hoff) fun e => ?_
      simp [RMove.writes, performs, source, destOf, dstCodes, ho.unit, ho.opc, e] at kept
  simp only [readsPoison, Bool.and_eq_false_iff, List.any_eq_false, Bool.not_eq_true]
  exact .inr clean

/-- A lone trigger of a lane unit whose reads can be made now neither waits, nor is late, nor meets a tag. -/
theorem readState_move (h : k.Of s t u n) (ho : o.OfLanes u n) (checked : Bool) {l : Nat} (hl : l ∈ k.ls) :
    readState k.x checked [k.move t o] (k.move t o) l = .fine := by
  have ready := h.reads l hl
  have filled : ((readsOf k.x (k.move t o) l).filter fun e => !(k.x.elem e.unit e.off l).filled) = [] := by
    rw [readsOf_move ho, List.filter_eq_nil_iff]
    intro e he
    simp [elem_filled ready he]
  have untagged : ((tagReads k.x (k.move t o) l).map k.x.tagOf).filter (· != 0) = [] := by
    rw [tagReads_move ho, List.filter_eq_nil_iff]
    intro c hc
    obtain ⟨e, he, rfl⟩ := List.mem_map.mp hc
    simp [elem_untagged ready (fun v off e => loneSource_result (e ▸ h.source)) he]
  have come (j : Nat) (e : k.r = .stream j) : streamWaits k.x j l = false := by
    rw [e] at ready
    simp only [readable, Bool.and_eq_true, Bool.not_eq_true'] at ready
    exact ready.1.1
  have source : (k.move t o).res = .ok (k.r, .trig o) := rfl
  unfold readState
  simp only [source, filled, untagged, readsPoison_move h ho hl]
  cases e : k.r with
  | stream j => simp [come j e]
  | _ => rfl

/-! ## What it writes (R84, R87) -/

/-- The warp after the write of a lone trigger of opcode `n` of unit `u`: the values land in its port. -/
def Scene.wrote (k : Scene) (s : State) (u n : Nat) : Warp :=
  writeMove s.clk (.operand u (landing u n)) (k.ls.map fun l => (l, k.val s l)) k.x

theorem writeAll_move (h : k.Of s t u n) (ho : o.OfLanes u n) :
    writeAll s k.tm k.w.warp k.x (maskOf k.c.active) k.c.pc k.c.active [k.move t o] = k.wrote s u n := by
  have values : moveValues s k.tm k.w.warp k.x (maskOf k.c.active) k.c.pc k.c.active (k.move t o) =
      k.ls.map fun l => (l, k.val s l) := by
    rw [← performers_move (o := o) h]
    rfl
  have dest : destOf (.trig o) = .operand u (landing u n) := by rw [destOf, ho.unit, ho.opc]
  change writeMove s.clk (destOf (.trig o)) (moveValues s k.tm k.w.warp k.x _ k.c.pc k.c.active (k.move t o)) k.x = _
  rw [values, dest]
  rfl

theorem wrote_eq (k : Scene) (s : State) (u n : Nat) :
    ∃ m p, k.wrote s u n = { k.x with ports := m, poison := p } ∧ PortsBut u k.x.ports m := writeMove_operand ..

theorem wrote_port (k : Scene) (s : State) (u n : Nat) {off : Nat} (hoff : off < 4) (l : Nat) :
    (k.wrote s u n).port u off l = if l ∈ k.ls then k.arg s u n off l else k.x.port u off l := by
  have lands : landing u n < 4 := Nat.lt_trans (landing_lt u n) (by decide)
  rw [Warp.port, Warp.unit, Scene.wrote, writeMove_ports, ← Warp.unit, ← Warp.port, Scene.arg]
  by_cases e : off = landing u n
  · subst e
    rw [writeDsts_port u _ l hoff, if_pos rfl]
  · rw [writeDsts_port_other u _ off l lands hoff e, if_neg e, ite_self]

theorem wrote_elem (k : Scene) (s : State) (u n off l : Nat) : (k.wrote s u n).elem u off l = k.x.elem u off l := by
  rw [Warp.elem, Warp.unit, Scene.wrote, writeMove_ports, ← Warp.unit, ← Warp.elem, writeDsts_elem]

/-! ## Its plan (R92) -/

/-- A lone trigger of a lane unit commits for every active lane, where its checks pass and its unit accepts it. -/
theorem planMoves_move (h : k.Of s t u n) (ho : o.OfLanes u n) (check : o.check s k.tm (k.wrote s u n) k.x k.ls k.c.pc = none)
    (accept : o.accept s k.tm k.x k.ls = true) :
    planMoves s k.tm k.w.warp k.x k.c .plain [k.move t o] = .commit k.c.active := by
  have codes : codeTrap .plain k.tm s [k.move t o] k.c = none := rfl
  have levels : imTrap .plain k.x k.c = none := rfl
  have all : performed .plain k.x k.c = k.c.active := rfl
  have some_active : k.c.active.isEmpty = false := by
    obtain ⟨l, hl⟩ := List.exists_mem_of_ne_nil _ h.some_lane
    exact List.isEmpty_eq_false_iff.mpr (List.ne_nil_of_mem (h.ls_active hl))
  have some_lane : k.ls.isEmpty = false := List.isEmpty_eq_false_iff.mpr h.some_lane
  have ready (checked : Bool) (r : ReadState) (hr : r ≠ .fine) :
      (k.ls.any fun l => readState k.x checked [k.move t o] (k.move t o) l == r) = false := by
    rw [List.any_eq_false]
    intro l hl
    simpa [readState_move h ho checked hl] using hr.symm
  have untagged (checked : Bool) : readFails k.x checked k.c.active [k.move t o] (k.move t o) = none := by
    unfold readFails
    dsimp only
    split
    · rfl
    · next b _ e =>
      have hb := e ▸ List.mem_cons_self (a := b)
      obtain ⟨l, hl, hb⟩ := List.mem_filterMap.mp hb
      rw [performers_move h] at hl
      rw [readState_move h ho checked hl] at hb
      cases hb
  have starts (cls : Nat) :
      startFails s k.tm k.x (k.wrote s u n) k.c.pc cls [(0, o, k.ls)] = [] := by
    simp [startFails, check]
  have room : storesFit k.x (k.wrote s u n) [(0, o, k.ls)] = true := by
    have notMem : (o.unit == 8) = false := by
      have := ho.lane
      rw [ho.unit, beq_eq_false_iff_ne]
      omega
    simp [storesFit, notMem]
  have nothing (cls : Nat) : slotTrap cls k.c.pc [] = none := rfl
  unfold planMoves
  simp [codes, levels, all, some_active, performers_move h, ready, untagged, writeAll_move h ho, triggersOf_move h, starts, room,
    nothing, accept]

/-- So its issue is its commit: it holds no user trap (R145) and wants no second clk (R103). -/
theorem issueMoves_move (h : k.Of s t u n) (ho : o.OfLanes u n) (check : o.check s k.tm (k.wrote s u n) k.x k.ls k.c.pc = none)
    (accept : o.accept s k.tm k.x k.ls = true) :
    issueMoves s .plain (loneMove (.trig o) t) = commitMoves s k.w k.tm k.x k.c .plain [k.move t o] k.c.active := by
  have held : userHeld s k.w k.tm k.x k.c [k.move t o] k.c.active = false := by
    have notSeq : (o.unit == unitSeq) = false := by
      rw [ho.unit, beq_eq_false_iff_ne]
      exact fun e => absurd (e ▸ ho.lane) (by decide)
    simp [userHeld, userTrap, triggersOf_move h, firstWhere, notSeq]
  have whole : needsSplit s k.tm k.x k.c.active [k.move t o] = false := by
    have one (a b : Nat) (hab : a ≠ b) : ([o.unit].contains a && [o.unit].contains b) = false := by
      simpa using fun e => e ▸ hab.symm
    have us : ((triggersOf k.x k.c.active [k.move t o]).filterMap fun y => if y.2.2.isEmpty then none else some y.2.1.unit) = [o.unit] := by
      simp [triggersOf_move h, h.some_lane]
    simp only [needsSplit, us, one 0 1 (by decide), one 3 4 (by decide), one 8 9 (by decide), Bool.and_false, Bool.or_false]
  unfold issueMoves
  simp only [h.issuing, h.team, h.warp, h.choice, loneMove_eq h ho, planMoves_move h ho check accept, held, whole]
  rfl

end
end Sys2Proof.Machine
end

section
/-! PROOFS. What the commit of a lone trigger of a lane unit does, and what it leaves as it was (spec/02_bundles_and_ports.md R89). -/

namespace Sys2Proof.Machine

/-! ## What is kept, in a row -/

theorem DeviceKept.refl (s : State) : DeviceKept s s := ⟨rfl, rfl, rfl, rfl, rfl, rfl, rfl, rfl, rfl⟩

theorem DeviceKept.trans {s t u : State} (h : DeviceKept s t) (g : DeviceKept t u) : DeviceKept s u :=
  ⟨g.clk.trans h.clk, g.inbox.trans h.inbox, g.issuing.trans h.issuing, g.subject.trans h.subject, g.curCmd.trans h.curCmd,
    g.freeCtr.trans h.freeCtr, g.mem.trans h.mem, g.ldr.trans h.ldr, g.eng.trans h.eng⟩

theorem DeviceKept.modTeam (s : State) (n : Nat) (f : Team → Team) : DeviceKept s (s.modTeam n f) := by constructor <;> simp

theorem CoreKept.refl (c : Core) : CoreKept c c := ⟨rfl, rfl, rfl, rfl, rfl, rfl, rfl, rfl, rfl, rfl, rfl, rfl, rfl, rfl⟩

theorem CoreKept.trans {a b c : Core} (h : CoreKept a b) (g : CoreKept b c) : CoreKept a c :=
  ⟨g.permits.trans h.permits, g.fused.trans h.fused, g.l1.trans h.l1, g.tlb.trans h.tlb, g.buffer.trans h.buffer, g.func.trans h.func,
    g.aceCopies.trans h.aceCopies, g.mx.trans h.mx, g.arrayWait.trans h.arrayWait, g.arrayFirst.trans h.arrayFirst, g.save.trans h.save,
    g.saveQueue.trans h.saveQueue, g.saveKill.trans h.saveKill, g.slots.trans h.slots⟩

/-- Teams of the same data but for their warps and the clk of their issues. -/
structure Team.SameBut (t t' : Team) : Prop where
  eq : t' = { t with lastIssue := t'.lastIssue, lastCommit := t'.lastCommit, barWait := t'.barWait, warps := t'.warps }
  warps : t'.warps.length = t.warps.length

theorem Team.SameBut.trans {a b c : Team} (h : a.SameBut b) (g : b.SameBut c) : a.SameBut c := by
  refine ⟨?_, g.warps.trans h.warps⟩
  have e := g.eq
  rw [h.eq] at e
  exact e

theorem Team.SameBut.kept {t t' : Team} (h : t.SameBut t') : TeamKept t t' := by
  have e := h.eq
  exact ⟨(congrArg Team.launch e :), (congrArg Team.index e :), (congrArg Team.ctx e :), (congrArg Team.core e :),
    (congrArg Team.status e :), (congrArg Team.tsBase e :), (congrArg Team.tsSize e :), (congrArg Team.tstore e :),
    (congrArg Team.tsPoison e :), (congrArg Team.pins e :), (congrArg Team.mx e :), (congrArg Team.owner e :), (congrArg Team.dead e :),
    (congrArg Team.startedAt e :), h.warps⟩

/-- A team that was there is there still, of the same data. -/
structure SameTeam (n : Nat) (s s' : State) : Prop where
  team : ∀ t : Team, s.team? n = some t → ∃ t' : Team, s'.team? n = some t' ∧ t.SameBut t'

theorem SameTeam.trans {n : Nat} {s s' s'' : State} (h : SameTeam n s s') (g : SameTeam n s' s'') : SameTeam n s s'' := by
  refine ⟨fun t ht => ?_⟩
  obtain ⟨t', ht', same⟩ := h.team t ht
  obtain ⟨t'', ht'', same'⟩ := g.team t' ht'
  exact ⟨t'', ht'', same.trans same'⟩

theorem SameTeam.of_teams {n : Nat} {s s' : State} (h : ∀ j, s'.team? j = s.team? j) : SameTeam n s s' :=
  ⟨fun t ht => ⟨t, (h n).trans ht, rfl, rfl⟩⟩

theorem SameTeam.modTeam {f : Team → Team} (h : ∀ t, Team.SameBut t (f t)) (n : Nat) (s : State) : SameTeam n s (s.modTeam n f) :=
  ⟨fun t ht => ⟨f t, by rw [State.team?_modTeam, if_pos rfl, ht, Option.map_some], h t⟩⟩

theorem SameTeam.modWarp (w : WRef) (s : State) (f : Warp → Warp) : SameTeam w.team s (s.modWarp w f) :=
  .modTeam (fun _ => ⟨rfl, modifyAt_length ..⟩) _ s

/-- A step changes one warp, and of the rest no more than numbers and what `CoreKept` lets change. -/
structure OwnWarp (w : WRef) (s s' : State) : Prop where
  device : DeviceKept s s'
  agenda : s'.agenda = s.agenda
  teams : ∀ j, j ≠ w.team → s'.team? j = s.team? j
  team : SameTeam w.team s s'
  warps : ∀ v, v ≠ w → s'.warp? v = s.warp? v
  cores : ∀ c, CoreKept (s.core c) (s'.core c)

namespace OwnWarp

theorem trans {w : WRef} {s t u : State} (h : OwnWarp w s t) (g : OwnWarp w t u) : OwnWarp w s u :=
  ⟨h.device.trans g.device, g.agenda.trans h.agenda, fun j hj => (g.teams j hj).trans (h.teams j hj), h.team.trans g.team,
    fun v hv => (g.warps v hv).trans (h.warps v hv), fun c => (h.cores c).trans (g.cores c)⟩

theorem modWarp (s : State) (w : WRef) (f : Warp → Warp) : OwnWarp w s (s.modWarp w f) := by
  refine ⟨.modTeam .., State.modTeam_agenda .., fun j hj => ?_, .modWarp .., fun v hv => State.warp?_modWarp_other s f hv, fun c => ?_⟩
  · rw [State.modWarp, State.team?_modTeam, if_neg hj]
  · have cores : (s.modWarp w f).cores = s.cores := State.modTeam_cores ..
    rw [State.core, State.core, cores]
    exact .refl _

theorem takeId (s : State) (w : WRef) : OwnWarp w s (takeId s).2 :=
  ⟨⟨rfl, rfl, rfl, rfl, rfl, rfl, rfl, rfl, rfl⟩, rfl, fun _ _ => rfl, .of_teams fun _ => rfl, fun _ _ => rfl, fun _ => .refl _⟩

end OwnWarp

/-! ## Lanes that step on where no loop is open (R89, R131) -/

theorem Warp.lt_of_live {x : Warp} {l : Nat} (h : (x.lane l).live = true) : l < x.lanes.length := by
  by_contra out
  rw [Warp.lane, List.getD_eq_default _ _ (Nat.le_of_not_lt out)] at h
  cases h

theorem Warp.lane_modLane_other (x : Warp) {l j : Nat} (f : Lane → Lane) (h : j ≠ l) : (x.modLane l f).lane j = x.lane j := by
  simp [Warp.lane, Warp.modLane, List.getD_eq_getElem?_getD, modifyAt_getElem?, h]

/-- A lane at the next bundle's address. -/
def Lane.goOn (pc : W32) (a : Lane) : Lane := { a with pc := nextPc pc }

@[simp] theorem Lane.live_goOn (pc : W32) (a : Lane) : (a.goOn pc).live = a.live := rfl
@[simp] theorem Lane.goOn_goOn (pc : W32) (a : Lane) : (a.goOn pc).goOn pc = a.goOn pc := rfl

theorem stepLane_lane {x : Warp} (h : ∀ n, (x.half n).levels = []) (pc : W32) (l j : Nat) :
    (x.stepLane pc l).lane j = if j = l ∧ (x.lane j).live = true then (x.lane j).goOn pc else x.lane j := by
  rw [stepLane_noLoops x pc l h]
  rcases eq_or_ne j l with rfl | e
  · by_cases live : (x.lane j).live = true
    · rw [if_pos live, Warp.lane_modLane _ _ _ _ (Warp.lt_of_live live), if_pos rfl, if_pos ⟨rfl, live⟩]
      rfl
    · rw [if_neg live, if_neg fun h => live h.2]
  · rw [if_neg fun g : j = l ∧ _ => e g.1]
    split
    · exact Warp.lane_modLane_other x _ e
    · rfl

theorem stepLane_halves {x : Warp} (h : ∀ n, (x.half n).levels = []) (pc : W32) (l : Nat) : (x.stepLane pc l).halves = x.halves := by
  rw [stepLane_noLoops x pc l h]
  split <;> rfl

theorem stepLanes_noLoops {x : Warp} (h : ∀ n, (x.half n).levels = []) (pc : W32) (ls : List Nat) :
    (x.stepLanes pc ls).halves = x.halves ∧
      ∀ j, (x.stepLanes pc ls).lane j = if j ∈ ls ∧ (x.lane j).live = true then (x.lane j).goOn pc else x.lane j := by
  have steps : (foldOver (fun y l => y.stepLane pc l) x ls).halves = x.halves ∧
      ∀ j, (foldOver (fun y l => y.stepLane pc l) x ls).lane j =
        if j ∈ ls ∧ (x.lane j).live = true then (x.lane j).goOn pc else x.lane j := by
    induction ls generalizing x with
    | nil => simp [foldOver]
    | cons l r ih =>
      have same := stepLane_halves h pc l
      obtain ⟨halves, lanes⟩ := ih (x := x.stepLane pc l) fun n => by rw [Warp.half, same]; exact h n
      refine ⟨halves.trans same, fun j => ?_⟩
      rw [foldOver, lanes, stepLane_lane h]
      by_cases live : (x.lane j).live = true
      · rcases eq_or_ne j l with rfl | e
        · simp [live]
        · simp [live, e]
      · simp [live]
  have closed (n : Nat) : ((foldOver (fun y l => y.stepLane pc l) x ls).half n).levels = [] := by
    rw [Warp.half, steps.1]
    exact h n
  rw [Warp.stepLanes, advance_noLoops _ closed]
  exact steps

theorem levels_of_noLoops {x : Warp} (h : x.noLoops = true) (n : Nat) : (x.half n).levels = [] := by
  rw [Warp.half, List.getD_eq_getElem?_getD]
  cases e : x.halves[n]? with
  | none => rfl
  | some a => simpa using List.all_eq_true.mp h a (List.mem_of_getElem? e)

/-! ## The warp as its operation starts (R33, R35, R87) -/

/-- A warp `z` after the trigger of opcode `n` of unit `u`: its operand has landed, its results stand unfilled; of the rest only streams,
counts of slots and results in flight may differ. -/
structure Started (k : Scene) (s : State) (u n : Nat) (z : Warp) : Prop where
  eq : z = { k.x with ports := z.ports, poison := z.poison, streams := z.streams, halves := z.halves, fills := z.fills }
  loops : k.x.noLoops = true → z.halves = k.x.halves
  units : PortsBut u k.x.ports z.ports
  operand : ∀ l off, off < 4 → z.port u off l = if l ∈ k.ls then k.arg s u n off l else k.x.port u off l
  elem : ∀ l off, off = offY ∨ off = offY2 →
    z.elem u off l = if l ∈ k.ls then { k.x.elem u off l with filled := false, tag := 0 } else k.x.elem u off l
  last : ∀ l ∈ k.ls, (z.unit u).last.find? l = some s.nextId

/-- The warp once the bundle, with moves `ms` and triggers `ts`, is counted (R85, R135). -/
def Scene.counted (k : Scene) (ms : List RMove) (ts : List (Nat × OpSpec × List Nat)) (y : Warp) : Warp :=
  foldOver
    (fun y h => countSlots k.c.pc h (ts.filterMap fun e => if e.2.2.any fun l => k.x.halfOf l == h then some e.2.1.unit else none) k.x y)
    (advanceStreams k.x k.c.active ms y) (if k.x.w32 then [0, 1].filter fun h => k.c.active.any fun l => k.x.halfOf l == h else [0])

theorem counted_eq (k : Scene) (ms : List RMove) (ts : List (Nat × OpSpec × List Nat)) (y : Warp) :
    ∃ st hs, k.counted ms ts y = { y with streams := st, halves := hs } ∧ (k.x.noLoops = true → hs = y.halves) := by
  obtain ⟨st, e⟩ := advanceStreams_eq k.x k.c.active ms y
  rw [Scene.counted, e]
  refine foldOver_keeps (fun z => ∃ st hs, z = { y with streams := st, halves := hs } ∧ (k.x.noLoops = true → hs = y.halves)) _ _ _
    ⟨st, y.halves, rfl, fun _ => rfl⟩ ?_
  rintro z h ⟨st, hs, rfl, closed⟩
  by_cases none_open : k.x.noLoops = true
  · rw [countSlots_noLoops _ _ _ _ _ (levels_of_noLoops none_open h)]
    exact ⟨st, hs, rfl, closed⟩
  · obtain ⟨hs', e⟩ := countSlots_eq k.c.pc h _ k.x { y with streams := st, halves := hs }
    rw [e]
    exact ⟨st, hs', rfl, fun f => absurd f none_open⟩

/-- The warp of a lone trigger before its operation is triggered: written and counted. -/
def Scene.ready (k : Scene) (s : State) (t : Trig) (o : OpSpec) (u n : Nat) : Warp :=
  k.counted [k.move t o] [(0, o, k.ls)] (k.wrote s u n)

/-- The warp when its operation starts. -/
def Scene.triggered (k : Scene) (s : State) (t : Trig) (o : OpSpec) (u n : Nat) : Warp :=
  foldOver (fun x l => x.trigger u s.nextId l) (k.ready s t o u n) k.ls

theorem triggered_started (k : Scene) (s : State) (t : Trig) (o : OpSpec) (u n : Nat) :
    Started k s u n (k.triggered s t o u n) ∧ (k.triggered s t o u n).fills = k.x.fills := by
  obtain ⟨st, hs, counted, closed⟩ := counted_eq k [k.move t o] [(0, o, k.ls)] (k.wrote s u n)
  obtain ⟨ports, triggered, but⟩ := triggers_eq u s.nextId k.ls (k.ready s t o u n)
  obtain ⟨ports', poison, wrote, but'⟩ := wrote_eq k s u n
  have unit : (k.ready s t o u n).ports = (k.wrote s u n).ports := by rw [Scene.ready, counted]
  refine ⟨⟨?_, fun f => ?_, fun v hv => ?_, fun l off hoff => ?_, fun l off hoff => ?_, fun l hl => ?_⟩, ?_⟩
  · rw [Scene.triggered, triggered, Scene.ready, counted, wrote]
  · rw [Scene.triggered, triggered, Scene.ready, counted]
    rw [wrote] at closed
    exact closed f
  · rw [Scene.triggered, triggered]
    refine (but v hv).trans ?_
    rw [unit, wrote]
    exact but' v hv
  · rw [Scene.triggered, triggers_port _ _ _ _ hoff, Warp.port, Warp.unit, unit, ← Warp.unit, ← Warp.port, wrote_port _ _ _ _ hoff]
  · rw [Scene.triggered, triggers_elem _ _ _ _ hoff, Warp.elem, Warp.unit, unit, ← Warp.unit, ← Warp.elem, wrote_elem]
  · rw [Scene.triggered, triggers_last, if_pos hl]
  · rw [Scene.triggered, triggered, Scene.ready, counted, wrote]

/-! ## The commit -/

/-- What the operation of a lone trigger is given when it starts. -/
def Scene.begin (k : Scene) (s : State) : Begin :=
  { w := k.w, id := s.nextId, lanes := k.ls, active := k.c.active, pc := k.c.pc, pre := k.x }

/-- The state in which it starts. -/
def Scene.begun (k : Scene) (s : State) (t : Trig) (o : OpSpec) (u n : Nat) : State :=
  (takeId (s.setWarp k.w (k.ready s t o u n))).2.modWarp k.w fun x => foldOver (fun x l => x.trigger u s.nextId l) x k.ls

/-- The rest of its commit in clk `clk`, once it has started: lanes step on, the issue and the bundle are counted (R89, R96, R100). -/
def Scene.ended (k : Scene) (clk : Nat) (s : State) : State :=
  let s' := afterIssue (s.modWarp k.w fun y => y.stepLanes k.c.pc k.c.active) k.w k.c true
  countEvent (s'.modWarp k.w fun y => { y with delayTo := clk + 1, marker := [] }) k.tm.core 0x01

section
variable {k : Scene} {s : State} {t : Trig} {u n : Nat} {o : OpSpec}

theorem commitMoves_move (h : k.Of s t u n) (ho : o.OfLanes u n) :
    commitMoves s k.w k.tm k.x k.c .plain [k.move t o] k.c.active = k.ended s.clk (o.start (k.begun s t o u n) (k.begin s)) := by
  have other (v : Nat) (hv : 8 ≤ v) : (u == v) = false := by
    have := ho.lane
    rw [beq_eq_false_iff_ne]
    omega
  have user : userTrap (k.wrote s u n) [(0, o, k.ls)] k.c.pc = none := by
    simp [userTrap, firstWhere, ho.unit, other unitSeq (by decide)]
  have started : startAll (s.setWarp k.w (k.ready s t o u n)) k.w k.x k.c.active k.c.pc [(0, o, k.ls)] =
      o.start (k.begun s t o u n) (k.begin s) := by
    have id : (s.setWarp k.w (k.ready s t o u n)).nextId = s.nextId := State.modTeam_nextId ..
    have some_lane : k.ls.isEmpty = false := List.isEmpty_eq_false_iff.mpr h.some_lane
    simp only [startAll, List.filter, other 8 (by decide), other 9 (by decide), bne, Bool.not_false, Bool.and_self, List.nil_append,
      foldOver, some_lane, Bool.false_and, State.takeId_fst, id, ho.unit]
    rfl
  have set : ([(0, o, k.ls)] : List (Nat × OpSpec × List Nat)).flatMap (fun y => y.2.1.setsPc (k.wrote s u n) y.2.2 k.c.active) = [] := by
    simp [ho.setsPc, setsNone]
  have all : (k.c.active.filter fun l => !([] : List Nat).contains l) = k.c.active := by simp
  unfold commitMoves
  simp only [triggersOf_move h, writeAll_move h ho, user, set, all]
  rw [← Scene.counted, ← Scene.ready, started]
  simp [Header.plain, Scene.ended]

end
end Sys2Proof.Machine
end

section
/-! PROOFS. The end of the commit of a lone trigger, and what the whole issue of a trigger of a lane unit comes to
(spec/01_engines_together.md R24, spec/02_bundles_and_ports.md R89, R96, R100, spec/04_lane_units.md R157). -/

namespace Sys2Proof.Machine

/-! ## Counting the bundle -/

theorem countEvent_device (s : State) (c ev : Nat) : DeviceKept s (countEvent s c ev) := by
  unfold countEvent
  dsimp only
  split
  · exact ⟨rfl, rfl, rfl, rfl, rfl, rfl, rfl, rfl, rfl⟩
  · exact .refl s

theorem countEvent_cores (s : State) (c ev b : Nat) : CoreKept (s.core b) ((countEvent s c ev).core b) := by
  unfold countEvent
  dsimp only
  split
  · rcases eq_or_ne b c with rfl | e
    · rw [State.core_setCore_same]
      exact ⟨rfl, rfl, rfl, rfl, rfl, rfl, rfl, rfl, rfl, rfl, rfl, rfl, rfl, rfl⟩
    · rw [State.core_setCore_other _ _ e]
      exact .refl _
  · exact .refl _

theorem countEvent_agenda (s : State) (c ev : Nat) : (countEvent s c ev).agenda = s.agenda := by
  unfold countEvent
  dsimp only
  split <;> rfl

theorem countEvent_nextId (s : State) (c ev : Nat) : (countEvent s c ev).nextId = s.nextId := by
  unfold countEvent
  dsimp only
  split <;> rfl

theorem countEvent_team? (s : State) (c ev j : Nat) : (countEvent s c ev).team? j = s.team? j := by
  rw [State.team?, countEvent_teams, ← State.team?]

/-! ## The warp after the issue -/

/-- The age of lane `l` after an issue (R24). -/
def Choice.age (c : Choice) (l : Nat) (a : Lane) : Nat :=
  if c.active.contains l then 0 else if c.cand.contains l then Nat.min (a.age + 1) 511 else a.age

theorem lane_updateAges {y : Warp} {c : Choice} (active : ∀ l ∈ c.active, l < y.lanes.length) (cand : ∀ l ∈ c.cand, l < y.lanes.length)
    (l : Nat) : (y.updateAges c).lane l = { y.lane l with age := c.age l (y.lane l) } := by
  simp only [Warp.lane, Warp.updateAges, List.getD_eq_getElem?_getD, mapIdx_getElem?, Choice.age]
  cases e : y.lanes[l]? with
  | none =>
    have out : y.lanes.length ≤ l := List.getElem?_eq_none_iff.mp e
    have notActive : l ∉ c.active := fun m => Nat.not_lt.mpr out (active l m)
    have notCand : l ∉ c.cand := fun m => Nat.not_lt.mpr out (cand l m)
    simp [notActive, notCand]
  | some a =>
    simp only [Option.map_some, Option.getD_some]
    split_ifs <;> rfl

/-- A warp without its boost (R148). -/
def Warp.unboosted (x : Warp) : Warp := { x with boost := false }

/-- The warp after a commit in clk `clk`, from the warp whose lanes have stepped on. -/
def Warp.closed (clk : Nat) (c : Choice) (y : Warp) : Warp :=
  { y.unboosted.updateAges c with
    readyWait := 0, replayPc := if y.replayPc = some c.pc then none else y.replayPc, split := none, marker := [], delayTo := clk + 1,
    committed := y.committed + 1 }

@[simp] theorem Warp.ports_closed (clk : Nat) (c : Choice) (y : Warp) : (y.closed clk c).ports = y.ports := rfl
@[simp] theorem Warp.halves_closed (clk : Nat) (c : Choice) (y : Warp) : (y.closed clk c).halves = y.halves := rfl
@[simp] theorem Warp.fills_closed (clk : Nat) (c : Choice) (y : Warp) : (y.closed clk c).fills = y.fills := rfl

/-! ## What the issue has changed of it, part by part -/

section
variable {k : Scene} {s : State} {t : Trig} {u n : Nat} {z y : Warp}

theorem Started.lane (st : Started k s u n z) (l : Nat) : z.lane l = k.x.lane l := by
  have e := congrArg (fun y : Warp => y.lane l) st.eq
  exact e

/-- Steps of lanes leave of a started warp what its start left, but for lanes and loops. -/
theorem Started.stepped (st : Started k s u n z) (hy : Stepped z y) :
    y = { k.x with
      lanes := y.lanes, halves := y.halves, ports := z.ports, poison := z.poison, streams := z.streams, fills := z.fills } := by
  have e := hy.eq
  rw [st.eq] at e
  exact e

theorem Started.laneKept (st : Started k s u n z) (hy : Stepped z y) (l : Nat) : LaneKept (k.x.lane l) (y.lane l) :=
  st.lane l ▸ hy.lane l

/-- The lanes of the warp after the issue: as they stepped, with new ages. -/
theorem Started.lane_closed (h : k.Of s t u n) (st : Started k s u n z) (hy : Stepped z y) (clk l : Nat) :
    (y.closed clk k.c).lane l = { y.lane l with age := k.c.age l (y.lane l) } := by
  have inside (l : Nat) (hl : l ∈ k.x.candidates) : l < y.lanes.length := by
    rw [hy.length]
    exact Warp.lt_of_live (by rw [st.lane]; exact candidates_live hl)
  exact lane_updateAges (y := y.unboosted) (fun l hl => inside l (h.among.active l hl))
    (fun l hl => inside l (h.among.cand l hl)) l

theorem Started.ports_stepped (hy : Stepped z y) : y.ports = z.ports := (congrArg Warp.ports hy.eq :)

theorem Started.warpKept (h : k.Of s t u n) (st : Started k s u n z) (hy : Stepped z y) (clk : Nat) :
    WarpKept u k.x (y.closed clk k.c) := by
  have e := st.stepped hy
  exact
    { role := (congrArg Warp.role e :), quad := (congrArg Warp.quad e :), slot := (congrArg Warp.slot e :), budget := (congrArg Warp.budget e :),
      guards := (congrArg Warp.guards e :), sticky := (congrArg Warp.sticky e :), sched := (congrArg Warp.sched e :), w32 := (congrArg Warp.w32 e :),
      prio := (congrArg Warp.prio e :), halted := (congrArg Warp.halted e :), backoffTo := (congrArg Warp.backoffTo e :),
      entryTo := (congrArg Warp.entryTo e :),
      regs := fun l => by rw [st.lane_closed h hy]; exact (st.laneKept hy l).regs,
      ports := fun v hv => by rw [Warp.unit, Warp.ports_closed, Started.ports_stepped hy]; exact st.units v hv }

theorem Started.innerKept (h : k.Of s t u n) (st : Started k s u n z) (hy : Stepped z y) (clk : Nat) :
    InnerKept k.x (y.closed clk k.c) := by
  have e := st.stepped hy
  exact
    { ops := (congrArg Warp.ops e :), sq := (congrArg Warp.sq e :), txn := (congrArg Warp.txn e :), schk := (congrArg Warp.schk e :),
      handlers := (congrArg Warp.handlers e :),
      lanes := fun l => by
        rw [st.lane_closed h hy]
        exact ⟨(st.laneKept hy l).nfr, (st.laneKept hy l).rstack, (st.laneKept hy l).live⟩ }

theorem Started.yieldTo (st : Started k s u n z) (hy : Stepped z y) (clk : Nat) : (y.closed clk k.c).yieldTo = k.x.yieldTo :=
  (congrArg Warp.yieldTo (st.stepped hy) :)

theorem Started.issued (h : k.Of s t u n) (st : Started k s u n z) (hy : Stepped z y) : Issued k.c s k.x (y.closed s.clk k.c) where
  committed := (congrArg (fun y : Warp => y.committed + 1) (st.stepped hy) :)
  delay := rfl
  readyWait := rfl
  boost := rfl
  ages l := by rw [st.lane_closed h hy, Choice.age, (st.laneKept hy l).age]

theorem Started.unit_closed (hy : Stepped z y) (clk : Nat) (c : Choice) (u : Nat) : (y.closed clk c).unit u = z.unit u := by
  rw [Warp.unit, Warp.ports_closed, Started.ports_stepped hy, ← Warp.unit]

theorem Started.landed (st : Started k s u n z) (hy : Stepped z y) (clk : Nat) : Landed k s u n (y.closed clk k.c) := by
  refine ⟨fun l off hoff => ?_, fun l hl => ?_, fun l hl => ?_⟩
  · rw [Warp.port, Started.unit_closed hy, ← Warp.port, st.operand l off hoff]
  · have other (off : Nat) (hoff : off = offY ∨ off = offY2) : (y.closed clk k.c).elem u off l = k.x.elem u off l := by
      rw [Warp.elem, Started.unit_closed hy, ← Warp.elem, st.elem l off hoff, if_neg hl]
    exact ⟨other offY (.inl rfl), other offY2 (.inr rfl)⟩
  · rw [Started.unit_closed hy]
    exact st.last l hl

theorem Started.unfilled (st : Started k s u n z) (hy : Stepped z y) (clk : Nat) : Unfilled k u (y.closed clk k.c) := by
  intro l hl
  have cleared (off : Nat) (hoff : off = offY ∨ off = offY2) :
      ((y.closed clk k.c).elem u off l).filled = false ∧ ((y.closed clk k.c).elem u off l).tag = 0 := by
    rw [Warp.elem, Started.unit_closed hy, ← Warp.elem, st.elem l off hoff, if_pos hl]
    exact ⟨rfl, rfl⟩
  obtain ⟨filled, tag⟩ := cleared offY (.inl rfl)
  obtain ⟨filled2, tag2⟩ := cleared offY2 (.inr rfl)
  exact ⟨filled, tag, filled2, tag2⟩

/-- Where no loop is open, active lanes take the next address, and nothing else of a lane or of the loops changes. -/
theorem Started.goesOn (st : Started k s u n z) (none_open : k.x.noLoops = true) :
    (z.stepLanes k.c.pc k.c.active).halves = k.x.halves ∧
      ∀ l, (z.stepLanes k.c.pc k.c.active).lane l =
        if l ∈ k.c.active ∧ (k.x.lane l).live = true then (k.x.lane l).goOn k.c.pc else k.x.lane l := by
  have closed (j : Nat) : (z.half j).levels = [] := by
    rw [Warp.half, st.loops none_open]
    exact levels_of_noLoops none_open j
  obtain ⟨halves, lanes⟩ := stepLanes_noLoops closed k.c.pc k.c.active
  exact ⟨halves.trans (st.loops none_open), fun l => by rw [lanes, st.lane]⟩

theorem Started.steppedOn (h : k.Of s t u n) (st : Started k s u n z) (clk : Nat) :
    SteppedOn k.c k.x ((z.stepLanes k.c.pc k.c.active).closed clk k.c) := by
  intro none_open
  obtain ⟨halves, lanes⟩ := st.goesOn none_open
  refine ⟨(Warp.halves_closed ..).trans halves, fun l => ?_⟩
  rw [st.lane_closed h (stepLanes_stepped ..), lanes]
  by_cases m : l ∈ k.c.active
  · simp [m, candidates_live (h.among.active l m), Lane.goOn]
  · simp [m]

theorem Started.waitsKept (h : k.Of s t u n) (st : Started k s u n z) (clk : Nat) :
    WaitsKept k.x ((z.stepLanes k.c.pc k.c.active).closed clk k.c) := by
  intro none_open l
  rw [st.lane_closed h (stepLanes_stepped ..), (st.goesOn none_open).2]
  split <;> rfl

end

/-! ## The state after the issue -/

/-- A team after a commit in clk `clk` (R27, R148). -/
def Team.committedAt (clk : Nat) (t : Team) : Team :=
  { t with lastIssue := clk, lastCommit := clk, barWait := 0, warps := t.warps.map Warp.unboosted }

theorem State.warp?_committedAt (s : State) (n clk : Nat) (v : WRef) :
    (s.modTeam n (Team.committedAt clk)).warp? v = if v.team = n then (s.warp? v).map Warp.unboosted else s.warp? v := by
  unfold State.warp?
  rw [State.team?_modTeam]
  by_cases e : v.team = n
  · rw [if_pos e, if_pos e, e]
    cases s.team? n with
    | none => rfl
    | some t => exact List.getElem?_map ..
  · rw [if_neg e, if_neg e]

section
variable {k : Scene} {s s₂ : State} {t : Trig} {u n : Nat} {z : Warp}

theorem ended_device (k : Scene) (clk : Nat) (s : State) : DeviceKept s (k.ended clk s) := by
  refine DeviceKept.trans ?_ (countEvent_device ..)
  constructor <;> simp [afterIssue, State.modWarp]

theorem ended_agenda (k : Scene) (clk : Nat) (s : State) : (k.ended clk s).agenda = s.agenda := by
  simp [Scene.ended, countEvent_agenda, afterIssue, State.modWarp]

theorem ended_nextId (k : Scene) (clk : Nat) (s : State) : (k.ended clk s).nextId = s.nextId := by
  simp [Scene.ended, countEvent_nextId, afterIssue, State.modWarp]

theorem ended_cores (k : Scene) (clk : Nat) (s : State) (c : Nat) : CoreKept (s.core c) ((k.ended clk s).core c) := by
  refine CoreKept.trans ?_ (countEvent_cores ..)
  have cores : ((afterIssue (s.modWarp k.w fun y => y.stepLanes k.c.pc k.c.active) k.w k.c true).modWarp k.w fun y =>
      { y with delayTo := clk + 1, marker := [] }).cores = s.cores := by
    simp [afterIssue, State.modWarp]
  rw [State.core, State.core, cores]
  exact .refl _

theorem ended_teams (k : Scene) (clk : Nat) (s : State) {j : Nat} (h : j ≠ k.w.team) : (k.ended clk s).team? j = s.team? j := by
  simp only [Scene.ended, countEvent_team?, afterIssue, State.modWarp, State.team?_modTeam, h, if_false]

theorem afterIssue_commit (s : State) (w : WRef) (c : Choice) :
    ∃ f, afterIssue s w c true = (s.modTeam w.team (Team.committedAt s.clk)).modWarp w f ∧
      ∀ y : Warp, { f y.unboosted with delayTo := s.clk + 1, marker := [] } = y.closed s.clk c := ⟨_, rfl, fun _ => rfl⟩

/-- The end of a commit in its clk: its warp's lanes step and it is counted, its team's other warps lose their boost. -/
theorem ended_warp? (k : Scene) (s : State) (v : WRef) :
    (k.ended s.clk s).warp? v = if v = k.w then (s.warp? v).map fun y => (y.stepLanes k.c.pc k.c.active).closed s.clk k.c
      else if v.team = k.w.team then (s.warp? v).map Warp.unboosted else s.warp? v := by
  have clk : (s.modWarp k.w fun y => y.stepLanes k.c.pc k.c.active).clk = s.clk := State.modWarp_clk ..
  obtain ⟨f, e, closes⟩ := afterIssue_commit (s.modWarp k.w fun y => y.stepLanes k.c.pc k.c.active) k.w k.c
  rw [clk] at e closes
  rw [Scene.ended, State.warp?_of_teams (countEvent_teams ..), State.warp?_modWarp, e, State.warp?_modWarp, State.warp?_modWarp,
    State.warp?_committedAt, State.warp?_committedAt, State.warp?_modWarp, State.warp?_modWarp]
  rcases eq_or_ne v k.w with rfl | other
  · simp only [if_true, Option.map_map]
    exact congrFun (congrArg Option.map (funext fun y => closes _)) _
  · simp only [other, if_false]

theorem ended_sameTeam (k : Scene) (clk : Nat) (s : State) : SameTeam k.w.team s (k.ended clk s) := by
  obtain ⟨f, e, -⟩ := afterIssue_commit (s.modWarp k.w fun y => y.stepLanes k.c.pc k.c.active) k.w k.c
  have committed (clk : Nat) (t : Team) : Team.SameBut t (t.committedAt clk) := ⟨rfl, List.length_map ..⟩
  refine SameTeam.trans ?_ (.of_teams (countEvent_team? _ _ _))
  rw [e]
  exact (((SameTeam.modWarp k.w s _).trans (.modTeam (committed _) _ _)).trans (.modWarp k.w _ _)).trans (.modWarp k.w _ _)

/-- What the issue of a lone trigger of a lane unit leaves as it was and what it changes, where its operation's start changed its warp
alone, to `z`, and took one number. -/
theorem ended_laneIssue (h : k.Of s t u n) (own : OwnWarp k.w s s₂) (id : s₂.nextId = s.nextId + 1) (hz : s₂.warp? k.w = some z)
    (st : Started k s u n z) : LaneIssue k s (k.ended s.clk s₂) u n ((z.stepLanes k.c.pc k.c.active).closed s.clk k.c) := by
  have stepped := stepLanes_stepped z k.c.pc k.c.active
  have warps := own.device.clk ▸ ended_warp? k s₂
  obtain ⟨t', team, same⟩ := (own.team.trans (ended_sameTeam k s.clk s₂)).team k.tm h.team
  have the_team {p : Team → Prop} (hp : p t') : ∀ t'', (k.ended s.clk s₂).team? k.w.team = some t'' → p t'' := by
    intro t'' ht
    rw [team] at ht
    cases ht
    exact hp
  have issue : TriggerIssue k s (k.ended s.clk s₂) u n ((z.stepLanes k.c.pc k.c.active).closed s.clk k.c) :=
    { warp := by rw [warps, if_pos rfl, hz, Option.map_some]
      device := own.device.trans (ended_device ..)
      others :=
        { teams := fun j hj => (ended_teams _ _ _ hj).trans (own.teams j hj)
          team := ⟨t', team, same.kept⟩
          warps := fun j hj => by
            rw [warps, if_neg fun e => hj (congrArg WRef.warp e), if_pos rfl, own.warps _ fun e => hj (congrArg WRef.warp e)]
            rfl
          cores := fun c => (own.cores c).trans (ended_cores ..) }
      kept := st.warpKept h stepped _
      issued := st.issued h stepped
      landed := st.landed stepped _
      yieldTo := fun _ => st.yieldTo stepped _
      bars := fun _ => the_team (congrArg Team.bars same.eq :) }
  exact
    { issue := issue
      agenda := (ended_agenda ..).trans own.agenda
      nextId := (ended_nextId ..).trans id
      jobs := the_team ⟨(congrArg Team.jobs same.eq :), (congrArg Team.arb same.eq :), (congrArg Team.scale same.eq :)⟩
      inner := st.innerKept h stepped _
      stepped := st.steppedOn h _
      waits := st.waitsKept h _
      unfilled := st.unfilled stepped _ }

end
end Sys2Proof.Machine
end

section
/-! PROOFS. A trigger of a lane unit fills its results after its latency: what the result functions of the units see, and what they give in
the terms of the claims (spec/04_lane_units.md R157 to R160, R164). -/

namespace Sys2Proof.Machine

/-- What a result function of unit `u` may look at: whether the warp is ganged, and the operands where the trigger has landed. -/
structure Scene.Sees (k : Scene) (s : State) (u n : Nat) (y : Warp) : Prop where
  w32 : y.w32 = k.x.w32
  operand : ∀ l off, off < 4 → y.port u off l = if l ∈ k.ls then k.arg s u n off l else k.x.port u off l

theorem Scene.Sees.arg {k : Scene} {s : State} {u n : Nat} {y : Warp} (sees : k.Sees s u n y) {l off : Nat} (hl : l ∈ k.ls)
    (hoff : off < 4) : y.port u off l = k.arg s u n off l := by
  rw [sees.operand l off hoff, if_pos hl]

/-- A port in which the trigger does not land stays as it was. -/
theorem Scene.Sees.port {k : Scene} {s : State} {u n : Nat} {y : Warp} (sees : k.Sees s u n y) {off : Nat} (hoff : off < 4)
    (other : off ≠ landing u n) (l : Nat) : y.port u off l = k.x.port u off l := by
  rw [sees.operand l off hoff, Scene.arg, if_neg other, ite_self]

/-- The bits of a mode port are all reserved, and zero (R158). -/
theorem modeZero_wrote {k : Scene} {u : Nat} (zero : ∀ l ∈ k.ls, k.x.port u offM l = 0) (s : State) (n : Nat) :
    modeZero u (k.wrote s u n) k.ls = none := by
  have other : offM ≠ landing u n := (landing_lt u n).ne'
  have none_bad : (k.ls.filter fun l => (k.wrote s u n).port u offM l != 0) = [] := by
    rw [List.filter_eq_nil_iff]
    intro l hl
    simp [wrote_port k s u n (off := offM) (by decide), Scene.arg, other, zero l hl]
  rw [modeZero, failLanes, none_bad]
  rfl

/-- The state in which the operation of a lone trigger starts: its warp written, counted and triggered, one number taken. -/
theorem begun_spec {k : Scene} {s : State} {t : Trig} {u n : Nat} (h : k.Of s t u n) (o : OpSpec) :
    OwnWarp k.w s (k.begun s t o u n) ∧ (k.begun s t o u n).nextId = s.nextId + 1 ∧
      (k.begun s t o u n).warp? k.w = some (k.triggered s t o u n) := by
  have ready : (s.setWarp k.w (k.ready s t o u n)).warp? k.w = some (k.ready s t o u n) := by
    rw [State.warp?_setWarp_same, h.warp, Option.map_some]
  refine ⟨((OwnWarp.modWarp s k.w _).trans (.takeId _ _)).trans (.modWarp _ _ _), ?_, ?_⟩
  · simp [Scene.begun, State.modWarp, State.setWarp]
  · rw [Scene.begun, State.warp?_modWarp_same, State.warp?_takeId, ready, Option.map_some, Scene.triggered]

/-- A warp with one more result in flight. -/
def Warp.addFill (x : Warp) (f : Fill) : Warp := { x with fills := x.fills ++ [f] }

theorem Started.addFill {k : Scene} {s : State} {u n : Nat} {z : Warp} (st : Started k s u n z) (f : Fill) :
    Started k s u n (z.addFill f) := by
  obtain ⟨eq, loops, units, operand, elem, last⟩ := st
  refine ⟨?_, loops, units, operand, elem, last⟩
  rw [Warp.addFill, eq]

theorem startFill_warp? (u opc lat : Nat) (res : State → Warp → Begin → List LaneRes) {s : State} {b : Begin} {z : Warp}
    (h : s.warp? b.w = some z) : (startFill u opc lat res s b).warp? b.w =
      some (z.addFill { id := b.id, unit := u, opc := opc, due := s.clk + lat, res := res s z b }) := by
  rw [startFill, State.warp?_modWarp_same, h]
  rfl

theorem fills_stepLanes (x : Warp) (pc : W32) (ls : List Nat) : (x.stepLanes pc ls).fills = x.fills := by
  have e := congrArg Warp.fills (stepLanes_stepped x pc ls).eq
  exact e

section
variable {k : Scene} {s : State} {t : Trig} {u n lat : Nat} {i : Instr} {o : OpSpec} {res : State → Warp → Begin → List LaneRes}

/-- The issue of a trigger whose operation starts a result: all that LaneIssue says, and the fill in flight. `R` is what the result function
gives, for all that it may look at. -/
theorem trigger_fills (h : k.Of s t u n) (hexec : exec i s = issueOne o t s) (ho : o.OfLanes u n)
    (check : o.check s k.tm (k.wrote s u n) k.x k.ls k.c.pc = none) (accept : o.accept = acceptAll) (start : o.start = startFill u n lat res)
    (R : Warp → List LaneRes) (hR : ∀ s₂ y x', k.Sees s u n y → k.Sees s u n x' → res s₂ y (k.begin s) = R x') :
    ∃ s' x', exec i s = .next s' ∧ LaneIssue k s s' u n x' ∧
      x'.fills = k.x.fills ++ [{ id := s.nextId, unit := u, opc := n, due := s.clk + lat, res := R x' }] := by
  obtain ⟨own, id, there⟩ := begun_spec h o
  obtain ⟨st, fills⟩ := triggered_started k s t o u n
  have sees : k.Sees s u n (k.triggered s t o u n) := ⟨(congrArg Warp.w32 st.eq :), st.operand⟩
  have runs : exec i s = .next (k.ended s.clk (startFill u n lat res (k.begun s t o u n) (k.begin s))) := by
    rw [hexec, issueOne, issueMoves_move h ho check (by rw [accept]; rfl), commitMoves_move h ho, start]
  generalize k.begun s t o u n = s₂ at own id there runs
  generalize k.triggered s t o u n = z at there st fills sees
  have started := startFill_warp? u n lat res (b := k.begin s) there
  rw [own.device.clk] at started
  have issue := ended_laneIssue h (own.trans (.modWarp s₂ k.w _)) ((State.modTeam_nextId ..).trans id) started (st.addFill _)
  have filled : ∀ f, (((z.addFill f).stepLanes k.c.pc k.c.active).closed s.clk k.c).fills = k.x.fills ++ [f] := fun f => by
    rw [Warp.fills_closed, fills_stepLanes, Warp.addFill, fills]
  refine ⟨_, _, runs, issue, ?_⟩
  rw [filled, ← hR s₂ z _ sees ⟨issue.issue.kept.w32, issue.issue.landed.operand⟩]
  rfl

end

/-! ## The checks and the results of the units -/

section
variable {k : Scene} {s : State} {t : Trig} {u n lat : Nat} {i : Instr} {res : State → Warp → Begin → List LaneRes}

theorem laneOp_ofLanes (hu : u < 8) (n lat : Nat) (res : State → Warp → Begin → List LaneRes) : (laneOp u n lat res).OfLanes u n :=
  ⟨rfl, rfl, hu, rfl, rfl⟩

/-- An operation of int0, int1, cmp0 or cvt0 whose mode port is zero fills its results after its latency. -/
theorem laneOp_fills (h : k.Of s t u n) (zero : ∀ l ∈ k.ls, k.x.port u offM l = 0) (hu : u < 8)
    (hexec : exec i s = issueOne (laneOp u n lat res) t s) (R : Warp → List LaneRes)
    (hR : ∀ s₂ y x', k.Sees s u n y → k.Sees s u n x' → res s₂ y (k.begin s) = R x') :
    ∃ s' x', exec i s = .next s' ∧ LaneIssue k s s' u n x' ∧
      x'.fills = k.x.fills ++ [{ id := s.nextId, unit := u, opc := n, due := s.clk + lat, res := R x' }] :=
  trigger_fills h hexec (laneOp_ofLanes hu n lat res) (modeZero_wrote zero s n) rfl rfl R hR

/-- The results of an operation on the operands of each lane. -/
theorem map_laneRes {y : Warp} (sees : k.Sees s u n y) (f : W64 → W64 → W64 → W64 × W64) :
    k.ls.map (laneRes y u f) = k.ls.map fun l =>
      let v := f (k.arg s u n offA l) (k.arg s u n offB l) (k.arg s u n offC l)
      plainLane l v.1 v.2 := by
  refine List.map_congr_left fun l hl => ?_
  rw [laneRes, sees.arg hl (by decide), sees.arg hl (by decide), sees.arg hl (by decide)]
  rfl

/-- The floating-point results of an operation on the operands of each lane, under the lane's NFR (R159, R164). -/
theorem map_floatRes {y : Warp} (sees : k.Sees s u n y) (f : FEnv → W64 → W64 → W64 → FRes) :
    k.ls.map (floatRes y u f k.x) = k.ls.map fun l =>
      floatLane (k.x.lane l).nfr l
        (f (envOf (k.x.lane l).nfr) (k.arg s u n offA l) (k.arg s u n offB l) (k.arg s u n offC l)) := by
  refine List.map_congr_left fun l hl => ?_
  rw [floatRes, sees.arg hl (by decide), sees.arg hl (by decide), sees.arg hl (by decide)]
  rfl

end

end Sys2Proof.Machine
end

section
/-! PROOFS. The words that integer operations give, as the numbers of the tables of spec/04_lane_units.md (R157, R166 to R168). -/

namespace Sys2Proof.Machine

/-! ## Port values as numbers -/

theorem nat32_eq (a : W64) : nat32 a = (lo32 a).toNat := by simp [nat32, lo32]

theorem nat32_lt (a : W64) : nat32 a < 2 ^ 32 := Nat.mod_lt _ (by decide)

theorem int32_eq (a : W64) : int32 a = (lo32 a).toInt := by
  rw [int32, BitVec.toInt_eq_toNat_cond, nat32_eq]
  split_ifs <;> first | rfl | omega

theorem int64_eq (a : W64) : int64 a = a.toInt := by
  rw [int64, BitVec.toInt_eq_toNat_cond]
  split_ifs <;> first | rfl | omega

theorem put32_eq (x : Int) : put32 x = zext32 (BitVec.ofInt 32 x) := by
  apply BitVec.eq_of_toNat_eq
  simp [put32, zext32, BitVec.toNat_ofInt]

theorem put64_eq (x : Int) : put64 x = BitVec.ofInt 64 x := by
  apply BitVec.eq_of_toNat_eq
  simp [put64, BitVec.toNat_ofInt]
  omega

theorem ofInt_nat32 (a : W64) : BitVec.ofInt 32 (nat32 a) = lo32 a := by rw [nat32_eq, BitVec.ofInt_natCast, BitVec.ofNat_toNat, BitVec.setWidth_eq]

theorem ofInt_int32 (a : W64) : BitVec.ofInt 32 (int32 a) = lo32 a := by rw [int32_eq, BitVec.ofInt_toInt]

theorem ofInt_toNat64 (a : W64) : BitVec.ofInt 64 a.toNat = a := by rw [BitVec.ofInt_natCast, BitVec.ofNat_toNat, BitVec.setWidth_eq]

theorem ofInt_int64 (a : W64) : BitVec.ofInt 64 (int64 a) = a := by rw [int64_eq, BitVec.ofInt_toInt]

theorem ofInt_sub (w : Nat) (x y : Int) : BitVec.ofInt w (x - y) = BitVec.ofInt w x - BitVec.ofInt w y := by
  rw [Int.sub_eq_add_neg, BitVec.ofInt_add, BitVec.ofInt_neg, BitVec.sub_eq_add_neg]

/-! ## Sums -/

theorem add_value (a b : W64) : zext32 (lo32 a + lo32 b) = put32 (nat32 a + nat32 b) := by
  rw [put32_eq, BitVec.ofInt_add, ofInt_nat32, ofInt_nat32]

theorem sub_value (a b : W64) : zext32 (lo32 a - lo32 b) = put32 (nat32 a - nat32 b) := by
  rw [put32_eq, ofInt_sub, ofInt_nat32, ofInt_nat32]

theorem add64_value (a b : W64) : a + b = put64 (a.toNat + b.toNat) := by
  rw [put64_eq, BitVec.ofInt_add, ofInt_toNat64, ofInt_toNat64]

theorem sub64_value (a b : W64) : a - b = put64 (a.toNat - b.toNat) := by
  rw [put64_eq, ofInt_sub, ofInt_toNat64, ofInt_toNat64]

/-! ## Shifts -/

theorem shiftLeft_value {w : Nat} (x : BitVec w) (k : Nat) : x <<< k = BitVec.ofInt w (x.toNat * 2 ^ k) := by
  have e : (x.toNat : Int) * 2 ^ k = (x.toNat <<< k : Nat) := by rw [Nat.shiftLeft_eq]; push_cast; rfl
  rw [e, BitVec.ofInt_natCast]
  rfl

/-- A shift multiplies, whatever number a word stands for. -/
theorem ofInt_shiftLeft (w : Nat) (z : Int) (k : Nat) : BitVec.ofInt w z <<< k = BitVec.ofInt w (z * 2 ^ k) := by
  rw [shiftLeft_value, BitVec.ofInt_mul, BitVec.ofInt_mul, BitVec.ofInt_natCast, BitVec.ofNat_toNat, BitVec.setWidth_eq]

theorem shiftRight_value {w : Nat} (x : BitVec w) (k : Nat) : x >>> k = BitVec.ofInt w (x.toNat / 2 ^ k) := by
  have e : (x.toNat : Int) / 2 ^ k = ((x >>> k).toNat : Nat) := by
    rw [BitVec.toNat_ushiftRight, Nat.shiftRight_eq_div_pow]
    push_cast
    rfl
  rw [e, BitVec.ofInt_natCast, BitVec.ofNat_toNat, BitVec.setWidth_eq]

theorem sshiftRight_value {w : Nat} (x : BitVec w) (k : Nat) : x.sshiftRight k = BitVec.ofInt w (x.toInt / 2 ^ k) := by
  rw [BitVec.sshiftRight, Int.shiftRight_eq_div_pow]
  norm_cast

theorem shl_value (a b : W64) : zext32 (shl32 (lo32 a) b) = if 32 ≤ b.toNat then 0 else put32 (nat32 a * 2 ^ b.toNat) := by
  rw [shl32, put32_eq, nat32_eq, ← shiftLeft_value]
  split <;> rfl

theorem shr_value (a b : W64) : zext32 (shr32 (lo32 a) b) = if 32 ≤ b.toNat then 0 else put32 (nat32 a / 2 ^ b.toNat) := by
  rw [shr32, put32_eq, nat32_eq, ← shiftRight_value]
  split <;> rfl

theorem int32_neg (a : W64) : int32 a < 0 ↔ (lo32 a).getLsbD 31 = true := by
  have msb : (lo32 a).msb = (lo32 a).getLsbD 31 := BitVec.msb_eq_getLsbD_last _
  rw [int32_eq, ← msb, BitVec.msb_eq_toInt, decide_eq_true_eq]

theorem sar_value (a b : W64) : zext32 (sar32 (lo32 a) b) =
    if 32 ≤ b.toNat then (if int32 a < 0 then 0xFFFFFFFF else 0) else put32 (int32 a / 2 ^ b.toNat) := by
  simp only [sar32, put32_eq, int32_neg]
  rw [int32_eq, ← sshiftRight_value]
  split_ifs <;> rfl

theorem shl64_value (a b : W64) :
    (if 64 ≤ b.toNat then 0 else a <<< b.toNat) = if 64 ≤ b.toNat then 0 else put64 (a.toNat * 2 ^ b.toNat) := by
  rw [put64_eq, ← shiftLeft_value]

theorem shr64_value (a b : W64) :
    (if 64 ≤ b.toNat then 0 else a >>> b.toNat) = if 64 ≤ b.toNat then 0 else put64 (a.toNat / 2 ^ b.toNat) := by
  rw [put64_eq, ← shiftRight_value]

theorem sar64_value (a b : W64) : a.sshiftRight (Nat.min b.toNat 63) =
    if 64 ≤ b.toNat then (if int64 a < 0 then put64 (-1) else 0) else put64 (int64 a / 2 ^ b.toNat) := by
  rw [sshiftRight_value, ← int64_eq, put64_eq, put64_eq]
  split_ifs with big neg
  · have all : Nat.min b.toNat 63 = 63 := Nat.min_eq_right (by omega)
    have q : int64 a / 2 ^ 63 = -1 := by rw [int64] at neg ⊢; omega
    rw [all, q]
  · have all : Nat.min b.toNat 63 = 63 := Nat.min_eq_right (by omega)
    have q : int64 a / 2 ^ 63 = 0 := by rw [int64] at neg ⊢; omega
    rw [all, q]
    rfl
  · have all : Nat.min b.toNat 63 = b.toNat := Nat.min_eq_left (by omega)
    rw [all]

/-! ## Least and greatest -/

theorem minS32_value (a b : W64) : zext32 (if s32 a ≤ s32 b then lo32 a else lo32 b) = put32 (min (int32 a) (int32 b)) := by
  rw [put32_eq, s32, s32, ← int32_eq, ← int32_eq, min_def]
  split_ifs <;> rw [ofInt_int32]

theorem maxS32_value (a b : W64) : zext32 (if s32 a ≤ s32 b then lo32 b else lo32 a) = put32 (max (int32 a) (int32 b)) := by
  rw [put32_eq, s32, s32, ← int32_eq, ← int32_eq, max_def]
  split_ifs <;> rw [ofInt_int32]

theorem minU32_value (a b : W64) : zext32 (if u32 a ≤ u32 b then lo32 a else lo32 b) = put32 (min (nat32 a) (nat32 b) : Nat) := by
  rw [put32_eq, u32, u32, ← nat32_eq, ← nat32_eq, min_def]
  split_ifs <;> rw [ofInt_nat32]

theorem maxU32_value (a b : W64) : zext32 (if u32 a ≤ u32 b then lo32 b else lo32 a) = put32 (max (nat32 a) (nat32 b) : Nat) := by
  rw [put32_eq, u32, u32, ← nat32_eq, ← nat32_eq, max_def]
  split_ifs <;> rw [ofInt_nat32]

theorem minS64_value (a b : W64) : (if a.toInt ≤ b.toInt then a else b) = put64 (min (int64 a) (int64 b)) := by
  rw [put64_eq, ← int64_eq, ← int64_eq, min_def]
  split_ifs <;> rw [ofInt_int64]

theorem maxS64_value (a b : W64) : (if a.toInt ≤ b.toInt then b else a) = put64 (max (int64 a) (int64 b)) := by
  rw [put64_eq, ← int64_eq, ← int64_eq, max_def]
  split_ifs <;> rw [ofInt_int64]

/-! ## Bits and magnitudes -/

theorem abs_value (a : W64) : absRes a = (put32 (int32 a).natAbs, if nat32 a = 0x80000000 then 4 else 0) := by
  have e : (lo32 a = 0x80000000) = (nat32 a = 0x80000000) := by
    rw [nat32_eq, ← BitVec.toNat_inj]; rfl
  rw [absRes, put32_eq, s32, ← int32_eq]
  simp only [e]

theorem clz_value (a : W64) : BitVec.ofNat 64 (32 - sigBits (u32 a)) = BitVec.ofNat 64 (if nat32 a = 0 then 32 else 31 - Nat.log2 (nat32 a)) := by
  rw [sigBits, u32, ← nat32_eq]
  split_ifs
  · rfl
  · congr 1
    omega

theorem lea_value (a b c : W64) : a + ((lo32 b).signExtend 64 <<< c.toNat) = put64 (a.toNat + int32 b * 2 ^ c.toNat) := by
  have extended : (lo32 b).signExtend 64 = BitVec.ofInt 64 (int32 b) := by rw [int32_eq]; rfl
  rw [put64_eq, BitVec.ofInt_add, ofInt_toNat64, extended, ofInt_shiftLeft]

/-! ## Clamped sums -/

theorem clamp_value (x : Int) : clampS32 x = put32Sat x := by
  simp only [clampS32, satInt, put32Sat, put32_eq]
  norm_num only
  split_ifs <;> first | rfl | omega

theorem addsat_value (a b : W64) : clampS32 (s32 a + s32 b) = put32Sat (int32 a + int32 b) := by
  rw [clamp_value, int32_eq, int32_eq]
  rfl

theorem subsat_value (a b : W64) : clampS32 (s32 a - s32 b) = put32Sat (int32 a - int32 b) := by
  rw [clamp_value, int32_eq, int32_eq]
  rfl

end Sys2Proof.Machine
end

section
/-! PROOFS. Fields, reversals and masks of bits as numbers (spec/04_lane_units.md R166, R167, R176). -/

namespace Sys2Proof.Machine

/-! ## Masks -/

theorem getLsbD_maskOf (ls : List Nat) (i : Nat) : (maskOf ls).getLsbD i = (decide (i < 64) && ls.contains i) := by
  induction ls with
  | nil => simp [maskOf]
  | cons l r ih =>
    rw [maskOf, BitVec.getLsbD_or, ih, BitVec.getLsbD_ofNat, Nat.testBit_two_pow, List.contains_cons]
    have same : decide (l = i) = (i == l) := by rw [beq_eq_decide]; exact decide_eq_decide.mpr eq_comm
    rw [same, Bool.and_or_distrib_left]

/-- A mask of different lanes is the sum of their bits. -/
theorem maskOf_eq_sum {ls : List Nat} (nodup : ls.Nodup) (inside : ∀ l ∈ ls, l < 64) :
    maskOf ls = BitVec.ofNat 64 (ls.map fun l => 2 ^ l).sum := by
  induction ls with
  | nil => rfl
  | cons l r ih =>
    obtain ⟨new, nodup⟩ := List.nodup_cons.mp nodup
    have apart : BitVec.ofNat 64 (2 ^ l) &&& maskOf r = 0 := by
      apply BitVec.eq_of_getLsbD_eq
      intro i hi
      rw [BitVec.getLsbD_and, BitVec.getLsbD_ofNat, Nat.testBit_two_pow, getLsbD_maskOf]
      by_cases e : l = i
      · subst e; simp [new]
      · simp [e]
    rw [maskOf, ← BitVec.add_eq_or_of_and_eq_zero _ _ apart, List.map_cons, List.sum_cons, BitVec.ofNat_add,
      ih nodup fun j hj => inside j (List.mem_cons_of_mem _ hj)]

/-- A sum of bits of the numbers that a test picks. -/
theorem sum_ite_eq_sum_filter (p : Nat → Bool) (f : Nat → Nat) (l : List Nat) :
    (l.map fun i => if p i then f i else 0).sum = ((l.filter p).map f).sum := by
  induction l with
  | nil => rfl
  | cons i r ih => cases h : p i <;> simp [h, ih]

/-! ## Reversal -/

theorem brev_value (a : W64) : zext32 (lo32 a).reverse =
    BitVec.ofNat 64 ((List.range 32).map fun i => if a.getLsbD i then 2 ^ (31 - i) else 0).sum := by
  have bits : (((List.range 32).filter fun i => a.getLsbD i).map fun i => 31 - i).Nodup := by
    refine (List.nodup_range.filter _).map_on fun i hi j hj e => ?_
    simp only [List.mem_filter, List.mem_range] at hi hj
    omega
  have sum := maskOf_eq_sum bits fun l hl => by
    obtain ⟨i, -, rfl⟩ := List.mem_map.mp hl
    omega
  rw [List.map_map] at sum
  rw [sum_ite_eq_sum_filter (fun i => a.getLsbD i)]
  refine Eq.trans ?_ sum
  apply BitVec.eq_of_getLsbD_eq
  intro j hj
  rw [getLsbD_maskOf, zext32, BitVec.getLsbD_setWidth, BitVec.getLsbD_reverse, BitVec.getMsbD_eq_getLsbD, lo32, BitVec.getLsbD_setWidth,
    Bool.eq_iff_iff]
  simp only [hj, decide_true, Bool.true_and, List.contains_iff_mem, List.mem_map, List.mem_filter, List.mem_range, Bool.and_eq_true,
    decide_eq_true_eq]
  constructor
  · rintro ⟨low, -, bit⟩
    exact ⟨31 - j, ⟨by omega, bit⟩, by omega⟩
  · rintro ⟨i, ⟨hi, bit⟩, rfl⟩
    have back : 31 - (31 - i) = i := by omega
    exact ⟨by omega, by omega, by rw [show 32 - 1 - (31 - i) = i by omega]; exact bit⟩

/-! ## Fields -/

theorem fieldLen_eq (k : W64) : fieldLen (lo32 k) = ctrlLen (nat32 k) := by rw [nat32_eq]; rfl

theorem ctrlLen_le (k : Nat) : k % 32 + ctrlLen k ≤ 32 := by
  rw [ctrlLen]
  omega

theorem bfx_value (a b : W64) : zext32 (bfx (lo32 a) (lo32 b)) =
    let n := ctrlLen (nat32 b)
    let f := nat32 a / 2 ^ (nat32 b % 32) % 2 ^ n
    if nat32 b / 2 ^ 16 % 2 = 1 ∧ 0 < n ∧ 2 ^ (n - 1) ≤ f then put32 (f - 2 ^ n) else put32 f := by
  have signed : (lo32 b).getLsbD 16 = decide (nat32 b / 2 ^ 16 % 2 = 1) := by
    rw [nat32_eq, BitVec.getLsbD, Nat.testBit_eq_decide_div_mod_eq]
  simp only [bfx, signed, fieldLen_eq, ← nat32_eq, put32_eq]
  generalize ctrlLen (nat32 b) = n
  generalize nat32 a / 2 ^ (nat32 b % 32) = g
  have value : sextNat (g % 2 ^ n) n = if g % 2 ^ n < 2 ^ (n - 1) then ((g % 2 ^ n : Nat) : Int) else (g % 2 ^ n : Nat) - 2 ^ n := by
    rw [sextNat, Nat.mod_mod]
  rw [value]
  generalize g % 2 ^ n = f
  generalize nat32 b / 2 ^ 16 % 2 = sign
  by_cases extend : sign = 1 ∧ 0 < n
  · obtain ⟨rfl, pos⟩ := extend
    by_cases neg : f < 2 ^ (n - 1)
    · simp [pos, pos.ne', neg]
    · simp [pos, pos.ne', neg, Nat.not_lt.mp neg]
  · have unsigned : (decide (sign = 1) && n != 0) = false := by
      simpa [Nat.pos_iff_ne_zero] using extend
    have plain : ¬ (sign = 1 ∧ 0 < n ∧ 2 ^ (n - 1) ≤ f) := fun h => extend ⟨h.1, h.2.1⟩
    rw [unsigned, if_neg plain, BitVec.ofInt_natCast]
    rfl

/-- A number with `n` bits from bit `p` on taken from another: the bits inside come from that, the others stay. -/
theorem testBit_insert (a b p n i : Nat) :
    (a / 2 ^ (p + n) * 2 ^ (p + n) + b % 2 ^ n * 2 ^ p + a % 2 ^ p).testBit i =
      if i < p then a.testBit i else if i < p + n then b.testBit (i - p) else a.testBit i := by
  have shape : a / 2 ^ (p + n) * 2 ^ (p + n) + b % 2 ^ n * 2 ^ p + a % 2 ^ p =
      2 ^ p * (2 ^ n * (a / 2 ^ (p + n)) + b % 2 ^ n) + a % 2 ^ p := by ring
  rw [shape, Nat.testBit_two_pow_mul_add _ (Nat.mod_lt _ (Nat.two_pow_pos p)), Nat.testBit_two_pow_mul_add _ (Nat.mod_lt _ (Nat.two_pow_pos n)),
    Nat.testBit_mod_two_pow, Nat.testBit_mod_two_pow, Nat.testBit_div_two_pow]
  split_ifs with low inside inside' inside'
  · simp [low]
  · simp [inside]
  · omega
  · omega
  · congr 1
    omega

theorem bfi_value (a b c : W64) : zext32 (bfi (lo32 a) (lo32 b) (lo32 c)) =
    let n := ctrlLen (nat32 c)
    let p := nat32 c % 32
    put32 (nat32 a / 2 ^ (p + n) * 2 ^ (p + n) + nat32 b % 2 ^ n * 2 ^ p + nat32 a % 2 ^ p) := by
  have fits := ctrlLen_le (nat32 c)
  simp only [bfi, fieldLen_eq, ← nat32_eq c, put32_eq]
  generalize ctrlLen (nat32 c) = n at fits ⊢
  generalize nat32 c % 32 = p at fits ⊢
  congr 1
  have number : ((nat32 a : Int) / 2 ^ (p + n) * 2 ^ (p + n) + nat32 b % 2 ^ n * 2 ^ p + nat32 a % 2 ^ p) =
      (nat32 a / 2 ^ (p + n) * 2 ^ (p + n) + nat32 b % 2 ^ n * 2 ^ p + nat32 a % 2 ^ p : Nat) := by push_cast; rfl
  rw [number, BitVec.ofInt_natCast]
  apply BitVec.eq_of_getLsbD_eq
  intro i hi
  have mask (j : Nat) : (BitVec.ofNat 32 (2 ^ n - 1)).getLsbD j = (decide (j < 32) && decide (j < n)) := by
    rw [BitVec.getLsbD_ofNat, Nat.testBit_two_pow_sub_one]
  rw [BitVec.getLsbD_ofNat, testBit_insert, nat32_eq, nat32_eq, ← BitVec.getLsbD, ← BitVec.getLsbD]
  simp only [BitVec.getLsbD_or, BitVec.getLsbD_and, BitVec.getLsbD_not, BitVec.getLsbD_shiftLeft, mask, hi, decide_true, Bool.true_and]
  by_cases low : i < p
  · simp [low]
  · by_cases inside : i < p + n
    · have short : i - p < n := by omega
      have word : i - p < 32 := by omega
      simp [low, inside, short, word]
    · have beyond : ¬ i - p < n := by omega
      simp [low, inside, beyond]

end Sys2Proof.Machine
end

section
/-! PROOFS. int0 and int1: each opcode is an operation that gives its table's value (spec/04_lane_units.md R166 to R168). -/

namespace Sys2Proof.Machine

/-- An operation of int0 or int1 with opcode `n` that gives `f` after one clk; a lea fails where a count is above 3 (R168). -/
structure OpSpec.GivesInt (o : OpSpec) (u : Fin 2) (n : Nat) (f : W64 → W64 → W64 → W64 × W64) : Prop where
  ofLanes : o.OfLanes u n
  accept : o.accept = acceptAll
  start : o.start = startFill u n 1 fun _ x b => b.lanes.map (laneRes x u f)
  check : ∀ s t wr x ls pc, modeZero u wr ls = none → (n = 29 → ∀ l ∈ ls, (wr.port u offC l).toNat ≤ 3) → o.check s t wr x ls pc = none

theorem unitInt_lt (u : Fin 2) : (u : Nat) < 8 := Nat.lt_of_lt_of_le u.isLt (by decide)

theorem intOp_gives {u : Fin 2} {n : Nat} {f g : W64 → W64 → W64 → W64 × W64} (hg : ∀ a b c, g a b c = f a b c) :
    (intOp u n g).GivesInt u n f := by
  obtain rfl : g = f := funext fun a => funext fun b => funext (hg a b)
  exact ⟨laneOp_ofLanes (unitInt_lt u) _ _ _, rfl, rfl, fun _ _ _ _ _ _ zero _ => zero⟩

theorem opIntLea_gives (u : Fin 2) : (opIntLea u).GivesInt u 29 fun a b c => (put64 (a.toNat + int32 b * 2 ^ c.toNat), 0) := by
  have value : (fun a b c : W64 => (a + ((lo32 b).signExtend 64 <<< c.toNat), (0 : W64))) =
      fun a b c => (put64 (a.toNat + int32 b * 2 ^ c.toNat), 0) := by
    funext a b c
    rw [lea_value]
  refine ⟨⟨rfl, rfl, unitInt_lt u, rfl, rfl⟩, rfl, ?_, fun s t wr x ls pc zero small => ?_⟩
  · rw [← value]
    rfl
  · have none_bad : (ls.filter fun l => decide (3 < (wr.port u offC l).toNat)) = [] := by
      rw [List.filter_eq_nil_iff]
      intro l hl
      simpa using small rfl l hl
    change orElse (modeZero u wr ls) (failLanes 8 codeIllegalOp ls _) = none
    rw [zero, failLanes]
    change (if (ls.filter fun l => decide (3 < (wr.port u offC l).toNat)).isEmpty then _ else _) = _
    rw [none_bad]
    rfl

theorem sel_value (a b c : W64) : (if c = 0 then b else a) = if c ≠ 0 then a else b := (ite_not ..).symm

/-- A row of the table, with its opcode, is the meaning of its instruction. -/
def IntRow (u : Fin 2) (t : Trig) (e : (Instr × (W64 → W64 → W64 → W64 × W64)) × Nat) : Prop :=
  ∃ o : OpSpec, o.GivesInt u e.2 e.1.2 ∧ ∀ s, exec e.1.1 s = issueOne o t s

theorem intRow_of_intOp {u : Fin 2} {t : Trig} {n : Nat} {i : Instr} {f g : W64 → W64 → W64 → W64 × W64}
    (hexec : ∀ s, exec i s = issueOne (intOp u n g) t s) (hg : ∀ a b c, g a b c = f a b c) : IntRow u t ((i, f), n) :=
  ⟨_, intOp_gives hg, hexec⟩

/-- A row of an operation that leaves .y2 zero. -/
theorem intRow_of_value {u : Fin 2} {t : Trig} {n : Nat} {i : Instr} {f g : W64 → W64 → W64 → W64}
    (hexec : ∀ s, exec i s = issueOne (intOp u n fun a b c => (g a b c, 0)) t s) (hg : ∀ a b c, g a b c = f a b c) :
    IntRow u t ((i, fun a b c => (f a b c, 0)), n) :=
  intRow_of_intOp hexec fun a b c => congrArg (·, 0) (hg a b c)

theorem intRows_meet (u : Fin 2) (t : Trig) : (intRows u t).zipIdx.Forall (IntRow u t) := by
  refine ⟨intRow_of_value (fun _ => rfl) fun a b _ => add_value a b,
    intRow_of_value (fun _ => rfl) fun a b _ => sub_value a b,
    intRow_of_value (fun _ => rfl) fun a b _ => add64_value a b,
    intRow_of_value (fun _ => rfl) fun a b _ => sub64_value a b,
    intRow_of_intOp (fun _ => rfl) fun _ _ _ => rfl,
    intRow_of_intOp (fun _ => rfl) fun _ _ _ => rfl,
    intRow_of_intOp (fun _ => rfl) fun _ _ _ => rfl,
    intRow_of_intOp (fun _ => rfl) fun _ _ _ => rfl,
    intRow_of_value (fun _ => rfl) fun a b _ => shl_value a b,
    intRow_of_value (fun _ => rfl) fun a b _ => shr_value a b,
    intRow_of_value (fun _ => rfl) fun a b _ => sar_value a b,
    intRow_of_value (fun _ => rfl) fun a b _ => shl64_value a b,
    intRow_of_value (fun _ => rfl) fun a b _ => shr64_value a b,
    intRow_of_value (fun _ => rfl) fun a b _ => sar64_value a b,
    intRow_of_value (fun _ => rfl) fun a b _ => minS32_value a b,
    intRow_of_value (fun _ => rfl) fun a b _ => maxS32_value a b,
    intRow_of_value (fun _ => rfl) fun a b _ => minU32_value a b,
    intRow_of_value (fun _ => rfl) fun a b _ => maxU32_value a b,
    intRow_of_value (fun _ => rfl) fun a b _ => minS64_value a b,
    intRow_of_value (fun _ => rfl) fun a b _ => maxS64_value a b,
    intRow_of_value (fun _ => rfl) fun a b c => sel_value a b c,
    intRow_of_intOp (fun _ => rfl) fun a _ _ => abs_value a,
    intRow_of_value (fun _ => rfl) fun a _ _ => clz_value a,
    intRow_of_intOp (fun _ => rfl) fun _ _ _ => rfl,
    intRow_of_value (fun _ => rfl) fun a _ _ => brev_value a,
    intRow_of_value (fun _ => rfl) fun a b _ => bfx_value a b,
    intRow_of_value (fun _ => rfl) fun a b c => bfi_value a b c,
    intRow_of_intOp (fun _ => rfl) fun a b _ => addsat_value a b,
    intRow_of_intOp (fun _ => rfl) fun a b _ => subsat_value a b,
    ⟨_, opIntLea_gives u, fun _ => rfl⟩,
    intRow_of_intOp (fun _ => rfl) fun _ _ _ => rfl⟩

/-- Settles O1: each row's instruction starts an operation that gives the row's value, its checks pass, and a trigger whose checks pass
commits and starts its result. -/
theorem integerOperationsFillAfterOneClk : Obligations.IntegerOperationsFillAfterOneClk := by
  intro s u t n i f k row h zero small
  obtain ⟨o, gives, hexec⟩ := List.forall_iff_forall_mem.mp (intRows_meet u t) _ (List.mk_mem_zipIdx_iff_getElem?.mpr row)
  refine trigger_fills h (hexec s) gives.ofLanes (gives.check _ _ _ _ _ _ (modeZero_wrote zero s n) ?_) gives.accept gives.start
    (fun _ => _) fun _ y _ sees _ => map_laneRes sees f
  intro lea l hl
  have lands : offC = landing u n := by
    have both : ∀ v : Fin 2, offC = landing v 29 := by decide
    obtain rfl : n = 29 := lea
    exact both u
  rw [wrote_port k s u n (by decide), if_pos hl, Scene.arg, if_pos lands]
  exact small lea l hl

end Sys2Proof.Machine
end

section
/-! PROOFS. cmp0: conditions on numbers and on floating-point values (spec/04_lane_units.md R174, R175). -/

namespace Sys2Proof.Machine

/-! ## Conditions on numbers -/

theorem eq_cond (a b : W64) : (lo32 a == lo32 b) = decide (nat32 a = nat32 b) := by
  rw [nat32_eq, nat32_eq, beq_eq_decide, decide_eq_decide]
  exact BitVec.toNat_inj.symm

theorem ne_cond (a b : W64) : (lo32 a != lo32 b) = decide (nat32 a ≠ nat32 b) := by
  rw [bne, eq_cond, decide_not]

theorem ltS32_cond (a b : W64) : decide (s32 a < s32 b) = decide (int32 a < int32 b) := by rw [int32_eq, int32_eq]; rfl

theorem leS32_cond (a b : W64) : decide (s32 a ≤ s32 b) = decide (int32 a ≤ int32 b) := by rw [int32_eq, int32_eq]; rfl

theorem ltU32_cond (a b : W64) : decide (u32 a < u32 b) = decide (nat32 a < nat32 b) := by rw [nat32_eq, nat32_eq]; rfl

theorem leU32_cond (a b : W64) : decide (u32 a ≤ u32 b) = decide (nat32 a ≤ nat32 b) := by rw [nat32_eq, nat32_eq]; rfl

theorem ltS64_cond (a b : W64) : decide (a.toInt < b.toInt) = decide (int64 a < int64 b) := by rw [int64_eq, int64_eq]

/-- The class of binary32 bits, read from the fields of the word as from the decoded value (R175). -/
theorem classOf_eq {x : Nat} (hx : x < 2 ^ 32) : classOf x = class32 x := by
  have sign : (x / 2 ^ 31 % 2 == 1) = decide (x / 2 ^ 31 = 1) := by
    rw [beq_eq_decide, decide_eq_decide]
    omega
  have quiet : (x % 2 ^ 23 / 2 ^ 22 == 0) = !decide (x % 2 ^ 23 / 2 ^ 22 = 1) := by
    rw [beq_eq_decide, ← decide_not, decide_eq_decide]
    omega
  have fields : 2 ^ 8 - 1 = 255 ∧ 2 ^ 8 = 256 ∧ 23 - 1 = 22 := by decide
  simp only [classOf, class32, unpack, f32, sign, quiet, fields]
  generalize x / 2 ^ 23 % 256 = ex
  generalize x % 2 ^ 23 = fr
  by_cases top : ex = 255
  · by_cases infinite : fr = 0
    · simp [top, infinite]
    · simp [top, infinite]
  · by_cases low : ex = 0
    · simp [low]
    · simp [top, low]

theorem class_cond (a b : W64) : b.getLsbD (classOf (u32 a)) = b.getLsbD (class32 (nat32 a)) := by
  rw [u32, ← nat32_eq, classOf_eq (nat32_lt a)]

/-! ## The rows -/

/-- A row of the conditions that raise nothing, with its opcode, is the meaning of its instruction. -/
def CmpRow (t : Trig) (e : Nat × Instr × (W64 → W64 → Bool)) : Prop := ∀ s, exec e.2.1 s = issueOne (cmpOp e.1 e.2.2) t s

theorem cmpRow_of_cond {t : Trig} {n : Nat} {i : Instr} {p q : W64 → W64 → Bool} (hexec : ∀ s, exec i s = issueOne (cmpOp n q) t s)
    (hq : ∀ a b, q a b = p a b) : CmpRow t (n, i, p) := by
  obtain rfl : q = p := funext fun a => funext (hq a)
  exact hexec

theorem cmpRows_meet (t : Trig) : (cmpRows t).Forall (CmpRow t) := by
  refine ⟨cmpRow_of_cond (fun _ => rfl) eq_cond, cmpRow_of_cond (fun _ => rfl) ne_cond, cmpRow_of_cond (fun _ => rfl) ltS32_cond,
    cmpRow_of_cond (fun _ => rfl) leS32_cond, cmpRow_of_cond (fun _ => rfl) ltU32_cond, cmpRow_of_cond (fun _ => rfl) leU32_cond,
    cmpRow_of_cond (fun _ => rfl) fun a b => beq_eq_decide a b, cmpRow_of_cond (fun _ => rfl) ltS64_cond,
    cmpRow_of_cond (fun _ => rfl) fun _ _ => rfl,
    cmpRow_of_cond (fun _ => rfl) class_cond, cmpRow_of_cond (fun _ => rfl) fun a b => beq_eq_decide (a &&& b) 0⟩

/-- A row of the floating-point conditions, with its opcode, is the meaning of its instruction. -/
def FcmpRow (t : Trig) (e : Nat × Instr × (FEnv → W64 → W64 → FRes)) : Prop :=
  ∀ s, exec e.2.1 s = issueOne (laneOp unitCmp e.1 1 fun _ x b => b.lanes.map (floatRes x unitCmp (fun v a b _ => e.2.2 v a b) b.pre)) t s

theorem fcmpRows_meet (t : Trig) : (fcmpRows t).Forall (FcmpRow t) :=
  ⟨fun _ => rfl, fun _ => rfl, fun _ => rfl, fun _ => rfl, fun _ => rfl, fun _ => rfl⟩

/-- Settles O5: each row is the meaning of its instruction, whose trigger starts the row's results. -/
theorem comparesFillOneOrZero : Obligations.ComparesFillOneOrZero := by
  refine ⟨fun s t n i p k row h zero => ?_, fun s t n i f k row h zero => ?_⟩
  · have hexec := List.forall_iff_forall_mem.mp (cmpRows_meet t) _ row s
    exact laneOp_fills h zero (by decide) hexec (fun _ => _) fun _ y _ sees _ => map_laneRes sees fun a b _ => (if p a b then 1 else 0, 0)
  · have hexec := List.forall_iff_forall_mem.mp (fcmpRows_meet t) _ row s
    exact laneOp_fills h zero (by decide) hexec (fun _ => _) fun _ y _ sees _ => map_floatRes sees fun v a b _ => f v a b

end Sys2Proof.Machine
end

section
/-! PROOFS. Operations across lanes: votes of cmp0, and the index operations and sums of cvt0
(spec/04_lane_units.md R176, R183 to R186). -/

namespace Sys2Proof.Machine

/-! ## The half of a lane (R154, R186) -/

/-- The lanes in the half of lane `l`, by the number of its half or, in a native warp, all. -/
theorem sameHalf_eq {x y : Warp} (w32 : y.w32 = x.w32) (ls : List Nat) (l : Nat) : y.sameHalf ls l = halfMates x ls l := by
  unfold Warp.sameHalf Warp.halfOf halfMates
  rw [w32]
  cases x.w32 with
  | true => simp [beq_eq_decide]
  | false => simp

theorem laneAt_eq {x y : Warp} (w32 : y.w32 = x.w32) (l n : Nat) : y.laneAt l n = laneNamed x l n := by
  rw [Warp.laneAt, laneNamed, w32]

theorem laneNo_eq {x y : Warp} (w32 : y.w32 = x.w32) (l : Nat) : y.laneNo l = if x.w32 then l % 32 else l := by
  rw [Warp.laneNo, w32]

theorem halfMates_sub {x : Warp} {ls : List Nat} {l m : Nat} (h : m ∈ halfMates x ls l) : m ∈ ls := by
  unfold halfMates at h
  split at h
  · exact (List.mem_filter.mp h).1
  · exact h

/-- The lane numbers of a half are below 64, and different for different lanes. -/
theorem halfNumbers {x : Warp} {ls : List Nat} (nodup : ls.Nodup) (inside : ∀ l ∈ ls, l < 64) (p : Nat → Bool) (l : Nat) :
    (((halfMates x ls l).filter p).map fun m => if x.w32 then m % 32 else m).Nodup ∧
      ∀ j ∈ ((halfMates x ls l).filter p).map fun m => if x.w32 then m % 32 else m, j < 64 := by
  unfold halfMates
  cases x.w32 with
  | true =>
    simp only [if_true]
    refine ⟨((nodup.filter _).filter _).map_on fun a ha b hb e => ?_, fun j hj => ?_⟩
    · simp only [List.mem_filter, decide_eq_true_eq] at ha hb
      omega
    · obtain ⟨m, -, rfl⟩ := List.mem_map.mp hj
      omega
  | false =>
    simp only [Bool.false_eq_true, if_false, List.map_id']
    exact ⟨nodup.filter _, fun j hj => inside j (List.mem_filter.mp hj).1⟩

/-! ## Votes (R176) -/

/-- The votes of the lanes of a half: each lane's number, and its test. -/
def votesOf (x : Warp) (ls : List Nat) (l : Nat) (set : Nat → Bool) : List (Nat × Bool) :=
  (halfMates x ls l).map fun m => (if x.w32 then m % 32 else m, set m)

theorem votesOf_congr {x : Warp} {ls : List Nat} {l : Nat} {set set' : Nat → Bool} (h : ∀ m ∈ ls, set m = set' m) :
    votesOf x ls l set = votesOf x ls l set' :=
  List.map_congr_left fun m hm => congrArg (Prod.mk _) (h m (halfMates_sub hm))

/-- A ballot is the sum of the bits of the lanes that vote. -/
theorem ballot_eq {x y : Warp} (w32 : y.w32 = x.w32) {ls : List Nat} (nodup : ls.Nodup) (inside : ∀ m ∈ ls, m < 64) (l : Nat)
    (set : Nat → Bool) : maskOf (((halfMates x ls l).filter set).map y.laneNo) =
      BitVec.ofNat 64 (((votesOf x ls l set).filter Prod.snd).map fun e => 2 ^ e.1).sum := by
  obtain ⟨nodup', inside'⟩ := halfNumbers (x := x) nodup inside set l
  have numbers : y.laneNo = fun m => if x.w32 then m % 32 else m := funext (laneNo_eq w32)
  rw [numbers, maskOf_eq_sum nodup' inside', votesOf, List.filter_map, List.map_map, List.map_map]
  rfl

/-- A row of the votes, with its opcode, is the meaning of its instruction: a vote of the performing lanes of a half. -/
def VoteRow (t : Trig) (e : Nat × Instr × (List (Nat × Bool) → W64)) : Prop :=
  ∃ f, (∀ s, exec e.2.1 s = issueOne (voteOp e.1 f) t s) ∧ offA = landing unitCmp e.1 ∧
    ∀ (x y : Warp) (ls : List Nat) (l : Nat) (set : Nat → Bool), y.w32 = x.w32 → ls.Nodup → (∀ m ∈ ls, m < 64) →
      f y (halfMates x ls l) set = e.2.2 (votesOf x ls l set)

theorem voteRows_meet (t : Trig) : (voteRows t).Forall (VoteRow t) := by
  refine ⟨⟨_, fun _ => rfl, rfl, fun x y ls l set _ _ _ => ?_⟩, ⟨_, fun _ => rfl, rfl, fun x y ls l set _ _ _ => ?_⟩,
    ⟨_, fun _ => rfl, rfl, fun x y ls l set w32 nodup inside => ballot_eq w32 nodup inside l set⟩⟩
  · simp [votesOf, List.any_map, Function.comp_def]
  · simp [votesOf, List.all_map, Function.comp_def]

/-! ## Index operations (R183) -/

/-- A row of the index operations, with its opcode, is the meaning of its instruction: it takes .a of the lane that it names by .b. -/
def CrossRow (t : Trig) (e : Nat × Instr × (Warp → (Nat → W64) → List Nat → Nat → Nat)) : Prop :=
  ∃ src, (∀ s, exec e.2.1 s = issueOne (indexOp e.1 src) t s) ∧ offB = landing unitCvt e.1 ∧
    ∀ (x y : Warp) (b : Nat → W64) (p : List Nat) (l : Nat), y.w32 = x.w32 → (∀ m, y.port unitCvt offB m = b m) →
      src y p l = e.2.2 x b p l

theorem crossRows_meet (t : Trig) : (crossRows t).Forall (CrossRow t) := by
  refine ⟨⟨_, fun _ => rfl, rfl, fun x y b p l w32 port => ?_⟩, ⟨_, fun _ => rfl, rfl, fun x y b p l w32 port => ?_⟩,
    ⟨_, fun _ => rfl, rfl, fun x y b p l w32 port => ?_⟩⟩
  · rw [laneAt_eq w32, port]
  · rw [laneAt_eq w32, laneNo_eq w32, port]
  · rw [laneAt_eq w32, port]

/-! ## Sums (R184, R185) -/

/-- A scan at a lane gives the sum over the lanes up to it. -/
theorem scanAt_eq (x : Warp) (ls : List Nat) (l : Nat) :
    zext32 (scanAt x ls l) = put32 (((ls.filter fun m => decide (m ≤ l)).map fun m => nat32 (x.port unitCvt offA m)).sum : Nat) := by
  have sums (ls : List Nat) (a : W32) : foldOver (fun (a : W32) m => if m ≤ l then a + lo32 (x.port unitCvt offA m) else a) a ls =
      a + BitVec.ofNat 32 ((ls.filter fun m => decide (m ≤ l)).map fun m => nat32 (x.port unitCvt offA m)).sum := by
    induction ls generalizing a with
    | nil => simp [foldOver]
    | cons m r ih =>
      rw [foldOver, ih]
      by_cases le : m ≤ l
      · rw [if_pos le, List.filter_cons_of_pos (by simpa using le), List.map_cons, List.sum_cons, BitVec.ofNat_add, ← BitVec.add_assoc, nat32_eq,
          BitVec.ofNat_toNat, BitVec.setWidth_eq]
      · rw [if_neg le, List.filter_cons_of_neg (by simpa using le)]
  rw [put32_eq, BitVec.ofInt_natCast, scanAt, sums]
  congr 1
  exact BitVec.zero_add _

/-- The tree sum looks at no more than whether the warp is ganged, its NFRs before the bundle, and .a. -/
theorem redSum_congr {x y : Warp} (w32 : y.w32 = x.w32) (port : ∀ l, y.port unitCvt offA l = x.port unitCvt offA l) (pre : Warp)
    (ls : List Nat) : redSum y pre ls = redSum x pre ls := by
  simp only [redSum, w32, port]

/-! ## The operand of a lane -/

section
variable {k : Scene} {s : State} {u n : Nat} {y : Warp}

/-- What the trigger brings stands, in a performing lane, in the port where it lands. -/
theorem Scene.Sees.landed (sees : k.Sees s u n y) {off : Nat} (lands : off = landing u n) {l : Nat} (hl : l ∈ k.ls) :
    y.port u off l = k.val s l := by
  rw [sees.arg hl (lands ▸ Nat.lt_trans (landing_lt u n) (by decide)), Scene.arg, if_pos lands]

end

/-- Settles O6: each row is the meaning of its instruction, whose trigger starts the row's results, and the operands that an operation
looks at in other lanes are the landed ones in performing lanes and the old ones elsewhere. -/
theorem votesMovesAndSumsAcrossLanes : Obligations.VotesMovesAndSumsAcrossLanes := by
  refine ⟨fun s t n i f k row h zero => ?_, fun s t n i src k row h zero => ?_, fun s t k h zero => ?_, fun s t k h zero => ?_⟩
  · obtain ⟨g, hexec, lands, votes⟩ := List.forall_iff_forall_mem.mp (voteRows_meet t) _ row
    refine laneOp_fills h zero (by decide) (hexec s) (fun _ => _) fun _ y _ (sees : k.Sees s unitCmp n y) _ =>
      List.map_congr_left fun l hl => ?_
    have tests : votesOf k.x k.ls l (fun m => y.port unitCmp offA m != 0) = votesOf k.x k.ls l fun m => decide (k.val s m ≠ 0) :=
      votesOf_congr fun m hm => by rw [sees.landed lands hm, bne, beq_eq_decide, decide_not]
    change plainLane l (g y (y.sameHalf k.ls l) _) 0 = _
    rw [sameHalf_eq sees.w32, votes k.x y k.ls l _ sees.w32 h.ls_nodup fun m hm => h.ls_lt hm, tests]
    rfl
  · obtain ⟨g, hexec, lands, names⟩ := List.forall_iff_forall_mem.mp (crossRows_meet t) _ row
    refine laneOp_fills h zero (by decide) (hexec s) (fun _ => _) fun _ y _ (sees : k.Sees s unitCvt n y) _ =>
      List.map_congr_left fun l hl => ?_
    have stays (j : Nat) : y.port unitCvt offA j = k.x.port unitCvt offA j := sees.port (by decide) (by rw [← lands]; decide) j
    have index (m : Nat) : y.port unitCvt offB m = if m ∈ k.ls then k.val s m else k.x.port unitCvt offB m := by
      rw [sees.operand m offB (by decide), Scene.arg, if_pos lands]
    change plainLane l (y.port unitCvt offA (g y (y.sameHalf k.ls l) l)) 0 = _
    rw [sameHalf_eq sees.w32, stays, names k.x y _ _ l sees.w32 index]
    rfl
  · refine laneOp_fills h zero (by decide) rfl (fun _ => _) fun _ y _ (sees : k.Sees s unitCvt 20 y) _ =>
      List.map_congr_left fun l hl => ?_
    have lands : offA = landing unitCvt 20 := rfl
    have terms : ((halfMates k.x k.ls l).filter fun m => decide (m ≤ l)).map (fun m => nat32 (y.port unitCvt offA m)) =
        ((halfMates k.x k.ls l).filter fun m => decide (m ≤ l)).map fun m => nat32 (k.val s m) :=
      List.map_congr_left fun m hm => by rw [sees.landed lands (halfMates_sub (List.mem_filter.mp hm).1)]
    change plainLane l (zext32 (scanAt y (y.sameHalf k.ls l) l)) 0 = _
    rw [sameHalf_eq sees.w32, scanAt_eq, terms]
  · refine laneOp_fills h zero (by decide) rfl (fun x' => k.ls.map fun l => floatLane (k.x.lane l).nfr l (redSum x' k.x (halfMates k.x k.ls l)))
      fun _ y x' (sees : k.Sees s unitCvt 21 y) (sees' : k.Sees s unitCvt 21 x') => List.map_congr_left fun l hl => ?_
    have same (m : Nat) : y.port unitCvt offA m = x'.port unitCvt offA m := by
      rw [sees.operand m offA (by decide), sees'.operand m offA (by decide)]
    change floatLane (k.x.lane l).nfr l (redSum y k.x (y.sameHalf k.ls l)) = _
    rw [sameHalf_eq sees.w32, redSum_congr (sees.w32.trans sees'.w32.symm) same]

end Sys2Proof.Machine
end

section
/-! PROOFS. The routers of the fabric: what a change of the fabric leaves of them, the way of a lone mesh flit, and the injection
throttle (spec/11_fabric.md R398, R400, R408, R411). -/

namespace Sys2Proof.Machine

/-! ## Changes of the fabric -/

/-- A router's record is read off the fabric's routers alone. -/
theorem State.router_of_routers {s s' : State} (h : s'.eng.fab.routers = s.eng.fab.routers) (r : Nat) : s'.router r = s.router r := by
  rw [State.router, State.router, h]

@[simp] theorem State.router_modRouter_same (s : State) (r : Nat) (f : Router → Router) : (s.modRouter r f).router r = f (s.router r) :=
  FMap.getD_modifyD_same ..

theorem State.router_modRouter_other (s : State) (f : Router → Router) {k r : Nat} (h : k ≠ r) :
    (s.modRouter r f).router k = s.router k :=
  FMap.getD_insert_other _ _ _ h

namespace FabricOnly

theorem refl (s : State) : FabricOnly s s := ⟨rfl, rfl, rfl, rfl, rfl, rfl, rfl, rfl⟩

theorem modFab (s : State) (f : Fabric → Fabric) : FabricOnly s (s.modFab f) := ⟨rfl, rfl, rfl, rfl, rfl, rfl, rfl, rfl⟩

theorem modRouter (s : State) (r : Nat) (f : Router → Router) : FabricOnly s (s.modRouter r f) := modFab s _

end FabricOnly

/-! ## Outputs of a mesh flit (R398, R400) -/

theorem firstWhere_eq_find? {α : Type} (p : α → Bool) (l : List α) : firstWhere p l = l.find? p := by
  induction l with
  | nil => rfl
  | cons x r ih => rw [firstWhere, List.find?_cons, ih]; cases p x <;> rfl

theorem meshHas_eq_isSome_neighbour (r : Nat) {out : Nat} (h : out < 4) : meshHas r out = (neighbour r out).isSome := by
  unfold neighbour
  match out, h with
  | 0, _ | 1, _ | 2, _ | 3, _ => simp [meshHas, apply_ite Option.isSome]

theorem anyOutput_mesh (s : State) (r : Nat) {m : Message} (mesh : m.xd = false) : anyOutput s r m = [0, 1, 2, 3].filter (meshHas r) := by
  rw [anyOutput, if_neg (by simp [mesh])]
  refine List.filter_congr fun out h => (meshHas_eq_isSome_neighbour r ?_).symm
  simp only [List.mem_cons, List.not_mem_nil, or_false] at h
  omega

theorem meshWays_self (r : Nat) : meshWays r r = [] := by simp [meshWays]

theorem productive_mesh (s : State) (r : Nat) {m : Message} (mesh : m.xd = false) : productive s r m = meshWays r m.dst := by
  have either (a b : Nat) (k j : List Nat) :
      (if a < b then k else if b < a then j else []) = (if a < b then k else []) ++ if b < a then j else [] := by
    rcases Nat.lt_trichotomy a b with h | rfl | h
    · simp [h, Nat.lt_asymm h]
    · simp
    · simp [h, Nat.lt_asymm h]
  unfold productive
  dsimp only
  rw [if_neg (by simp [mesh]), either, either, meshWays, ← List.append_assoc]

/-- At its destination a mesh flit has no way left that is shorter, as R408 has it for one that finds its port taken. -/
theorem ways_mesh (s : State) (r : Nat) {m : Message} (mesh : m.xd = false) :
    (if addressedTo s r m then [] else productive s r m) = meshWays r m.dst := by
  rw [productive_mesh s r mesh]
  by_cases h : m.dst = r
  · rw [h, meshWays_self, ite_self]
  · rw [if_neg (by simp [addressedTo, mesh, h])]

/-! ## Deflections (R408, R411) -/

theorem leaveDevice_routers (s : State) (f : Flit) : (leaveDevice s f).eng.fab.routers = s.eng.fab.routers := by
  unfold leaveDevice giveCredit
  split
  · rfl
  · split
    · rfl
    · split <;> rfl

theorem takeOutput_routers (s : State) (r out : Nat) (f : Flit) :
    (takeOutput s r out f).eng.fab.routers = (s.modRouter r fun x => { x with taken := out :: x.taken }).eng.fab.routers := by
  unfold takeOutput
  dsimp only
  split
  · split
    · rfl
    · exact leaveDevice_routers _ f
  · exact leaveDevice_routers _ f

theorem takeOutput_router (s : State) (r out : Nat) (f : Flit) :
    (takeOutput s r out f).router r = { s.router r with taken := out :: (s.router r).taken } := by
  rw [State.router_of_routers (takeOutput_routers s r out f), State.router_modRouter_same]

theorem countDeflection_routers (s : State) (r : Nat) :
    (countDeflection s r).eng.fab.routers = (s.modRouter r fun x => { x with defl := x.defl + 1 }).eng.fab.routers := by
  unfold countDeflection
  dsimp only
  split
  · exact foldOver_keeps (fun t : State => t.eng.fab.routers = _) _ _ _ rfl fun t ep h => by rw [(countEvent_device t _ _).eng, h]
  · rfl

theorem countDeflection_router (s : State) (r : Nat) : (countDeflection s r).router r = { s.router r with defl := (s.router r).defl + 1 } := by
  rw [State.router_of_routers (countDeflection_routers s r), State.router_modRouter_same]

/-- A mesh flit that its router cannot eject, and for which no productive output is free, takes the first free one, and that is counted. -/
theorem routeFlit_deflected {s : State} {r out : Nat} {f : Flit} {m : Message} (hm : s.message? f.msg = some m) (mesh : m.xd = false)
    (stays : ¬ (m.dst = r ∧ m.dstEp / 4 ∉ (s.router r).eject))
    (noWay : (meshWays r m.dst).find? (fun o => !(s.router r).taken.contains o) = none)
    (free : ([0, 1, 2, 3].find? fun o => meshHas r o && !(s.router r).taken.contains o) = some out) :
    routeFlit r s f = countDeflection (takeOutput s r out f) r := by
  have port_taken : ¬ (addressedTo s r m ∧ takesFlit s r m ∧ ¬ (s.router r).eject.contains (ejectPort m)) := by
    simpa [addressedTo, takesFlit, ejectPort, mesh] using stays
  have none_productive : freeOutput s r (if addressedTo s r m then [] else productive s r m) = none := by
    rw [ways_mesh s r mesh, freeOutput, firstWhere_eq_find?, noWay]
  have first_free : freeOutput s r (anyOutput s r m) = some out := by
    rw [anyOutput_mesh s r mesh, freeOutput, firstWhere_eq_find?, List.find?_filter]
    simpa using free
  unfold routeFlit
  rw [hm]
  dsimp only
  rw [if_neg port_taken, none_productive, first_free]

/-- The flits that arrive at a router stand no longer on their hops. -/
def takeArrivals (s : State) (r : Nat) : State := s.modFab fun b => { b with flits := b.flits.filter fun g => g.router != r }

@[simp] theorem takeArrivals_message? (s : State) (r n : Nat) : (takeArrivals s r).message? n = s.message? n := rfl
@[simp] theorem takeArrivals_router (s : State) (r k : Nat) : (takeArrivals s r).router k = s.router k := rfl

/-- A flit that alone arrives at a router is routed there. -/
theorem flitArrival_alone {s : State} {r : Nat} {f : Flit} (sub : s.subject = .num r)
    (alone : s.eng.fab.flits.filter (fun g => decide (g.router = r)) = [f]) :
    exec .flitArrival s = .next (routeFlit r (takeArrivals s r) f) := by
  change execFlitArrival s = _
  have here : (s.eng.fab.flits.filter fun g => g.router == r) = [f] := by simpa only [beq_eq_decide] using alone
  simp only [execFlitArrival, sub, here, foldOver, insertFlit, takeArrivals]

theorem flitArrival_deflected {s : State} {r out : Nat} {f : Flit} {m : Message} (sub : s.subject = .num r)
    (alone : s.eng.fab.flits.filter (fun g => decide (g.router = r)) = [f]) (hm : s.message? f.msg = some m) (mesh : m.xd = false)
    (stays : ¬ (m.dst = r ∧ m.dstEp / 4 ∉ (s.router r).eject))
    (noWay : (meshWays r m.dst).find? (fun o => !(s.router r).taken.contains o) = none)
    (free : ([0, 1, 2, 3].find? fun o => meshHas r o && !(s.router r).taken.contains o) = some out) :
    ∃ s', exec .flitArrival s = .next s' ∧
      s'.router r = { s.router r with taken := out :: (s.router r).taken, defl := (s.router r).defl + 1 } := by
  refine ⟨_, flitArrival_alone sub alone, ?_⟩
  rw [routeFlit_deflected (s := takeArrivals s r) ((takeArrivals_message? ..).trans hm) mesh stays noWay free, countDeflection_router, takeOutput_router,
    takeArrivals_router]

/-! ## The throttle level (R411) -/

/-- A router that is not listed is as at reset. -/
theorem State.router_eq_start_or_mem_keys (s : State) (r : Nat) : s.router r = Router.start ∨ r ∈ s.eng.fab.routers.keys := by
  have listed (l : List (Nat × Router)) : lookupKey r l = none ∨ r ∈ l.map Prod.fst := by
    induction l with
    | nil => exact .inl rfl
    | cons e l ih =>
      rw [lookupKey, List.map_cons, List.mem_cons]
      by_cases h : e.1 = r
      · exact .inr (.inl h.symm)
      · rw [if_neg h]
        exact ih.imp_right .inr
  exact (listed s.eng.fab.routers.entries).imp_left fun h => by rw [State.router, FMap.getD, FMap.find?, h, Option.getD_none]

/-- Every turn of the fabric that a clk holds is on its agenda. -/
theorem mem_planClk_of_dueOfFabric {s : State} {t : Turn} (h : t ∈ dueOfFabric s) : t ∈ (planClk s).agenda := by
  simp only [planClk, List.mem_append, h, true_or]

/-- A window of 256 clk ends with a turn for every router that has done anything. -/
theorem throttleUpdate_mem_dueOfFabric {s : State} {r : Nat} (edge : s.clk % 256 = 0) (h : r ∈ s.eng.fab.routers.keys) :
    Turn.event .throttleUpdate (.num r) ∈ dueOfFabric s := by
  have turn : Turn.event .throttleUpdate (.num r) ∈ s.eng.fab.routers.keys.map fun k => Turn.event .throttleUpdate (.num k) :=
    List.mem_map_of_mem h
  simp only [dueOfFabric, List.mem_append, if_pos edge, turn, true_or, or_true]

theorem nextLevel_eq (level d : Nat) :
    nextLevel level d = if level < min 7 (d / 32) then min 7 (d / 32) else max (min 7 (d / 32)) (level - 1) := rfl

theorem throttleUpdate_edge {s : State} {r : Nat} (sub : s.subject = .num r) (edge : s.clk % 256 = 0) :
    exec .throttleUpdate s = .next (s.modRouter r fun x => { x with level := nextLevel x.level x.defl, defl := 0 }) := by
  change execThrottleUpdate s = _
  rw [execThrottleUpdate, sub]
  exact if_neg (not_not.mpr edge)

theorem throttleUpdate_between {s : State} {r : Nat} (sub : s.subject = .num r) (off : s.clk % 256 ≠ 0) :
    exec .throttleUpdate s = .next s := by
  change execThrottleUpdate s = _
  rw [execThrottleUpdate, sub]
  exact if_pos off

/-- Settles O56: a deflection adds 1 to the router's count and leaves its level; at the edge of a window each router that is not as at
reset has its turn, which takes the next level and clears the count, and between edges a turn changes nothing. -/
theorem throttleFollowsDeflections : Obligations.ThrottleFollowsDeflections := by
  refine ⟨fun _ => rfl, fun s r out f m sub _ alone hm mesh _ stays noWay free => ?_, fun s r edge => ?_, fun s r sub => ?_⟩
  · obtain ⟨s', next, after⟩ := flitArrival_deflected sub alone hm mesh stays noWay free
    exact ⟨s', next, by rw [after], by rw [after]⟩
  · exact (s.router_eq_start_or_mem_keys r).imp_right fun listed =>
      mem_planClk_of_dueOfFabric (throttleUpdate_mem_dueOfFabric edge listed)
  · by_cases edge : s.clk % 256 = 0
    · refine ⟨_, throttleUpdate_edge sub edge, .modRouter .., rfl, fun k other => s.router_modRouter_other _ other, ?_⟩
      dsimp only
      rw [if_pos edge, State.router_modRouter_same, nextLevel_eq]
    · exact ⟨s, throttleUpdate_between sub edge, .refl s, rfl, fun _ _ => rfl, (if_neg edge).symm⟩

end Sys2Proof.Machine
end
